-- ==== Sys2Proof/Word.lean ====
section
/-! DEFINITION. The plain data types under the model: bytes and counters the manual gives a width,
and `Tbl`, the fixed-size record table (64 zones, 48 doors, ...). A `Tbl` carries the proof of its
size, so a read by a `Fin` index is total and a table never changes its length. -/

set_option autoImplicit false

namespace Sys2Proof

/-- One byte of a station frame (11.6). -/
abbrev Byte := BitVec 8

/-- A value of the seconds counter, 32 bits wide (4.3). -/
abbrev Seconds := BitVec 32

/-- A wing's revision stamp, a 16-bit count (R12). -/
abbrev Revision := BitVec 16

/-- The nearest value of `lo` to `hi` (4.5: a value outside its range is clamped to the nearest end). -/
def clamp (lo hi v : Nat) : Nat := max lo (min v hi)

/-- A table of exactly `n` records, numbered from 0 (4.2). -/
structure Tbl (n : Nat) (α : Type) where
  rows : List α
  size_eq : rows.length = n
  deriving DecidableEq, Repr

namespace Tbl

variable {n : Nat} {α β : Type}

/-- The table whose every record is `a`. -/
def fill (n : Nat) (a : α) : Tbl n α := ⟨List.replicate n a, List.length_replicate⟩

/-- The table whose record `i` is `f i`. -/
def tabulate (f : Fin n → α) : Tbl n α := ⟨(List.finRange n).map f, by simp⟩

/-- Record number `i`. -/
def get (t : Tbl n α) (i : Fin n) : α := t.rows[i.val]'(by rw [t.size_eq]; exact i.isLt)

/-- The table with record `i` replaced. -/
def set (t : Tbl n α) (i : Fin n) (a : α) : Tbl n α :=
  ⟨t.rows.set i.val a, by simp [t.size_eq]⟩

/-- The table with record `i` changed by `f`. -/
def modify (t : Tbl n α) (i : Fin n) (f : α → α) : Tbl n α := t.set i (f (t.get i))

/-- The table with every record changed by `f`. -/
def map (f : α → β) (t : Tbl n α) : Tbl n β := ⟨t.rows.map f, by simp [t.size_eq]⟩

/-- The table with every record changed by `f`, which is told the record's number. -/
def mapIdx (f : Fin n → α → β) (t : Tbl n α) : Tbl n β :=
  ⟨List.zipWith f (List.finRange n) t.rows, by simp [t.size_eq]⟩

/-- The numbers of the records that satisfy `p`, ascending. -/
def indices (t : Tbl n α) (p : Fin n → α → Bool) : List (Fin n) :=
  (List.zip (List.finRange n) t.rows).filterMap fun r => if p r.1 r.2 then some r.1 else none

/-- How many records satisfy `p`. -/
def count (t : Tbl n α) (p : α → Bool) : Nat := t.rows.countP p

end Tbl

end Sys2Proof
end

