-- ==== Sys2Proof/Config.lean ====
section
/-! DEFINITION. What the part fixes once: the sizes of its tables, the lengths of its fixed timers
and the constants of its arithmetic. The manual states every value the part computes, so there is
no free value here: every number below cites its rule. -/

set_option autoImplicit false

namespace Sys2Proof.Config

/-- Hysteresis below the pre-alarm level (R47). -/
def hysteresis : Nat := 16
/-- The top of the level range (R44). -/
def levelMax : Nat := 2047
/-- The alarm level that disables the level alarm (R46). -/
def noLevelAlarm : Nat := 2047
/-- Raw values from here up to `validHigh` are valid replies (R42, R43). -/
def validLow : Nat := 64
/-- The highest valid raw value (R43). -/
def validHigh : Nat := 4031
/-- The largest number by which the ends of a mirrored slot may differ without a mismatch (R29). -/
def mismatchLimit : Nat := 64
/-- The missed count at which a detector enters FAULT (R42). -/
def missedLimit : Nat := 3
/-- The ceiling of the rise run (R45). -/
def riseRunMax : Nat := 15
/-- The largest step of baseline tracking, in sixteenths (R51). -/
def trackStepMax : Int := 8
/-- The divisor of baseline tracking (R51). -/
def trackDivisor : Int := 64
/-- Length of a zone test in seconds (R53). -/
def testSeconds : Nat := 3600
/-- Length of the POWER_OFF phase of a loop restart (R32). -/
def powerOffSeconds : Nat := 1
/-- Length of the not-closed timer of a FIRE_HOLD door (R105). -/
def notClosedSeconds : Nat := 30
/-- Length of the link silence timer (R166). -/
def linkSilenceSeconds : Nat := 10
/-- Places of a port's command queue (R167). -/
def commandQueueMax : Nat := 8
/-- Places of a port's query queue (R167). -/
def queryQueueMax : Nat := 4
/-- Places of a port's pending replies (R167). -/
def replyMax : Nat := 16
/-- Places of a port's notice queue (R163). -/
def noticeQueueMax : Nat := 16
/-- The fire burst count at which the fire port is passed over (R168). -/
def fireBurstMax : Nat := 4
/-- Entries the alarm log holds (R159). -/
def logMax : Nat := 512
/-- The last log sequence before it wraps to 1 (R158). -/
def sequenceMax : Nat := 4294967295
/-- The largest count of one READ LOG (R160). -/
def readLogMax : Nat := 16
/-- The ceiling of a help call's press count (R120). -/
def pressMax : Nat := 255
/-- The press count at which a NORMAL call becomes URGENT (R120). -/
def urgentPresses : Nat := 3
/-- The most steps of a path (R134). -/
def pathMax : Nat := 16
/-- The most routes of a zone's route list (R133). -/
def routesMax : Nat := 4
/-- The most detectors that may name one zone (R3). -/
def zoneDetectorsMax : Nat := 48
/-- The most body bytes of a frame (R165). -/
def bodyMax : Nat := 240

end Sys2Proof.Config
end

