-- ==== Sys2Proof/Syntax.lean ====
section
/-! DEFINITION. The commands of the part: one constructor of `Instr` per row of
spec/opcode_table.json, with the row's operands. A command of a station (and a query) carries the
operands of its body as the wire gives them: object numbers and values are numbers that may be out
of range, and an enumerated value is `none` when the station sent a value outside its set. The
part's own events (timer expiries, ends of work) and the field inputs name an existing object. -/

set_option autoImplicit false

namespace Sys2Proof

/-- The three supervising stations, in the cycle fire, guard, services (R167). -/
inductive Station | fire | guard | services
  deriving DecidableEq, Repr

/-- A wing's operating mode (section 1.6): OPEN, CLOSED, NIGHT. -/
inductive Mode | openHours | closed | night
  deriving DecidableEq, Repr

/-- A loop's mode (section 2.1). -/
inductive LoopMode | independent | mirrored
  deriving DecidableEq, Repr

/-- The four sources of an activity (R81). -/
inductive ActivitySource | presence | passage | call | patrol
  deriving DecidableEq, Repr

/-- How a zone classes a source (R83). -/
inductive ActivityClass | primary | secondary | ignored
  deriving DecidableEq, Repr

/-- The groups of log entries (section 10.1). -/
inductive Group | fire | fault | security | door | call | route | output | system
  deriving DecidableEq, Repr

/-- The two categories the authority map holds (R170). -/
inductive Category | guard | service
  deriving DecidableEq, Repr

/-- What one end of a loop gave for a poll (R25): a raw value, or NO_REPLY. -/
inductive Reading | raw (value : Nat) | noReply
  deriving DecidableEq, Repr

/-- A door's supervised contact (section 6.2). -/
inductive Contact | closed | opened | lineFault
  deriving DecidableEq, Repr

/-- A call point's input (R117). -/
inductive PointInput | pressed | restored
  deriving DecidableEq, Repr

/-- A channel's line report (R156). -/
inductive LineReport | lineFault | lineOk
  deriving DecidableEq, Repr

/-- The kinds of a detector class (section 3.1). -/
inductive ClassKind | smoke | heat
  deriving DecidableEq, Repr

/-- The kinds of a door (section 6.1). -/
inductive DoorKind | secureEgress | store | fireHold
  deriving DecidableEq, Repr

/-- A door's fail mode (section 6.1). -/
inductive FailMode | failSafe | failSecure
  deriving DecidableEq, Repr

/-- The kinds of a call point (section 7.1). -/
inductive PointKind | help | fire
  deriving DecidableEq, Repr

/-- The way an arrow points (section 8.2). -/
inductive Arrow | left | right | ahead | back
  deriving DecidableEq, Repr

/-- A channel's polarity (R148). -/
inductive Polarity | normal | inverted
  deriving DecidableEq, Repr

/-- A set of stations (R161). -/
structure StationSet where
  fire : Bool
  guard : Bool
  services : Bool
  deriving DecidableEq, Repr

/-- The fields of an entry of the zone table (R2): the zone's wing, or unconfigured. -/
inductive ZoneFields
  | unconfigured
  | configured (wing : Nat)
  deriving DecidableEq, Repr

/-- The fields of an entry of the wing table (R7). An omitted desk leaves the field unset. -/
structure WingFields where
  initialMode : Option Mode
  staged : Bool
  spreadList : List Nat
  evacDesk : Option Nat
  deriving DecidableEq, Repr

/-- The fields of an entry of the class table (R39). The window may be omitted. -/
structure ClassFields where
  kind : Option ClassKind
  preAlarm : Nat
  alarm : Nat
  riseStep : Nat
  riseCount : Nat
  night : Nat
  tracking : Option Bool
  bmin : Nat
  bmax : Nat
  fixedBaseline : Nat
  window : Option Nat
  deriving DecidableEq, Repr

/-- The fields of an entry of the detector table (R40): a removal, or the whole record. -/
inductive DetectorFields
  | removed
  | placed (loop address zone cls : Nat)
  deriving DecidableEq, Repr

/-- The content of one scan-list slot as an entry gives it (R20). -/
inductive SlotFields
  | endMark
  | address (number : Nat) (enabled : Bool)
  deriving DecidableEq, Repr

/-- Side B of a door as an entry gives it (R95): a zone, OUTSIDE, or a value outside the set. -/
inductive SideFields
  | zone (number : Nat)
  | outside
  | other
  deriving DecidableEq, Repr

/-- The inner zone of a door as an entry gives it (R95): absent, one of the sides, or a value
outside the set. -/
inductive InnerFields
  | absent
  | sideA
  | sideB
  | other
  deriving DecidableEq, Repr

/-- The fields of an entry of the door table (R95). -/
inductive DoorFields
  | unconfigured
  | configured (sideA : Nat) (sideB : SideFields) (kind : Option DoorKind)
      (failMode : Option FailMode) (freeInOpenHours : Bool) (inner : InnerFields)
  deriving DecidableEq, Repr

/-- The fields of an entry of the call point table (R114). -/
inductive PointFields
  | unconfigured
  | configured (zone : Nat) (kind : Option PointKind) (deskList : List Nat)
  deriving DecidableEq, Repr

/-- The fields of an entry of the desk table (R114). -/
structure DeskFields where
  owner : Option Station
  capacity : Nat
  tOffer : Nat
  deriving DecidableEq, Repr

/-- The fields of an entry of the exit table (R131). An omitted door is absent. -/
inductive ExitFields
  | unconfigured
  | configured (zone : Nat) (door : Option Nat)
  deriving DecidableEq, Repr

/-- The aspect of a descriptor as an entry gives it (R133). -/
inductive ArrowFields
  | absent
  | arrow (a : Arrow)
  | other
  deriving DecidableEq, Repr

/-- The fields of an entry of the descriptor table (R133). -/
structure DescriptorFields where
  zone : Nat
  sign : Option Nat
  arrow : ArrowFields
  lastStep : Bool
  deriving DecidableEq, Repr

/-- One route as an entry of the route-list table gives it (R133). -/
structure RouteFields where
  head : Nat
  exit : Nat
  deriving DecidableEq, Repr

/-- A live setting of a wing or zone record with its new value (R5). -/
inductive ZoneWingSetting
  | tAck (wing value : Nat)
  | tInv (wing value : Nat)
  | tSpread (wing value : Nat)
  | exitDelay (wing value : Nat)
  | vacancyPeriod (zone value : Nat)
  | activityClass (zone : Nat) (source : ActivitySource) (value : Option ActivityClass)
  deriving DecidableEq, Repr

/-- A live setting of a loop with its new value (R21). -/
inductive LoopSetting
  | scanInterval (value : Nat)
  | settlePeriod (value : Nat)
  | mode (value : Option LoopMode)
  deriving DecidableEq, Repr

/-- A live setting of a door with its new value (R96). -/
inductive DoorSetting
  | tPass (value : Nat)
  | tHeld (value : Nat)
  deriving DecidableEq, Repr

/-- The commands of the part: one constructor per row of spec/opcode_table.json. -/
inductive Instr
  -- the reset input and the station links (chapter 11)
  | powerOn
  | frameReceived (port : Station) (bytes : List Byte)
  | transmissionEnd (port : Station)
  | linkSilenceExpiry (port : Station)
  -- commands of the fire station (code table of 11.6)
  | acknowledgeWing (wing : Nat)
  | evacuateWing (wing : Nat)
  | silenceWing (wing : Nat) (revision : Revision)
  | resetZone (zone : Nat) (revision : Revision)
  | resetWing (wing : Nat) (revision : Revision)
  | manualAlarmZone (zone : Nat)
  | markExitBlocked (exit : Nat)
  | markExitOpen (exit : Nat)
  | disableDetector (detector : Nat)
  | enableDetector (detector : Nat)
  | restartLoop (loop : Nat)
  | start
  | restart
  | enterConfiguration
  -- commands under GUARD authority
  | setWingMode (wing : Nat) (mode : Option Mode)
  | armZone (zone : Nat)
  | disarmZone (zone : Nat)
  | clearBreach (zone : Nat) (revision : Revision)
  | passDoor (door : Nat)
  | lockdownWing (wing : Nat)
  | endLockdown (wing : Nat)
  | reportPatrol (zone : Nat)
  -- commands under SERVICE authority
  | testZoneOn (zone : Nat)
  | testZoneOff (zone : Nat)
  | holdChannels (first count : Nat)
  | freeChannels (first count : Nat)
  | releaseDrive (first count : Nat)
  | restoreDrive (first count : Nat)
  -- commands of the desks
  | acceptCall (point desk : Nat)
  | clearCall (point : Nat)
  | setDeskCapacity (desk capacity : Nat)
  -- WRITE ENTRY, one row per table (R171)
  | writeEntryZone (zone : Nat) (fields : ZoneFields)
  | writeEntryWing (wing : Nat) (fields : WingFields)
  | writeEntryClass (cls : Nat) (fields : ClassFields)
  | writeEntryDetector (detector : Nat) (fields : DetectorFields)
  | writeEntryLoop (loop : Nat) (inUse : Bool) (mode : Option LoopMode)
  | writeEntryScanList (loop slot : Nat) (fields : SlotFields)
  | writeEntryDoor (door : Nat) (fields : DoorFields)
  | writeEntryCallPoint (point : Nat) (fields : PointFields)
  | writeEntryDesk (desk : Nat) (fields : DeskFields)
  | writeEntryExit (exit : Nat) (fields : ExitFields)
  | writeEntryDescriptor (index : Nat) (fields : DescriptorFields)
  | writeEntryRouteList (zone : Nat) (routes : List RouteFields)
  | writeEntrySign (sign zone : Nat)
  | writeEntryChannel (channel : Nat) (polarity : Option Polarity)
  -- WRITE SETTING
  | writeSettingZoneWing (setting : ZoneWingSetting)
  | writeSettingLoop (loop : Nat) (setting : LoopSetting)
  | writeSettingDoor (door : Nat) (setting : DoorSetting)
  | writeSettingDeskList (point : Nat) (deskList : List Nat)
  | writeSettingTOffer (desk value : Nat)
  | writeSettingRouting (group : Option Group) (stations : Option StationSet) (byDesk : Bool)
  | writeSettingAuthority (station : Option Station) (wing : Nat) (category : Option Category)
      (granted : Bool)
  -- queries
  | status
  | readZone (zone : Nat)
  | readWing (wing : Nat)
  | readDetector (detector : Nat)
  | readLoop (loop : Nat)
  | readDoor (door : Nat)
  | readCallQueue
  | readCallPoint (point : Nat)
  | readRoute (zone : Nat)
  | readExit (exit : Nat)
  | readChannel (channel : Nat)
  | readLog (first count : Nat)
  -- the detector loops
  | intervalTimerExpiry (loop : Fin 4)
  | pollComplete (loop : Fin 4) (reply : Reading)
  | mirroredPollComplete (pair : Fin 2) (endA endB : Reading)
  | powerOffExpiry (loop : Fin 4)
  | settleExpiry (loop : Fin 4)
  -- timers of detectors, zones and wings
  | verifyTimerExpiry (detector : Fin 192)
  | testTimerExpiry (zone : Fin 64)
  | stageTimerExpiry (wing : Fin 4)
  | spreadTimerExpiry (wing : Fin 4)
  -- presence and arming
  | presenceInput (zone : Fin 64)
  | vacancyTimerExpiry (zone : Fin 64)
  | exitDelayExpiry (zone : Fin 64)
  -- doors
  | contactInput (door : Fin 48) (report : Contact)
  | heldTimerExpiry (door : Fin 48)
  | notClosedTimerExpiry (door : Fin 48)
  | rexPress (door : Fin 48)
  | rexGrantExpiry (door : Fin 48)
  | passGrantExpiry (door : Fin 48)
  -- calls
  | callPointInput (point : Fin 64) (input : PointInput)
  | offerTimerExpiry (point : Fin 64)
  -- routes and channels
  | selectionPassEnd
  | channelLineReport (channel : Fin 276) (report : LineReport)
  deriving DecidableEq, Repr

end Sys2Proof
end

