-- ==== Sys2Proof/Machine/State.lean ====
section
/-! DEFINITION. The state of the part: every record the manual gives each block, with the values of
power-on (`State.reset`). Optional fields of the manual (4.6) are `Option`s or arguments of the state
that owns them, so that a field is present exactly when the manual says so. A running timer holds its
remaining seconds; a timer whose last second has been counted stands at 0 until its expiry is taken. -/

set_option autoImplicit false

namespace Sys2Proof.Machine

/-- What stops the machine. The manual names no condition in which the part stops, so the type has no
constructor and no step can fault. Safe: the model goes on wherever the part does. -/
inductive Fault
  deriving DecidableEq, Repr

/-- Why a command has no next state. -/
inductive Refusal
  /-- Raised by `exec`'s arm of a command that has no meaning yet. Safe: the model stops and no claim
  about a next state can be drawn from it. No arm raises it: every row has its meaning. -/
  | notModelled (mnemonic : String)
  deriving DecidableEq, Repr

/-! ### Zone and wing records (chapter 1) -/

/-- What set a zone in ALARM (R61). -/
inductive AlarmOrigin
  | detector (number : Fin 192)
  | manualCall (point : Fin 64)
  | station
  deriving DecidableEq, Repr

/-- The fire state of a zone (section 4.1); origin and time are present in ALARM only (R4). -/
inductive FireState
  | normal
  | preAlarm
  | alarm (origin : AlarmOrigin) (time : Seconds)
  deriving DecidableEq, Repr

/-- The name of a fire state, as a log detail and the route engine's view hold it. -/
inductive FireName | normal | preAlarm | alarm
  deriving DecidableEq, Repr

/-- The grade of a route (R135). -/
inductive Grade | clear | passable | blocked
  deriving DecidableEq, Repr

/-- The occupancy of a zone (section 5.2). -/
inductive Occupancy | occupied | vacant
  deriving DecidableEq, Repr

/-- The state a zone was suspended from (R91). -/
inductive SuspendedFrom | armed | exitDelay
  deriving DecidableEq, Repr

/-- The security state of a zone (section 5.3), with its exit delay timer and suspended-from. -/
inductive Security
  | disarmed
  | exitDelay (remaining : Nat)
  | armed
  | suspended (origin : SuspendedFrom)
  | breach
  deriving DecidableEq, Repr

/-- The class a zone gives each source of activity (R5, R83). -/
structure ActivityClasses where
  presence : ActivityClass
  passage : ActivityClass
  call : ActivityClass
  patrol : ActivityClass
  deriving DecidableEq, Repr

/-- The last activity of one class: its source and time (R83). -/
structure LastActivity where
  source : ActivitySource
  time : Seconds
  deriving DecidableEq, Repr

/-- A zone record (section 1.1). `routeGrades` are the grades kept for READ ROUTE (R139, R145): empty
when the zone had no egress in the last pass. -/
structure Zone where
  configured : Bool
  wing : Fin 4
  detectorCount : Nat
  impairedCount : Nat
  testTimer : Option Nat
  fire : FireState
  egress : Bool
  transit : Nat
  selected : Option (Fin 4)
  grade : Option Grade
  noRoute : Bool
  routeGrades : List Grade
  occupancy : Occupancy
  vacancyTimer : Option Nat
  vacancyPeriod : Nat
  classes : ActivityClasses
  lastPrimary : Option LastActivity
  lastSecondary : Option LastActivity
  security : Security
  activeCalls : Nat
  deriving DecidableEq, Repr

/-- The evacuation stage of a wing (section 4.2), with its stage timer. -/
inductive Stage
  | standby
  | ackWait (remaining : Nat)
  | investigate (remaining : Nat)
  | evacuate
  deriving DecidableEq, Repr

/-- The name of a stage, as log details hold it. -/
inductive StageName | standby | ackWait | investigate | evacuate
  deriving DecidableEq, Repr

/-- A wing record (section 1.2). -/
structure Wing where
  mode : Mode
  initialMode : Mode
  staged : Bool
  stage : Stage
  silenced : Bool
  spreadList : List (Fin 4)
  spreadTimer : Option Nat
  alerted : Bool
  evacDesk : Option (Fin 8)
  lockdown : Bool
  revision : Revision
  tAck : Nat
  tInv : Nat
  tSpread : Nat
  exitDelay : Nat
  deriving DecidableEq, Repr

/-! ### Detector loops (chapter 2) -/

/-- The phase of a loop restart (section 2.6). -/
inductive RestartPhase | powerOff | settle
  deriving DecidableEq, Repr

/-- The state of a loop (section 2.2), with the restart phase and its timer. -/
inductive LoopState
  | off
  | restarting (phase : RestartPhase) (remaining : Nat)
  | running
  | lineFault
  deriving DecidableEq, Repr

/-- What one completed poll of the scan under way gave, kept for the judgments at the scan's end
(R27, R31). On an independent loop end B is NO_REPLY. -/
structure PollNote where
  slot : Fin 48
  endA : Reading
  endB : Reading
  deriving DecidableEq, Repr

/-- A scan in progress: the scanning flag is its presence, with the current slot (R24) and the polls
already completed. -/
structure Scan where
  slot : Fin 48
  polls : List PollNote
  deriving DecidableEq, Repr

/-- A loop record (section 2.1). `power` is the loop driver's (section 2.2). -/
structure Loop where
  inUse : Bool
  mode : LoopMode
  pendingMode : Option LoopMode
  state : LoopState
  power : Bool
  scan : Option Scan
  due : Bool
  intervalTimer : Option Nat
  lastStart : Option Seconds
  breakPosition : Option (Fin 48)
  scanInterval : Nat
  settlePeriod : Nat
  deriving DecidableEq, Repr

/-- One slot of a scan list (R20). -/
inductive ScanSlot
  | endMark
  | address (number : Nat) (enabled : Bool)
  deriving DecidableEq, Repr

/-- The holder of a converter (R23): pair `p` is the mirrored pair of loops `p` and `p + 2`. -/
inductive Holder
  | free
  | loop (number : Fin 4)
  | pair (number : Fin 2)
  | kept (number : Fin 2)
  deriving DecidableEq, Repr

/-! ### Detectors (chapter 3) -/

/-- A class record (section 3.1). -/
structure DetectorClass where
  configured : Bool
  kind : ClassKind
  preAlarm : Nat
  alarm : Nat
  riseStep : Nat
  riseCount : Nat
  night : Nat
  tracking : Bool
  bmin : Nat
  bmax : Nat
  fixedBaseline : Nat
  window : Nat
  deriving DecidableEq, Repr

/-- The kind of a detector's fault (R42). -/
inductive FaultKind | noReply | headRemoved | overRange
  deriving DecidableEq, Repr

/-- The state of a detector (section 3.2), with the fault kind and the verify timer. -/
inductive DetectorState
  | unmonitored
  | normal
  | preAlarm
  | verifying (remaining : Nat)
  | alarm
  | fault (kind : FaultKind)
  | disabled
  deriving DecidableEq, Repr

/-- A request waiting on a detector's loop (R35). -/
inductive WaitingRequest | disable | enable
  deriving DecidableEq, Repr

/-- A detector record (section 3.2). -/
structure Detector where
  loop : Fin 4
  address : Nat
  zone : Fin 64
  cls : Fin 8
  state : DetectorState
  missed : Nat
  validRun : Nat
  baseline : Nat
  level : Option Nat
  riseRun : Nat
  compLimit : Bool
  testArmed : Option Bool
  mismatch : Bool
  waiting : Option WaitingRequest
  deriving DecidableEq, Repr

/-! ### Output channels (chapter 9) -/

/-- Every value a channel can hold (section 9.1). -/
inductive ChannelValue
  | lock | unlock | hold | close
  | arrow (a : Arrow) | noExit | exitSteady | dark
  | off | flash | steady
  | on
  | alert | evacuate
  deriving DecidableEq, Repr

/-- The kind of a channel, fixed by its number (section 9.1). -/
inductive ChannelKind | door | sign | lamp | light | sounder
  deriving DecidableEq, Repr

/-- The latch mode of a channel (section 9.2). -/
inductive Latch | follow | hold
  deriving DecidableEq, Repr

/-- The drive of a channel (section 9.2). -/
inductive Drive | enabled | released
  deriving DecidableEq, Repr

/-- A channel record (section 9.1). -/
structure Channel where
  wing : Option (Fin 4)
  source : ChannelValue
  latch : Latch
  latched : ChannelValue
  drive : Drive
  polarity : Polarity
  failValue : ChannelValue
  lineFault : Bool
  effective : ChannelValue
  deriving DecidableEq, Repr

/-- The value of a channel message in wire sense (R150). -/
inductive WireValue
  | asserted
  | negated
  | plain (v : ChannelValue)
  deriving DecidableEq, Repr

/-- One message of the output stage to the field (R150). A RELEASED drive carries no value. -/
structure ChannelMessage where
  channel : Fin 276
  drive : Drive
  value : Option WireValue
  deriving DecidableEq, Repr

/-! ### Doors (chapter 6) -/

/-- One side of a door (section 6.1). -/
inductive Side | sideA | sideB
  deriving DecidableEq, Repr

/-- The status of a door (section 6.2). -/
inductive DoorStatus
  | closedLocked | closedUnlocked | openAuthorised | openHeld | forced | fault
  deriving DecidableEq, Repr

/-- The cause of a door's computed value (R102, R104). -/
inductive DoorCause
  | egress | rex | lockdown | armed | pass | schedule | fire | evacuate | night
  deriving DecidableEq, Repr

/-- A grant held by a door (section 6.4). -/
inductive Grant
  | counting (remaining : Nat)
  | opened
  deriving DecidableEq, Repr

/-- A door record (section 6.1). `sideB` is `none` for OUTSIDE. -/
structure Door where
  configured : Bool
  sideA : Fin 64
  sideB : Option (Fin 64)
  kind : DoorKind
  failMode : FailMode
  freeInOpenHours : Bool
  inner : Option Side
  tPass : Nat
  tHeld : Nat
  contact : Contact
  status : DoorStatus
  faultReported : Bool
  value : ChannelValue
  cause : DoorCause
  rex : Option Grant
  pass : Option Grant
  heldTimer : Option Nat
  notClosedTimer : Option Nat
  notClosedReported : Bool
  claims : Nat
  deriving DecidableEq, Repr

/-! ### Calls (chapter 7) -/

/-- The priority of a help call (R121). -/
inductive Priority | normal | urgent | evacAssist
  deriving DecidableEq, Repr

/-- A place of a call's cycle (R116): the evacuation desk, or a position of the desk list. -/
inductive Place
  | evac
  | position (number : Nat)
  deriving DecidableEq, Repr

/-- Where an active help call stands (section 7.3), with the fields present there. -/
inductive CallPhase
  | raised
  | offered (desk : Fin 8) (remaining : Nat)
  | accepted (desk : Fin 8)
  deriving DecidableEq, Repr

/-- The fields of a HELP point that is not IDLE (section 7.1). -/
structure HelpCall where
  presses : Nat
  firstPress : Seconds
  priority : Priority
  next : Place
  phase : CallPhase
  deriving DecidableEq, Repr

/-- The state of a call point (section 7.1). -/
inductive PointState
  | idle
  | latched
  | active (call : HelpCall)
  deriving DecidableEq, Repr

/-- A call point record (section 7.1). The lamp takes the values OFF, FLASH and STEADY. -/
structure CallPoint where
  configured : Bool
  zone : Fin 64
  kind : PointKind
  input : PointInput
  deskList : List (Fin 8)
  state : PointState
  lamp : ChannelValue
  deriving DecidableEq, Repr

/-- A desk record (section 7.1). The offered count is the length of `offered`. -/
structure Desk where
  owner : Option Station
  capacity : Nat
  tOffer : Nat
  offered : List (Fin 64)
  deriving DecidableEq, Repr

/-! ### Routes (chapter 8) -/

/-- The state of a configured exit (R132). -/
inductive ExitState | available | blocked
  deriving DecidableEq, Repr

/-- An exit record (section 8.1). -/
structure ExitRecord where
  configured : Bool
  zone : Fin 64
  door : Option (Fin 48)
  stationBlocked : Bool
  state : ExitState
  deriving DecidableEq, Repr

/-- The sign a step names, with the way it points (section 8.2). -/
structure StepSign where
  sign : Fin 96
  arrow : Arrow
  deriving DecidableEq, Repr

/-- A path descriptor (section 8.2). -/
structure Descriptor where
  zone : Fin 64
  sign : Option StepSign
  lastStep : Bool
  deriving DecidableEq, Repr

/-- A route of a zone's route list (section 8.2). -/
structure Route where
  head : Fin 512
  exit : Fin 16
  deriving DecidableEq, Repr

/-- A sign record (R141). -/
structure Sign where
  configured : Bool
  home : Fin 64
  aspect : ChannelValue
  claims : Nat
  winner : Option (Fin 64)
  deriving DecidableEq, Repr

/-- What a pass's view holds of one zone (R137). -/
structure ZoneView where
  configured : Bool
  fire : FireName
  unprotected : Bool
  egress : Bool
  deriving DecidableEq, Repr

/-- What a pass's view holds of one exit (R137). -/
structure ExitView where
  state : ExitState
  stationBlocked : Bool
  deriving DecidableEq, Repr

/-- The view a selection pass works from (R137). -/
structure View where
  zones : Tbl 64 ZoneView
  exits : Tbl 16 ExitView
  deriving DecidableEq, Repr

/-- The state of the route engine (section 8.4). `opening` stands only inside the event that starts a
pass: the view is taken from the state that event leaves (R137). -/
inductive RouteEngine
  | idle
  | opening
  | passing (view : View) (again : Bool)
  deriving DecidableEq, Repr

/-! ### The alarm log and notices (chapter 10) -/

/-- The kinds of log entries, gathered from the tables of the chapters. -/
inductive EntryKind
  | detectorPreAlarm | detectorNormal | verifyStarted | detectorAlarm | unconfirmed | verifyAborted
  | detectorFault | faultCleared | compLimit | testStarted | testActivation | testEnded
  | zoneAlarm | manualAlarm | stageChange | wingAlerted | alertEnded | wingSilenced
  | wingResounded | zoneReset | wingReset | fireCall | callPointRestored
  | loopLineFault | loopLineFaultCleared | loopBreak | loopBreakCleared | loopRestart | loopRunning
  | mirrorMismatch | detectorDisabled | detectorEnabled
  | wingMode | patrolReported | armStarted | armAborted | zoneArmed | breach | breachCleared
  | zoneDisarmed | armSuspended | armRestored | armLost | lockdownStarted | lockdownEnded
  | doorForced | doorRestored | doorHeld | doorFault | doorFaultCleared | doorNotClosed | passGranted
  | callRaised | callPriority | callOffer | callEscalated | callAccepted | callCleared
  | callWithdrawn | callRequeued
  | exitMarked | noRoute | routeFound
  | channelsHeld | channelsFreed | driveReleased | driveRestored | holdBroken
  | channelFault | channelFaultCleared
  | settingChanged | linkUp | linkLost | partStarted | partRestarted | configEntered
  deriving DecidableEq, Repr

/-- What an entry is about (section 10.1). -/
inductive Subject
  | none
  | detector (number : Fin 192)
  | zone (number : Fin 64)
  | wing (number : Fin 4)
  | loop (number : Fin 4)
  | door (number : Fin 48)
  | point (number : Fin 64)
  | exit (number : Fin 16)
  | channel (number : Fin 276)
  | station (name : Station)
  deriving DecidableEq, Repr

/-- The causes of a DETECTOR_ALARM (R47, R48, R50). -/
inductive AlarmCause | level | rise | confirmed | coincidence
  deriving DecidableEq, Repr

/-- The causes of a VERIFY_ABORTED (R48). -/
inductive AbortCause | fault | restart | disable | test
  deriving DecidableEq, Repr

/-- The causes of a TEST_ENDED (R55). -/
inductive TestEndCause | off | timeout | stage
  deriving DecidableEq, Repr

/-- The causes of a STAGE_CHANGE (section 4.2). -/
inductive StageCause
  | staged | detector | manualCall | station | command | spread | acknowledge | ackTimeout
  | invTimeout | secondAlarm | linkLoss | zoneReset
  deriving DecidableEq, Repr

/-- The sources of a BREACH (R87, R88). -/
inductive BreachSource
  | activity (source : ActivitySource)
  | doorOpened (door : Fin 48)
  | doorForced (door : Fin 48)
  deriving DecidableEq, Repr

/-- The causes of an ARM_SUSPENDED (R91). -/
inductive SuspendCause | stage | transit
  deriving DecidableEq, Repr

/-- The names of the security states, as ZONE_DISARMED's detail holds them (R90). -/
inductive SecurityName | disarmed | exitDelay | armed | suspended | breach
  deriving DecidableEq, Repr

/-- The causes of a DOOR_FORCED (R97, R100). -/
inductive ForcedCause | opened | faultCleared
  deriving DecidableEq, Repr

/-- The causes of a DOOR_FAULT (R100). -/
inductive DoorFaultCause | contact | channel
  deriving DecidableEq, Repr

/-- The causes of a LOCKDOWN_ENDED (R108, R109). -/
inductive LockdownCause | command | stage
  deriving DecidableEq, Repr

/-- The causes of a CALL_PRIORITY (R120, R126). -/
inductive PriorityCause | presses | evacuation | standby
  deriving DecidableEq, Repr

/-- The live settings, as SETTING_CHANGED's detail names them. -/
inductive SettingName
  | tAck | tInv | tSpread | exitDelay | vacancyPeriod | activityClass (source : ActivitySource)
  | scanInterval | settlePeriod | loopMode | tPass | tHeld | deskList | tOffer | deskCapacity
  | routing (group : Group) | authority (station : Station) (category : Category)
  deriving DecidableEq, Repr

/-- The detail of an entry: the 16-bit quantity of section 10.1 in its meaning, since the manual gives
no code numbers for the causes. `none` is the 0 of a kind that gives none. (DESIGN CHOICE, log entry 14.) -/
inductive Detail
  | none
  | number (n : Nat)
  | alarmCause (c : AlarmCause)
  | abortCause (c : AbortCause)
  | faultKind (k : FaultKind)
  | testEnd (c : TestEndCause)
  | origin (o : AlarmOrigin)
  | stage (now : StageName) (cause : StageCause)
  | stageLeft (left : StageName)
  | wing (w : Fin 4)
  | zone (z : Fin 64)
  | fireState (f : FireName)
  | loopMode (m : LoopMode)
  | modes (old new : Mode)
  | breachSource (b : BreachSource)
  | securityLeft (x : SecurityName)
  | suspension (origin : SuspendedFrom) (cause : SuspendCause)
  | suspendedFrom (origin : SuspendedFrom)
  | lockdownCause (c : LockdownCause)
  | forcedCause (c : ForcedCause)
  | doorFaultCause (c : DoorFaultCause)
  | priority (p : Priority)
  | priorityCause (p : Priority) (c : PriorityCause)
  | desk (d : Fin 8)
  | deskPriority (d : Fin 8) (p : Priority)
  | station (name : Station)
  | exitMark (state : ExitState)
  | route (index : Fin 4) (grade : Grade)
  | channels (first count changed : Nat)
  | stageRestored (changed : Nat)
  | setting (x : SettingName)
  deriving DecidableEq, Repr

/-- A log entry (section 10.1). The kind fixes the group. -/
structure Entry where
  sequence : Nat
  time : Seconds
  kind : EntryKind
  subject : Subject
  wing : Option (Fin 4)
  detail : Detail
  deriving DecidableEq, Repr

/-- The call a CALL_OFFER notice carries (R122, R162). -/
structure OfferedCall where
  point : Fin 64
  zone : Fin 64
  priority : Priority
  presses : Nat
  deriving DecidableEq, Repr

/-- A notice (R162): its entry, the wing's revision after it, the offered call, and the GAP flag. -/
structure Notice where
  entry : Entry
  revision : Option Revision
  call : Option OfferedCall
  gap : Bool
  deriving DecidableEq, Repr

/-- The routing table (section 10.3). -/
structure Routing where
  fire : StationSet
  fault : StationSet
  security : StationSet
  door : StationSet
  call : StationSet
  route : StationSet
  output : StationSet
  system : StationSet
  callByDesk : Bool
  deriving DecidableEq, Repr

/-! ### Station ports (chapter 11) -/

/-- The reply codes (section 11.6). -/
inductive ReplyCode
  | done | doneAdjusted | notPermitted | badObject | badValue | wrongState | staleView | stillActive
  | evacActive | notVacant | inUse | tooLate | full | configError | notInService
  deriving DecidableEq, Repr

/-- The object a CONFIG_ERROR names (R172). -/
inductive ConfigObject
  | detector (number : Fin 192)
  | zone (number : Fin 64)
  | loop (number : Fin 4)
  | cls (number : Fin 8)
  | door (number : Fin 48)
  | point (number : Fin 64)
  | desk (number : Fin 8)
  | wing (number : Fin 4)
  | exit (number : Fin 16)
  | sign (number : Fin 96)
  | route (zone : Fin 64) (index : Nat)
  deriving DecidableEq, Repr

/-- The part state (section 11.5). -/
inductive PartState | configuring | inService
  deriving DecidableEq, Repr

/-- What STATUS returns of one wing (R167). -/
structure WingStatus where
  stage : StageName
  mode : Mode
  revision : Revision
  deriving DecidableEq, Repr

/-- One entry of READ CALL QUEUE (R121). -/
structure QueuedCall where
  point : Fin 64
  zone : Fin 64
  call : HelpCall
  deriving DecidableEq, Repr

/-- One route of READ ROUTE (R145). -/
structure RouteReport where
  route : Route
  steps : List Descriptor
  grade : Option Grade
  deriving DecidableEq, Repr

/-- The data of a reply (R167): the applied values, the failed START check, or a record. -/
inductive ReplyData
  | none
  | applied (values : List Nat)
  | appliedRouting (set : StationSet)
  | configError (check : Nat) (object : ConfigObject)
  | status (part : PartState) (seconds : Seconds) (connected : StationSet)
      (oldest newest : Option Nat) (wings : List WingStatus)
  | zone (record : Zone) (testMinutes : Option Nat) (unprotected : Bool) (revision : Revision)
  | wing (record : Wing)
  | detector (record : Detector)
  | loop (record : Loop) (pairMode : LoopMode) (partnerMode : LoopMode)
      (partnerPending : Option LoopMode)
  | door (record : Door) (status : Option DoorStatus) (value : Option ChannelValue)
      (cause : Option DoorCause) (notClosed : Option Bool) (effective : ChannelValue)
  | callQueue (calls : List QueuedCall) (desks : List (List (Fin 64)))
  | point (record : CallPoint) (deskList : Option (List (Fin 8)))
  | route (routes : List RouteReport) (selected : Option (Fin 4)) (grade : Option Grade)
      (noRoute : Bool) (transit : Nat)
  | exit (record : ExitRecord) (state : Option ExitState)
  | channel (number : Fin 276) (kind : ChannelKind) (record : Channel) (polarity : Option Polarity)
  | log (entries : List Entry) (gap : Bool) (newest : Option Nat) (count : Nat)
  deriving DecidableEq, Repr

/-- A reply waiting to be sent (R167). The request's code is absent when its body was empty.
(DESIGN CHOICE, log entry 12.) -/
structure Reply where
  tag : Byte
  request : Option Byte
  code : ReplyCode
  data : ReplyData
  deriving DecidableEq, Repr

/-- A request waiting in a port's queue: its tag and its body, judged when it is taken (R168). -/
structure Request where
  tag : Byte
  body : List Byte
  deriving DecidableEq, Repr

/-- What a port's transmitter is sending (R167). -/
inductive Sending | reply | notice
  deriving DecidableEq, Repr

/-- A frame whose transmission ended in the last event. -/
inductive SentFrame
  | reply (r : Reply)
  | notice (n : Notice)
  deriving DecidableEq, Repr

/-- The link state of a port with its link silence timer (R166). -/
inductive Link
  | disconnected
  | connected (silence : Nat)
  deriving DecidableEq, Repr

/-- A station port (sections 10.4, 11.1 to 11.3). `received` holds the bytes of a frame that is not
yet whole. -/
structure Port where
  link : Link
  received : List Byte
  commands : List Request
  queries : List Request
  replies : List Reply
  notices : List Notice
  gap : Bool
  sending : Option Sending
  deriving DecidableEq, Repr

/-- One port for each station. -/
structure Ports where
  fire : Port
  guard : Port
  services : Port
  deriving DecidableEq, Repr

/-- What the authority map holds for one station and one wing (R170). -/
structure Rights where
  guard : Bool
  service : Bool
  deriving DecidableEq, Repr

/-- The authority map (R170): the rights of each station on each wing. -/
structure Authority where
  fire : Tbl 4 Rights
  guard : Tbl 4 Rights
  services : Tbl 4 Rights
  deriving DecidableEq, Repr

/-! ### The whole state -/

/-- The state of the part. The last three fields are the model's own: `fieldOut` and `stationOut` hold
what the last event sent to the field (R150) and finished sending to the stations (R167), and `pending`
is the queue of the commands that wait to be taken. -/
structure State where
  part : PartState
  seconds : Seconds
  zones : Tbl 64 Zone
  wings : Tbl 4 Wing
  loops : Tbl 4 Loop
  scanLists : Tbl 4 (Tbl 48 ScanSlot)
  converterA : Holder
  converterB : Holder
  classes : Tbl 8 DetectorClass
  detectors : Tbl 192 (Option Detector)
  doors : Tbl 48 Door
  points : Tbl 64 CallPoint
  callQueue : List (Fin 64)
  desks : Tbl 8 Desk
  exits : Tbl 16 ExitRecord
  descriptors : Tbl 512 Descriptor
  routeLists : Tbl 64 (List Route)
  signs : Tbl 96 Sign
  engine : RouteEngine
  channels : Tbl 276 Channel
  log : List Entry
  nextSequence : Nat
  routing : Routing
  authority : Authority
  ports : Ports
  rotation : Station
  fireBurst : Nat
  lastQuery : Station
  fieldOut : List ChannelMessage
  stationOut : List (Station × SentFrame)
  pending : List Instr
  deriving DecidableEq, Repr

/-! ### Power-on -/

/-- The default activity classes (R5). -/
def ActivityClasses.default : ActivityClasses :=
  { presence := .primary, passage := .primary, call := .secondary, patrol := .secondary }

/-- A zone record at power-on (R17). -/
def Zone.powerOn : Zone :=
  { configured := false, wing := 0, detectorCount := 0, impairedCount := 0, testTimer := none
    fire := .normal, egress := false, transit := 0, selected := none, grade := none, noRoute := false
    routeGrades := [], occupancy := .occupied, vacancyTimer := none, vacancyPeriod := 600
    classes := .default, lastPrimary := none, lastSecondary := none, security := .disarmed
    activeCalls := 0 }

/-- A wing record at power-on (R18, defaults of R5). -/
def Wing.powerOn : Wing :=
  { mode := .closed, initialMode := .closed, staged := false, stage := .standby, silenced := false
    spreadList := [], spreadTimer := none, alerted := false, evacDesk := none, lockdown := false
    revision := 0, tAck := 15, tInv := 180, tSpread := 0, exitDelay := 30 }

/-- A loop record at power-on (R37). -/
def Loop.powerOn : Loop :=
  { inUse := false, mode := .independent, pendingMode := none, state := .off, power := false
    scan := none, due := false, intervalTimer := none, lastStart := none, breakPosition := none
    scanInterval := 2, settlePeriod := 10 }

/-- A class record at power-on (R39). -/
def DetectorClass.powerOn : DetectorClass :=
  { configured := false, kind := .smoke, preAlarm := 200, alarm := 320, riseStep := 12, riseCount := 0
    night := 0, tracking := true, bmin := 256, bmax := 1536, fixedBaseline := 1024, window := 20 }

/-- A door record at power-on (R112). Status, value and cause are present on configured doors only;
they stand here at what R112 and R95 give for the field values beside them. (DESIGN CHOICE, log entry 22.) -/
def Door.powerOn : Door :=
  { configured := false, sideA := 0, sideB := none, kind := .secureEgress, failMode := .failSafe
    freeInOpenHours := false, inner := none, tPass := 5, tHeld := 60, contact := .lineFault
    status := .fault, faultReported := false, value := .unlock, cause := .schedule, rex := none
    pass := none, heldTimer := none, notClosedTimer := none, notClosedReported := false, claims := 0 }

/-- A call point record at power-on (R130). -/
def CallPoint.powerOn : CallPoint :=
  { configured := false, zone := 0, kind := .help, input := .restored, deskList := [], state := .idle
    lamp := .off }

/-- A desk record at power-on (R130). -/
def Desk.powerOn : Desk := { owner := none, capacity := 2, tOffer := 30, offered := [] }

/-- An exit record at power-on (R146). (DESIGN CHOICE, log entry 22.) -/
def ExitRecord.powerOn : ExitRecord :=
  { configured := false, zone := 0, door := none, stationBlocked := false, state := .available }

/-- A path descriptor at power-on (R146). -/
def Descriptor.powerOn : Descriptor := { zone := 0, sign := none, lastStep := false }

/-- A sign record at power-on (R141, R146). -/
def Sign.powerOn : Sign :=
  { configured := false, home := 0, aspect := .exitSteady, claims := 0, winner := none }

/-- A channel at power-on (R157): its owner's reset value as source, released, at its fail value. -/
def Channel.powerOn (source failValue : ChannelValue) : Channel :=
  { wing := none, source := source, latch := .follow, latched := source, drive := .released
    polarity := .normal, failValue := failValue, lineFault := false, effective := failValue }

/-- The channels at power-on, by number (section 9.1, R147, R157). -/
def channelsPowerOn : Tbl 276 Channel :=
  .tabulate fun i =>
    if i.val < 48 then .powerOn .unlock .unlock
    else if i.val < 144 then .powerOn .exitSteady .dark
    else if i.val < 208 then .powerOn .off .off
    else if i.val < 272 then .powerOn .off .on
    else .powerOn .off .off

/-- The default routing table (section 10.3). -/
def Routing.default : Routing :=
  { fire := { fire := true, guard := false, services := false }
    fault := { fire := true, guard := false, services := true }
    security := { fire := false, guard := true, services := false }
    door := { fire := false, guard := true, services := false }
    call := { fire := false, guard := false, services := false }
    route := { fire := true, guard := false, services := false }
    output := { fire := true, guard := false, services := true }
    system := { fire := true, guard := false, services := true }
    callByDesk := true }

/-- The authority map at power-on (R170). -/
def Authority.default : Authority :=
  { fire := .fill 4 { guard := false, service := false }
    guard := .fill 4 { guard := true, service := false }
    services := .fill 4 { guard := false, service := true } }

/-- A station port at power-on (R174, R164). -/
def Port.powerOn : Port :=
  { link := .disconnected, received := [], commands := [], queries := [], replies := [], notices := []
    gap := false, sending := none }

/-- The part right after power-on. -/
def State.reset : State :=
  { part := .configuring, seconds := 0
    zones := .fill 64 .powerOn, wings := .fill 4 .powerOn
    loops := .fill 4 .powerOn, scanLists := .fill 4 (.fill 48 .endMark)
    converterA := .free, converterB := .free
    classes := .fill 8 .powerOn, detectors := .fill 192 none
    doors := .fill 48 .powerOn
    points := .fill 64 .powerOn, callQueue := [], desks := .fill 8 .powerOn
    exits := .fill 16 .powerOn, descriptors := .fill 512 .powerOn, routeLists := .fill 64 []
    signs := .fill 96 .powerOn, engine := .idle
    channels := channelsPowerOn
    log := [], nextSequence := 1, routing := .default, authority := .default
    ports := { fire := .powerOn, guard := .powerOn, services := .powerOn }
    rotation := .fire, fireBurst := 0, lastQuery := .services
    fieldOut := [], stationOut := [], pending := [] }

end Sys2Proof.Machine
end

