-- ==== Sys2Proof/Machine/Ops.lean ====
section
/-! DEFINITION. The named operations over the records: reading and changing one record, writing a
channel's source value (R149), appending a log entry with its revision stamp and its notices (R12,
R158 to R163), and handing a selection-pass trigger to the route engine (R137). -/

set_option autoImplicit false

namespace Sys2Proof

/-- The empty set of stations. -/
def StationSet.empty : StationSet := { fire := false, guard := false, services := false }

/-- Whether a station is in a set. -/
def StationSet.has (x : StationSet) : Station → Bool
  | .fire => x.fire
  | .guard => x.guard
  | .services => x.services

/-- A set with a station added. -/
def StationSet.add (x : StationSet) : Station → StationSet
  | .fire => { x with fire := true }
  | .guard => { x with guard := true }
  | .services => { x with services := true }

/-- The station after another in the cycle fire, guard, services (R167, R168). -/
def Station.after : Station → Station
  | .fire => .guard
  | .guard => .services
  | .services => .fire

end Sys2Proof

namespace Sys2Proof.Machine

/-! ### Reading a record -/

def State.zone (s : State) (z : Fin 64) : Zone := s.zones.get z
def State.wing (s : State) (w : Fin 4) : Wing := s.wings.get w
def State.loop (s : State) (l : Fin 4) : Loop := s.loops.get l
def State.detector (s : State) (d : Fin 192) : Option Detector := s.detectors.get d
def State.cls (s : State) (c : Fin 8) : DetectorClass := s.classes.get c
def State.door (s : State) (d : Fin 48) : Door := s.doors.get d
def State.point (s : State) (c : Fin 64) : CallPoint := s.points.get c
def State.desk (s : State) (k : Fin 8) : Desk := s.desks.get k
def State.exit (s : State) (e : Fin 16) : ExitRecord := s.exits.get e
def State.sign (s : State) (g : Fin 96) : Sign := s.signs.get g
def State.channel (s : State) (n : Fin 276) : Channel := s.channels.get n
/-- The slots of a loop's scan list. -/
def State.slot (s : State) (l : Fin 4) (k : Fin 48) : ScanSlot := (s.scanLists.get l).get k

/-- The wing of a zone. -/
def State.wingOf (s : State) (z : Fin 64) : Fin 4 := (s.zone z).wing

/-- The owning wing of a door, the wing of its side A zone (section 6.1). -/
def State.doorWing (s : State) (d : Fin 48) : Fin 4 := s.wingOf (s.door d).sideA

def Ports.get (p : Ports) : Station → Port
  | .fire => p.fire
  | .guard => p.guard
  | .services => p.services

def Ports.set (p : Ports) (st : Station) (x : Port) : Ports :=
  match st with
  | .fire => { p with fire := x }
  | .guard => { p with guard := x }
  | .services => { p with services := x }

def State.port (s : State) (st : Station) : Port := s.ports.get st

/-- Whether a port is CONNECTED (R166). -/
def Port.up (p : Port) : Bool :=
  match p.link with
  | .connected _ => true
  | .disconnected => false

/-! ### Changing a record -/

def State.modZone (s : State) (z : Fin 64) (f : Zone → Zone) : State :=
  { s with zones := s.zones.modify z f }
def State.modWing (s : State) (w : Fin 4) (f : Wing → Wing) : State :=
  { s with wings := s.wings.modify w f }
def State.modLoop (s : State) (l : Fin 4) (f : Loop → Loop) : State :=
  { s with loops := s.loops.modify l f }
def State.putDetector (s : State) (d : Fin 192) (x : Option Detector) : State :=
  { s with detectors := s.detectors.set d x }
def State.modDoor (s : State) (d : Fin 48) (f : Door → Door) : State :=
  { s with doors := s.doors.modify d f }
def State.modPoint (s : State) (c : Fin 64) (f : CallPoint → CallPoint) : State :=
  { s with points := s.points.modify c f }
def State.modDesk (s : State) (k : Fin 8) (f : Desk → Desk) : State :=
  { s with desks := s.desks.modify k f }
def State.modExit (s : State) (e : Fin 16) (f : ExitRecord → ExitRecord) : State :=
  { s with exits := s.exits.modify e f }
def State.modChannel (s : State) (n : Fin 276) (f : Channel → Channel) : State :=
  { s with channels := s.channels.modify n f }
def State.putSlot (s : State) (l : Fin 4) (k : Fin 48) (x : ScanSlot) : State :=
  { s with scanLists := s.scanLists.modify l (fun t => t.set k x) }
def State.modPort (s : State) (st : Station) (f : Port → Port) : State :=
  { s with ports := s.ports.set st (f (s.ports.get st)) }

/-- Whether the part is IN_SERVICE (section 11.5). -/
def State.inService (s : State) : Bool := decide (s.part = .inService)

/-- The configured zones of a wing, ascending; an unconfigured zone takes part in no wing (R2). -/
def State.zonesOf (s : State) (w : Fin 4) : List (Fin 64) :=
  s.zones.indices fun _ z => z.configured && decide (z.wing = w)

/-! ### Output channels (R149) -/

/-- The channel of door `d` (section 4.2). -/
def doorChannel (d : Fin 48) : Fin 276 := ⟨d.val, by omega⟩
/-- The channel of sign `g`. -/
def signChannel (g : Fin 96) : Fin 276 := ⟨48 + g.val, by omega⟩
/-- The channel of call point `c`'s lamp. -/
def lampChannel (c : Fin 64) : Fin 276 := ⟨144 + c.val, by omega⟩
/-- The channel of zone `z`'s egress light. -/
def lightChannel (z : Fin 64) : Fin 276 := ⟨208 + z.val, by omega⟩
/-- The channel of wing `w`'s sounder. -/
def sounderChannel (w : Fin 4) : Fin 276 := ⟨272 + w.val, by omega⟩

/-- The kind of a channel, fixed by its number (section 9.1). -/
def channelKind (n : Fin 276) : ChannelKind :=
  if n.val < 48 then .door else if n.val < 144 then .sign else if n.val < 208 then .lamp
  else if n.val < 272 then .light else .sounder

/-- The effective value: the latched value while ENABLED, the fail value while RELEASED (R149). -/
def effectiveOf (c : Channel) : ChannelValue :=
  match c.drive with
  | .enabled => c.latched
  | .released => c.failValue

/-- The channel with its effective value taken anew (R149). -/
def takeEffective (c : Channel) : Channel := { c with effective := effectiveOf c }

/-- The channel after its owning block writes `v` as its source value (R149). -/
def withSource (v : ChannelValue) (c : Channel) : Channel :=
  match c.latch with
  | .follow => takeEffective { c with source := v, latched := v }
  | .hold => takeEffective { c with source := v }

/-- An owning block writes a channel's source value (R149). -/
def writeSource (s : State) (n : Fin 276) (v : ChannelValue) : State := s.modChannel n (withSource v)

/-! ### Selection-pass triggers (R137) -/

/-- What one trigger does to the route engine: in IDLE it starts a pass in this event; in PASSING it sets
the repeat flag; a further trigger of the starting event finds the pass started (R137). -/
def RouteEngine.triggered : RouteEngine → RouteEngine
  | .idle => .opening
  | .opening => .opening
  | .passing v _ => .passing v true

/-- A trigger arrives at the route engine. While the part is CONFIGURING none is taken (R146). -/
def trigger (s : State) : State :=
  if s.inService then { s with engine := s.engine.triggered } else s

/-! ### The alarm log (chapter 10) -/

/-- The group of an entry kind (section 10.1 and the tables of the chapters). -/
def EntryKind.group : EntryKind → Group
  | .detectorPreAlarm | .detectorNormal | .verifyStarted | .detectorAlarm | .unconfirmed
  | .verifyAborted | .zoneAlarm | .manualAlarm | .stageChange | .wingAlerted | .alertEnded
  | .wingSilenced | .wingResounded | .zoneReset | .wingReset | .fireCall | .callPointRestored => .fire
  | .detectorFault | .faultCleared | .compLimit | .testStarted | .testActivation | .testEnded
  | .loopLineFault | .loopLineFaultCleared | .loopBreak | .loopBreakCleared | .loopRestart
  | .loopRunning | .mirrorMismatch | .detectorDisabled | .detectorEnabled | .doorFault
  | .doorFaultCleared | .doorNotClosed | .channelFault | .channelFaultCleared => .fault
  | .wingMode | .patrolReported | .armStarted | .armAborted | .zoneArmed | .breach | .breachCleared
  | .zoneDisarmed | .armSuspended | .armRestored | .armLost | .lockdownStarted
  | .lockdownEnded => .security
  | .doorForced | .doorRestored | .doorHeld | .passGranted => .door
  | .callRaised | .callPriority | .callOffer | .callEscalated | .callAccepted | .callCleared
  | .callWithdrawn | .callRequeued => .call
  | .exitMarked | .noRoute | .routeFound => .route
  | .channelsHeld | .channelsFreed | .driveReleased | .driveRestored | .holdBroken => .output
  | .settingChanged | .linkUp | .linkLost | .partStarted | .partRestarted | .configEntered => .system

/-- The stations a group is routed to (section 10.3). -/
def Routing.set (r : Routing) : Group → StationSet
  | .fire => r.fire
  | .fault => r.fault
  | .security => r.security
  | .door => r.door
  | .call => r.call
  | .route => r.route
  | .output => r.output
  | .system => r.system

/-- The set with the owners of the desks named, where set. -/
def withOwners (s : State) (desks : List (Fin 8)) (x : StationSet) : StationSet :=
  desks.foldl (fun x k => match (s.desk k).owner with | some st => x.add st | none => x) x

/-- The desk an entry's detail names, where it names one. -/
def Detail.deskOf : Detail → List (Fin 8)
  | .desk d => [d]
  | .deskPriority d _ => [d]
  | _ => []

/-- The desks of the call point an entry is about, with the evacuation desk of its zone's wing (R162). -/
def pointDesks (s : State) (x : Subject) : List (Fin 8) :=
  match x with
  | .point c => (s.point c).deskList ++ (s.wing (s.wingOf (s.point c).zone)).evacDesk.toList
  | _ => []

/-- The stations an entry is sent to as a notice (R162). -/
def noticeStations (s : State) (e : Entry) : StationSet :=
  match e.kind with
  | .callOffer | .callWithdrawn => withOwners s e.detail.deskOf .empty
  | .callEscalated | .callAccepted | .callRequeued =>
    if s.routing.callByDesk then withOwners s e.detail.deskOf s.routing.call else s.routing.call
  | .callRaised | .callPriority | .callCleared =>
    if s.routing.callByDesk then withOwners s (pointDesks s e.subject) s.routing.call
    else s.routing.call
  | k => s.routing.set k.group

/-- The call a CALL_OFFER notice carries (R122). -/
def offeredCall (s : State) (e : Entry) : Option OfferedCall :=
  match e.kind, e.subject with
  | .callOffer, .point c =>
    match (s.point c).state with
    | .active h =>
      some { point := c, zone := (s.point c).zone, priority := h.priority, presses := h.presses }
    | _ => none
  | _, _ => none

/-- A notice is offered to a port's queue (R162, R163). -/
def offerNotice (n : Notice) (p : Port) : Port :=
  if p.up then
    if p.notices.length < Config.noticeQueueMax then
      { p with notices := p.notices ++ [{ n with gap := p.gap }], gap := false }
    else { p with gap := true }
  else { p with gap := true }

/-- The notice is offered to the ports of the stations of a set. -/
def offerTo (x : StationSet) (n : Notice) (p : Ports) : Ports :=
  { fire := if x.fire then offerNotice n p.fire else p.fire
    guard := if x.guard then offerNotice n p.guard else p.guard
    services := if x.services then offerNotice n p.services else p.services }

/-- Every port's gap marker set (R158). -/
def setGaps (p : Ports) : Ports :=
  { fire := { p.fire with gap := true }
    guard := { p.guard with gap := true }
    services := { p.services with gap := true } }

/-- The wrap of the sequence: above 4294967295 the next entry takes 1, every held entry is discarded and
every gap marker is set (R158). -/
def wrapSequence (s : State) : State :=
  if s.nextSequence > Config.sequenceMax then
    { s with nextSequence := 1, log := [], ports := setGaps s.ports }
  else s

/-- The log with an entry added as the newest, the oldest removed from a full log (R159). -/
def pushEntry (log : List Entry) (e : Entry) : List Entry :=
  if log.length < Config.logMax then log ++ [e] else log.tail ++ [e]

/-- The revision of the wing an entry names rises by one, wrapping (R12). -/
def stampWing (s : State) : Option (Fin 4) → State
  | some w => s.modWing w fun x => { x with revision := x.revision + 1 }
  | none => s

/-- The entry joins the log with the next sequence (R158, R159) and stamps its wing (R12). -/
def recordEntry (s : State) (e : Entry) : State :=
  stampWing { s with nextSequence := s.nextSequence + 1, log := pushEntry s.log e } e.wing

/-- The entry is sent as a notice to its stations (R162). -/
def sendNotices (s : State) (e : Entry) : State :=
  let n : Notice :=
    { entry := e, revision := e.wing.map fun w => (s.wing w).revision, call := offeredCall s e
      gap := false }
  { s with ports := offerTo (noticeStations s e) n s.ports }

/-- An entry is appended to the alarm log (R158). At a wrap the gap markers are set before the notice of the wrapping
entry is offered. (DESIGN CHOICE, log entry 48.) -/
def append (s : State) (kind : EntryKind) (subject : Subject) (wing : Option (Fin 4))
    (detail : Detail) : State :=
  let s1 := wrapSequence s
  let e : Entry :=
    { sequence := s1.nextSequence, time := s1.seconds, kind := kind, subject := subject, wing := wing
      detail := detail }
  sendNotices (recordEntry s1 e) e

/-- An entry about a zone, naming the zone's wing. -/
def appendZone (s : State) (kind : EntryKind) (z : Fin 64) (detail : Detail) : State :=
  append s kind (.zone z) (some (s.wingOf z)) detail

/-- An entry about a wing, naming it. -/
def appendWing (s : State) (kind : EntryKind) (w : Fin 4) (detail : Detail) : State :=
  append s kind (.wing w) (some w) detail

/-- An entry about a call point, naming the wing of its zone (R129). -/
def appendPoint (s : State) (kind : EntryKind) (c : Fin 64) (detail : Detail) : State :=
  append s kind (.point c) (some (s.wingOf (s.point c).zone)) detail

/-- An entry about a loop, naming no wing. -/
def appendLoop (s : State) (kind : EntryKind) (l : Fin 4) (detail : Detail) : State :=
  append s kind (.loop l) none detail

/-- An entry about a door, naming its owning wing, and a second time the wing of side B when that is a
zone of another wing (R111). -/
def appendDoor (s : State) (kind : EntryKind) (d : Fin 48) (detail : Detail) : State :=
  let w := s.doorWing d
  let s1 := append s kind (.door d) (some w) detail
  match (s.door d).sideB with
  | some z => if s.wingOf z = w then s1 else append s1 kind (.door d) (some (s.wingOf z)) detail
  | none => s1

/-- An entry about no object and no wing. -/
def appendPart (s : State) (kind : EntryKind) (detail : Detail) : State :=
  append s kind .none none detail

end Sys2Proof.Machine
end

