-- ==== Sys2Proof/Machine/Flags.lean ====
section
/-! DEFINITION. What the part derives from its records: the unprotected status of a zone, the derived
fire state, the state of an exit, the value of a sounder, the thresholds in force for a detector, and
the value and the status of a door. -/

set_option autoImplicit false

namespace Sys2Proof.Machine

/-! ### Names of states that carry fields -/

def FireState.name : FireState → FireName
  | .normal => .normal
  | .preAlarm => .preAlarm
  | .alarm _ _ => .alarm

def FireState.inAlarm (f : FireState) : Bool := decide (f.name = .alarm)

def Stage.name : Stage → StageName
  | .standby => .standby
  | .ackWait _ => .ackWait
  | .investigate _ => .investigate
  | .evacuate => .evacuate

def Security.name : Security → SecurityName
  | .disarmed => .disarmed
  | .exitDelay _ => .exitDelay
  | .armed => .armed
  | .suspended _ => .suspended
  | .breach => .breach

/-- Whether a wing is in STANDBY. -/
def State.atStandby (s : State) (w : Fin 4) : Bool := decide ((s.wing w).stage.name = .standby)

/-- Whether a wing is in EVACUATE. -/
def State.evacuating (s : State) (w : Fin 4) : Bool := decide ((s.wing w).stage.name = .evacuate)

/-- Whether every wing is in STANDBY. -/
def State.allStandby (s : State) : Bool := (List.finRange 4).all fun w => s.atStandby w

/-! ### Detectors and zones -/

/-- The three impaired states (R15, section 3.2). -/
def DetectorState.impaired : DetectorState → Bool
  | .unmonitored | .fault _ | .disabled => true
  | .normal | .preAlarm | .verifying _ | .alarm => false

/-- The two states that make a zone PRE_ALARM (R60). -/
def DetectorState.raised : DetectorState → Bool
  | .preAlarm | .verifying _ => true
  | .unmonitored | .normal | .alarm | .fault _ | .disabled => false

def DetectorState.isVerifying : DetectorState → Bool
  | .verifying _ => true
  | _ => false

/-- The unprotected status of a zone (R16). -/
def Zone.unprotected (z : Zone) : Bool :=
  (decide (1 ≤ z.detectorCount) && decide (z.impairedCount = z.detectorCount)) || z.testTimer.isSome

/-- The numbers of the detectors of a zone that satisfy `p`, ascending. -/
def State.detectorsOf (s : State) (z : Fin 64) (p : Detector → Bool) : List (Fin 192) :=
  s.detectors.indices fun _ d =>
    match d with
    | some d => decide (d.zone = z) && p d
    | none => false

/-- The fire state derived from a zone's detectors (R60). -/
def derivedFire (s : State) (z : Fin 64) : FireState :=
  if (s.detectorsOf z fun d => d.state.raised).isEmpty then .normal else .preAlarm

/-- The thresholds in force (R46). -/
structure Thresholds where
  pre : Nat
  alarm : Nat
  hasLevelAlarm : Bool
  deriving DecidableEq, Repr

/-- The thresholds of a class under an operating mode (R46). -/
def thresholds (c : DetectorClass) (m : Mode) : Thresholds :=
  let has := decide (c.alarm ≠ Config.noLevelAlarm)
  match m with
  | .night =>
    let p := max (c.preAlarm - c.night) 16
    { pre := p, alarm := max (c.alarm - c.night) (p + 16), hasLevelAlarm := has }
  | .openHours | .closed => { pre := c.preAlarm, alarm := c.alarm, hasLevelAlarm := has }

/-- The thresholds in force for a detector, by the mode of its zone's wing (R9, R46). -/
def State.thresholdsFor (s : State) (d : Detector) : Thresholds :=
  thresholds (s.cls d.cls) (s.wing (s.wingOf d.zone)).mode

/-- Whether a level meets the level alarm condition (R46). -/
def Thresholds.levelAlarm (t : Thresholds) (level : Nat) : Bool :=
  t.hasLevelAlarm && decide (t.alarm ≤ level)

/-! ### Exits and sounders -/

/-- The state of an exit (R132). -/
def exitState (zoneAlarm stationBlocked : Bool) : ExitState :=
  if zoneAlarm || stationBlocked then .blocked else .available

/-- The sounder's value (R75). -/
def sounderValue (w : Wing) : ChannelValue :=
  match w.stage with
  | .evacuate => if w.silenced then .off else .evacuate
  | .standby => if w.alerted then .alert else .off
  | .ackWait _ | .investigate _ => .off

/-! ### Doors -/

/-- Whether a door has a lock; a FIRE_HOLD door has none (section 6.1). -/
def Door.lockable (d : Door) : Bool := decide (d.kind ≠ .fireHold)

/-- The inner zone of a STORE door, where it is a zone (section 6.1). -/
def Door.innerZone (d : Door) : Option (Fin 64) :=
  match d.inner with
  | some .sideA => some d.sideA
  | some .sideB => d.sideB
  | none => none

/-- The bordering zones of a door, side A first (section 6.1). -/
def Door.sides (d : Door) : List (Fin 64) := d.sideA :: d.sideB.toList

/-- The inputs to the precedence of a door's value (R102, R104): which of its lines match. -/
structure DoorInputs where
  configured : Bool
  fireHold : Bool
  egress : Bool
  rex : Bool
  lockdown : Bool
  armed : Bool
  pass : Bool
  freeHours : Bool
  fire : Bool
  evacuate : Bool
  night : Bool
  deriving DecidableEq, Repr

/-- Line 1 of the precedence (R102). -/
def egressLine (s : State) (d : Door) : Bool :=
  match d.kind with
  | .secureEgress => decide (0 < d.claims)
  | .store =>
    match d.innerZone with
    | some z => s.evacuating (s.wingOf z) && decide ((s.zone z).occupancy = .occupied)
    | none => false
  | .fireHold => false

/-- The inputs of a door's precedence as a state gives them. In CONFIGURING the wing of a zone that is not configured is
the one its record keeps. (DEDUCED, log entry 56.) -/
def doorInputs (s : State) (n : Fin 48) : DoorInputs :=
  let d := s.door n
  let w := s.wing (s.wingOf d.sideA)
  { configured := d.configured
    fireHold := !d.lockable
    egress := egressLine s d
    rex := d.rex.isSome
    lockdown := w.lockdown
    armed := d.sides.any fun z => decide ((s.zone z).security.name = .armed)
    pass := d.pass.isSome
    freeHours := decide (w.mode = .openHours) && d.freeInOpenHours
    fire := d.sides.any fun z => (s.zone z).fire.inAlarm
    evacuate := decide (w.stage.name = .evacuate)
    night := decide (w.mode = .night) }

/-- The computed value of a door with its cause: the first matching line (R102, R104). The source value of
an unconfigured door's channel is UNLOCK (R95). -/
def doorValue (i : DoorInputs) : ChannelValue × DoorCause :=
  if !i.configured then (.unlock, .schedule)
  else if i.fireHold then
    if i.fire then (.close, .fire)
    else if i.evacuate then (.close, .evacuate)
    else if i.night then (.close, .night)
    else (.hold, .schedule)
  else if i.egress then (.unlock, .egress)
  else if i.rex then (.unlock, .rex)
  else if i.lockdown then (.lock, .lockdown)
  else if i.armed then (.lock, .armed)
  else if i.pass then (.unlock, .pass)
  else if i.freeHours then (.unlock, .schedule)
  else (.lock, .schedule)

/-- Whether a status is one of the two of a closed door. -/
def DoorStatus.isClosed : DoorStatus → Bool
  | .closedLocked | .closedUnlocked => true
  | .openAuthorised | .openHeld | .forced | .fault => false

/-- The status of a closed door by its effective value; a closed FIRE_HOLD door is CLOSED_UNLOCKED
(section 6.2, R104). (DEDUCED, log entry 21.) -/
def closedStatus (kind : DoorKind) (effective : ChannelValue) : DoorStatus :=
  match kind with
  | .fireHold => .closedUnlocked
  | .secureEgress | .store => if effective = .unlock then .closedUnlocked else .closedLocked

/-- Whether a FIRE_HOLD door is expected to close: its value is CLOSE and its contact OPEN (R105). -/
def Door.expectedToClose (d : Door) : Bool :=
  d.configured && !d.lockable && decide (d.value = .close) && decide (d.contact = .opened)

/-- Whether an opening at this moment is with right (R97). -/
def Door.withRight (d : Door) (effective : ChannelValue) : Bool :=
  decide (effective = .unlock) || d.rex.isSome || d.pass.isSome || decide (0 < d.claims) || !d.lockable

/-- The status a door takes from its contact and its channel's line fault flag, without any hand-off: the
rule for CONFIGURING and for the resets (R112, R113). -/
def restingStatus (d : Door) (c : Channel) : DoorStatus :=
  if c.lineFault then .fault
  else match d.contact with
    | .lineFault => .fault
    | .closed => closedStatus d.kind c.effective
    | .opened => .openAuthorised

end Sys2Proof.Machine
end

