-- ==== Sys2Proof/Machine/Presence.lean ====
section
/-! DEFINITION. The Presence and Arming Unit (chapter 5): activities, door events at an armed zone,
suspension and restoration. -/

set_option autoImplicit false

namespace Sys2Proof.Machine

/-- The class a zone gives a source (R83). -/
def ActivityClasses.of (c : ActivityClasses) : ActivitySource → ActivityClass
  | .presence => c.presence
  | .passage => c.passage
  | .call => c.call
  | .patrol => c.patrol

/-- The classes with one source's class changed. -/
def ActivityClasses.put (c : ActivityClasses) (src : ActivitySource) (x : ActivityClass) : ActivityClasses :=
  match src with
  | .presence => { c with presence := x }
  | .passage => { c with passage := x }
  | .call => { c with call := x }
  | .patrol => { c with patrol := x }

/-- A zone's security state is written. -/
def setSecurity (s : State) (z : Fin 64) (x : Security) : State := s.modZone z fun r => { r with security := x }

/-- A zone in ARMED enters BREACH (R87). -/
def enterBreach (s : State) (z : Fin 64) (source : BreachSource) : State :=
  appendZone (setSecurity s z .breach) .breach z (.breachSource source)

/-- The security state of a zone takes an activity classed PRIMARY or SECONDARY (R86, R87). -/
def securityTakes (s : State) (z : Fin 64) (source : ActivitySource) : State :=
  match (s.zone z).security with
  | .armed => enterBreach s z (.activity source)
  | .exitDelay _ =>
    match source with
    | .presence => appendZone (setSecurity s z .disarmed) .armAborted z .none
    | .passage | .call | .patrol => s
  | .disarmed | .suspended _ | .breach => s

/-- The occupancy fields take a primary activity (R83). -/
def Zone.primaryActivity (source : ActivitySource) (now : Seconds) (r : Zone) : Zone :=
  { r with
    vacancyTimer := some r.vacancyPeriod, occupancy := .occupied
    lastPrimary := some { source := source, time := now } }

/-- The last secondary activity is recorded (R83). -/
def Zone.secondaryActivity (source : ActivitySource) (now : Seconds) (r : Zone) : Zone :=
  { r with lastSecondary := some { source := source, time := now } }

/-- The PAU takes an activity of a zone (R83). None is taken for an unconfigured zone (R81) nor while the
part is CONFIGURING (R94). -/
def takeActivity (s : State) (z : Fin 64) (source : ActivitySource) : State :=
  if s.inService && (s.zone z).configured then
    match (s.zone z).classes.of source with
    | .ignored => s
    | .primary => securityTakes (s.modZone z (Zone.primaryActivity source s.seconds)) z source
    | .secondary => securityTakes (s.modZone z (Zone.secondaryActivity source s.seconds)) z source
  else s

/-- An activity is taken for each of several zones, in order. -/
def takeActivities (s : State) (zs : List (Fin 64)) (source : ActivitySource) : State :=
  zs.foldl (fun t z => takeActivity t z source) s

/-- A zone takes a door's opening or its entry into FORCED (R88). -/
def takeDoorEvent (s : State) (z : Fin 64) (source : BreachSource) : State :=
  match (s.zone z).security with
  | .armed => enterBreach s z source
  | .disarmed | .exitDelay _ | .suspended _ | .breach => s

/-- A zone is suspended (R91). -/
def suspendZone (cause : SuspendCause) (s : State) (z : Fin 64) : State :=
  match (s.zone z).security with
  | .armed => appendZone (setSecurity s z (.suspended .armed)) .armSuspended z (.suspension .armed cause)
  | .exitDelay _ =>
    appendZone (setSecurity s z (.suspended .exitDelay)) .armSuspended z (.suspension .exitDelay cause)
  | .disarmed | .suspended _ | .breach => s

/-- A suspended zone is restored: ARMED when VACANT, DISARMED when OCCUPIED (R92). -/
def restoreZone (s : State) (z : Fin 64) : State :=
  match (s.zone z).security with
  | .suspended origin =>
    match (s.zone z).occupancy with
    | .vacant => appendZone (setSecurity s z .armed) .armRestored z (.suspendedFrom origin)
    | .occupied => appendZone (setSecurity s z .disarmed) .armLost z (.suspendedFrom origin)
  | .disarmed | .exitDelay _ | .armed | .breach => s

/-- The wing leaves STANDBY (R91). -/
def suspendWing (s : State) (w : Fin 4) : State := (s.zonesOf w).foldl (suspendZone .stage) s

/-- The wing has returned to STANDBY (R92). -/
def restoreWing (s : State) (w : Fin 4) : State :=
  ((s.zonesOf w).filter fun z => decide ((s.zone z).transit = 0)).foldl restoreZone s

/-- A zone takes the transit count a pass end has written for it (R91, R92). (DEDUCED, log entry 32.) -/
def takeTransit (s : State) (z : Fin 64) : State :=
  if 0 < (s.zone z).transit then suspendZone .transit s z
  else if s.atStandby (s.wingOf z) then restoreZone s z
  else s

end Sys2Proof.Machine
end

