-- ==== Sys2Proof/Machine/CallUnit.lean ====
section
/-! DEFINITION. The Call Unit (chapter 7): the queue's order, the cycle of candidates, offering rounds,
withdrawal, and what an evacuation and a lost link do to the calls. -/

set_option autoImplicit false

namespace Sys2Proof.Machine

/-! ### Records and the queue -/

/-- The help call of a point, where it has one. -/
def State.call (s : State) (c : Fin 64) : Option HelpCall :=
  match (s.point c).state with
  | .active h => some h
  | .idle | .latched => none

/-- The help call of a point is written. -/
def setCall (s : State) (c : Fin 64) (h : HelpCall) : State := s.modPoint c fun p => { p with state := .active h }

/-- The lamp of a point, with its channel's source value (R119). -/
def setLamp (s : State) (c : Fin 64) (v : ChannelValue) : State :=
  writeSource (s.modPoint c fun p => { p with lamp := v }) (lampChannel c) v

/-- The rank of a priority in the queue (R121). -/
def Priority.rank : Priority → Nat
  | .evacAssist => 0
  | .urgent => 1
  | .normal => 2

/-- Whether the call of point `a` stands before that of point `b` in the queue (R121). The earlier first press time is
the smaller value of the seconds counter, also across its wrap. (DESIGN CHOICE, log entry 53.) -/
def callBefore (s : State) (a b : Fin 64) : Bool :=
  match s.call a, s.call b with
  | some x, some y =>
    decide (x.priority.rank < y.priority.rank)
      || (decide (x.priority = y.priority)
        && (decide (x.firstPress < y.firstPress)
          || (decide (x.firstPress = y.firstPress) && decide (a.val < b.val))))
  | _, _ => true

/-- A queue with an entry put at its place. -/
def insertCall (s : State) (c : Fin 64) : List (Fin 64) → List (Fin 64)
  | [] => [c]
  | d :: rest => if callBefore s c d then c :: d :: rest else d :: insertCall s c rest

/-- A call's queue entry joins, or moves to the place its record now gives it (R121). -/
def enqueueCall (s : State) (c : Fin 64) : State :=
  { s with callQueue := insertCall s c (s.callQueue.filter fun d => decide (d ≠ c)) }

/-- A call's queue entry is removed (R121). -/
def dequeueCall (s : State) (c : Fin 64) : State :=
  { s with callQueue := s.callQueue.filter fun d => decide (d ≠ c) }

/-! ### Places and candidates (R116) -/

/-- The place after another in a call's cycle, for a desk list of length `len`. -/
def placeAfter (p : Priority) (len : Nat) : Place → Place
  | .position k =>
    if k < len then .position (k + 1)
    else match p with
      | .evacAssist => .evac
      | .normal | .urgent => .position 1
  | .evac => .position 1

/-- The last place of a call's cycle is the last position of its list. -/
def isLastPlace (len : Nat) : Place → Bool
  | .position k => decide (len ≤ k)
  | .evac => decide (len = 0)

/-- How many places a call's cycle holds. -/
def cycleLength (p : Priority) (len : Nat) : Nat :=
  match p with
  | .evacAssist => len + 1
  | .normal | .urgent => len

/-- `n` places of a call's cycle, starting at a place. -/
def placesFrom (p : Priority) (len : Nat) : Nat → Place → List Place
  | 0, _ => []
  | n + 1, x => x :: placesFrom p len n (placeAfter p len x)

/-- The desk a place of a call's cycle names (R116). -/
def deskAt (s : State) (c : Fin 64) : Place → Option (Fin 8)
  | .evac => (s.wing (s.wingOf (s.point c).zone)).evacDesk
  | .position k => (s.point c).deskList[k - 1]?

/-- Whether a desk qualifies for an offer (R122). -/
def deskQualifies (s : State) (k : Fin 8) : Bool :=
  match (s.desk k).owner with
  | some st => (s.port st).up && decide ((s.desk k).offered.length < (s.desk k).capacity)
  | none => false

/-- A call's places with the desks they name, each once, starting with the next desk (R122). -/
def candidates (s : State) (c : Fin 64) (h : HelpCall) : List (Place × Fin 8) :=
  let len := (s.point c).deskList.length
  (placesFrom h.priority len (cycleLength h.priority len) h.next).filterMap fun p =>
    (deskAt s c p).map fun k => (p, k)

/-! ### Offers (R122) -/

/-- A call is offered to a desk. -/
def offerCall (s : State) (c : Fin 64) (h : HelpCall) (p : Place) (k : Fin 8) : State :=
  let s1 := setCall s c { h with next := p, phase := .offered k (s.desk k).tOffer }
  let s2 := s1.modDesk k fun d => { d with offered := d.offered ++ [c] }
  appendPoint s2 .callOffer c (.desk k)

/-- A round's work on one call of the queue. -/
def offerOne (s : State) (c : Fin 64) : State :=
  match s.call c with
  | some h =>
    match h.phase with
    | .raised =>
      match (candidates s c h).find? fun x => deskQualifies s x.2 with
      | some (p, k) => offerCall s c h p k
      | none => s
    | .offered _ _ | .accepted _ => s
  | none => s

/-- An offering round (R122). -/
def offeringRound (s : State) : State := s.callQueue.foldl offerOne s

/-- A call leaves a desk's offered calls. -/
def leaveDesk (s : State) (k : Fin 8) (c : Fin 64) : State :=
  s.modDesk k fun d => { d with offered := d.offered.filter fun x => decide (x ≠ c) }

/-- An OFFERED call is withdrawn: it becomes RAISED with the next desk given, and CALL_WITHDRAWN is
appended (R126, R127). -/
def withdrawCall (s : State) (c : Fin 64) (h : HelpCall) (k : Fin 8) (next : Place) : State :=
  appendPoint (setCall (leaveDesk s k c) c { h with next := next, phase := .raised }) .callWithdrawn c (.desk k)

/-! ### Evacuation (R126) -/

/-- The calls of a wing's zones, in queue order. -/
def callsOfWing (s : State) (w : Fin 4) : List (Fin 64) :=
  s.callQueue.filter fun c => decide (s.wingOf (s.point c).zone = w)

/-- One call of a wing that enters EVACUATE. -/
def evacuateCall (w : Fin 4) (s : State) (c : Fin 64) : State :=
  match s.call c with
  | none => s
  | some h =>
    let h1 := { h with priority := .evacAssist }
    let s1 := appendPoint (enqueueCall (setCall s c h1) c) .callPriority c (.priorityCause .evacAssist .evacuation)
    match h1.phase with
    | .raised => setCall s1 c { h1 with next := .evac }
    | .offered k _ =>
      if (s.wing w).evacDesk = some k then setCall s1 c { h1 with next := .evac }
      else withdrawCall s1 c h1 k .evac
    | .accepted _ => s1

/-- The Call Unit takes a wing's entry into EVACUATE (R126). The offering round follows at the end of the event. -/
def evacuateCalls (s : State) (w : Fin 4) : State := (callsOfWing s w).foldl (evacuateCall w) s

/-- The offering round at the end of an event in which a wing has entered EVACUATE (R122, R126).
(DEDUCED, log entry 36.) -/
def offerAfterEvacuation (before s : State) : State :=
  if (List.finRange 4).any fun w => s.evacuating w && !before.evacuating w then offeringRound s else s

/-- One call of a wing that returns to STANDBY. -/
def standDownCall (s : State) (c : Fin 64) : State :=
  match s.call c with
  | none => s
  | some h =>
    match h.priority with
    | .evacAssist =>
      let next := match h.next with
        | .evac => Place.position 1
        | .position k => .position k
      let h1 := { h with priority := .urgent, next := next }
      appendPoint (enqueueCall (setCall s c h1) c) .callPriority c (.priorityCause .urgent .standby)
    | .normal | .urgent => s

/-- The Call Unit takes a wing's return to STANDBY (R126), the calls in queue order. (DESIGN CHOICE, log entry 52.) -/
def standDownCalls (s : State) (w : Fin 4) : State := (callsOfWing s w).foldl standDownCall s

/-! ### A lost link (R127) -/

/-- Whether a station owns a desk. -/
def ownsDesk (s : State) (st : Station) (k : Fin 8) : Bool := decide ((s.desk k).owner = some st)

/-- The place after the one a call holds. -/
def movedOn (s : State) (c : Fin 64) (h : HelpCall) : Place :=
  placeAfter h.priority (s.point c).deskList.length h.next

/-- A call OFFERED at a desk of the lost station is withdrawn. -/
def withdrawLost (st : Station) (s : State) (c : Fin 64) : State :=
  match s.call c with
  | some h =>
    match h.phase with
    | .offered k _ => if ownsDesk s st k then withdrawCall s c h k (movedOn s c h) else s
    | .raised | .accepted _ => s
  | none => s

/-- A NORMAL priority made URGENT. -/
def Priority.raised : Priority → Priority
  | .normal | .urgent => .urgent
  | .evacAssist => .evacAssist

/-- A call ACCEPTED at a desk of the lost station is requeued. -/
def requeueLost (st : Station) (s : State) (c : Fin 64) : State :=
  match s.call c with
  | some h =>
    match h.phase with
    | .accepted k =>
      if ownsDesk s st k then
        let h1 := { h with priority := h.priority.raised, next := movedOn s c h, phase := .raised }
        appendPoint (enqueueCall (setLamp (setCall s c h1) c .flash) c) .callRequeued c (.desk k)
      else s
    | .raised | .offered _ _ => s
  | none => s

/-- The Call Unit takes the loss of a station's link (R127): the OFFERED calls in queue order, then the ACCEPTED
ones. (DESIGN CHOICE, log entry 38.) -/
def loseDesks (s : State) (st : Station) : State :=
  let s1 := s.callQueue.foldl (withdrawLost st) s
  offeringRound (s1.callQueue.foldl (requeueLost st) s1)

/-! ### Presses, lapses, acceptance and clearing -/

/-- A press on an IDLE HELP point (R120). The CALL activity is taken before the offering round, which ends the event
(R122). (DEDUCED, log entry 36.) -/
def raiseCall (s : State) (c : Fin 64) : State :=
  let z := (s.point c).zone
  let h : HelpCall :=
    if s.evacuating (s.wingOf z) then
      { presses := 1, firstPress := s.seconds, priority := .evacAssist, next := .evac, phase := .raised }
    else { presses := 1, firstPress := s.seconds, priority := .normal, next := .position 1, phase := .raised }
  let s1 := enqueueCall (setLamp (setCall s c h) c .flash) c
  let s2 := s1.modZone z fun r => { r with activeCalls := r.activeCalls + 1 }
  offeringRound (takeActivity (appendPoint s2 .callRaised c (.priority h.priority)) z .call)

/-- A repeat press on an active HELP point, then the CALL activity (R120). -/
def pressAgain (s : State) (c : Fin 64) (h : HelpCall) : State :=
  let n := min (h.presses + 1) Config.pressMax
  let s1 :=
    if n = Config.urgentPresses ∧ h.priority = .normal ∧ h.presses < n then
      appendPoint (enqueueCall (setCall s c { h with presses := n, priority := .urgent }) c) .callPriority c
        (.priorityCause .urgent .presses)
    else setCall s c { h with presses := n }
  takeActivity s1 (s.point c).zone .call

/-- An offer lapses (R123). -/
def lapseOffer (s : State) (c : Fin 64) (h : HelpCall) (k : Fin 8) : State :=
  let len := (s.point c).deskList.length
  let priority := if isLastPlace len h.next then h.priority.raised else h.priority
  let h1 := { h with priority := priority, next := placeAfter h.priority len h.next, phase := .raised }
  offeringRound
    (appendPoint (enqueueCall (setCall (leaveDesk s k c) c h1) c) .callEscalated c (.deskPriority k priority))

/-- A call becomes ACCEPTED at the desk it was offered to (R124). -/
def acceptOffer (s : State) (c : Fin 64) (h : HelpCall) (k : Fin 8) : State :=
  let s1 := setLamp (setCall (leaveDesk s k c) c { h with phase := .accepted k }) c .steady
  offeringRound (appendPoint s1 .callAccepted c (.desk k))

/-- An active call is cleared (R125). -/
def clearActive (s : State) (c : Fin 64) (h : HelpCall) (st : Station) : State :=
  let s1 := match h.phase with
    | .offered k _ => leaveDesk s k c
    | .raised | .accepted _ => s
  let s2 := dequeueCall (setLamp (s1.modPoint c fun p => { p with state := .idle }) c .off) c
  let s3 := s2.modZone (s.point c).zone fun r => { r with activeCalls := r.activeCalls - 1 }
  let s4 := appendPoint s3 .callCleared c (.station st)
  match h.phase with
  | .offered _ _ => offeringRound s4
  | .raised | .accepted _ => s4

end Sys2Proof.Machine
end

