-- ==== Sys2Proof/Machine/OutputStage.lean ====
section
/-! DEFINITION. The Output Stage (chapter 9): the four maintenance commands over a range of channels,
the return of a wing's channels when the wing leaves STANDBY, the wire sense, and the messages an event
sends to the field. -/

set_option autoImplicit false

namespace Sys2Proof.Machine

/-- Whether a channel lies in the range of a maintenance command. -/
def inRange (first count : Nat) (n : Fin 276) : Bool := decide (first ≤ n.val) && decide (n.val < first + count)

/-- HOLD CHANNELS on one channel (R152). -/
def holdChannel (c : Channel) : Channel := takeEffective { c with latch := .hold }

/-- FREE CHANNELS on one channel (R152). -/
def freeChannel (c : Channel) : Channel := takeEffective { c with latch := .follow, latched := c.source }

/-- RELEASE DRIVE on one channel (R153). -/
def releaseChannel (c : Channel) : Channel := takeEffective { c with drive := .released }

/-- RESTORE DRIVE on one channel (R153). -/
def restoreChannel (c : Channel) : Channel := takeEffective { c with drive := .enabled }

/-- A change made to every channel of a range that stands otherwise than asked (R152, R153). -/
def changeRange (s : State) (first count : Nat) (stands : Channel → Bool) (f : Channel → Channel) : State :=
  { s with channels := s.channels.mapIdx fun n c => if inRange first count n && !stands c then f c else c }

/-- How many channels of a range belonging to `owner` stand otherwise than asked. -/
def changedIn (s : State) (first count : Nat) (stands : Channel → Bool) (owner : Option (Fin 4)) : Nat :=
  (s.channels.indices fun n c => inRange first count n && !stands c && decide (c.wing = owner)).length

/-- The owners whose channels a maintenance command may change, in the order of their entries (R154). -/
def entryOwners : List (Option (Fin 4)) := (List.finRange 4).map some ++ [none]

/-- A taken maintenance command: the change, and one entry for each wing it changed a channel of (R154). -/
def maintain (s : State) (first count : Nat) (kind : EntryKind) (stands : Channel → Bool)
    (f : Channel → Channel) : State :=
  entryOwners.foldl
    (fun t o =>
      let n := changedIn s first count stands o
      if n = 0 then t
      else append t kind (match o with | some w => .wing w | none => .none) o (.channels first count n))
    (changeRange s first count stands f)

/-- A wing leaves STANDBY: its channels return to FOLLOW and ENABLED (R155). -/
def returnChannel (c : Channel) : Channel :=
  takeEffective
    { c with
      latch := .follow
      latched := match c.latch with | .hold => c.source | .follow => c.latched
      drive := .enabled }

/-- The Output Stage's part of a wing leaving STANDBY, with its two entries (R155). -/
def breakHolds (s : State) (w : Fin 4) : State :=
  let freed := s.channels.count fun c => decide (c.wing = some w) && decide (c.latch = .hold)
  let restored := s.channels.count fun c => decide (c.wing = some w) && decide (c.drive = .released)
  let s1 := { s with channels := s.channels.map fun c => if c.wing = some w then returnChannel c else c }
  let s2 := if freed = 0 then s1 else appendWing s1 .holdBroken w (.number freed)
  if restored = 0 then s2 else appendWing s2 .driveRestored w (.stageRestored restored)

/-- The value of a channel in wire sense (R150). -/
def wireValue (kind : ChannelKind) (c : Channel) : WireValue :=
  match kind with
  | .sign | .lamp | .sounder => .plain c.effective
  | .door | .light =>
    let asserted := match c.effective with
      | .lock | .hold | .on => true
      | _ => false
    let asserted := match c.polarity with
      | .normal => asserted
      | .inverted => !asserted
    if asserted then .asserted else .negated

/-- The message of one channel (R150). -/
def messageOf (n : Fin 276) (c : Channel) : ChannelMessage :=
  { channel := n, drive := c.drive
    value := match c.drive with | .enabled => some (wireValue (channelKind n) c) | .released => none }

/-- Whether an event that turned `a` into `b` sends a message of the channel (R150). -/
def sendsMessage (a b : Channel) : Bool :=
  decide (a.drive ≠ b.drive) || (decide (a.effective ≠ b.effective) && decide (b.drive = .enabled))

/-- The messages an event sends (R150), by rising channel number. (DESIGN CHOICE, log entry 47.) -/
def channelMessages (before after : Tbl 276 Channel) : List ChannelMessage :=
  (List.zip (List.finRange 276) (List.zip before.rows after.rows)).filterMap fun x =>
    if sendsMessage x.2.1 x.2.2 then some (messageOf x.1 x.2.2) else none

/-- A message of every channel, as START and RESTART send (R157), by rising channel number. (DEDUCED, log entry 13;
DESIGN CHOICE, log entry 47.) -/
def allMessages (after : Tbl 276 Channel) : List ChannelMessage :=
  (List.zip (List.finRange 276) after.rows).map fun x => messageOf x.1 x.2

end Sys2Proof.Machine
end

