-- ==== Sys2Proof/Machine/FireSequence.lean ====
section
/-! DEFINITION. The Fire Sequence Unit (chapter 4): the fire state of a zone, the stage machine of a wing,
what leaving STANDBY, entering EVACUATE and returning to STANDBY do, alerting, sounders and zone resets. -/

set_option autoImplicit false

namespace Sys2Proof.Machine

/-! ### The fire state of a zone -/

/-- The state of every exit of a zone is taken anew; a change is a selection-pass trigger (R132). -/
def refreshExit (z : Fin 64) (s : State) (e : Fin 16) : State :=
  let x := s.exit e
  let state := exitState (s.zone x.zone).fire.inAlarm x.stationBlocked
  if x.configured && decide (x.zone = z) && decide (x.state ≠ state) then
    trigger (s.modExit e fun x => { x with state := state })
  else s

/-- The exits of a zone, in order (R132). -/
def refreshExits (s : State) (z : Fin 64) : State := (List.finRange 16).foldl (refreshExit z) s

/-- A zone's fire state is written; a change among the three is a selection-pass trigger (R60, R137). -/
def writeFire (s : State) (z : Fin 64) (f : FireState) : State :=
  if (s.zone z).fire.name = f.name then s
  else refreshExits (trigger (s.modZone z fun r => { r with fire := f })) z

/-- The derived fire state of a zone that is not in ALARM (R60). -/
def deriveFire (s : State) (z : Fin 64) : State :=
  if (s.zone z).fire.inAlarm then s else writeFire s z (derivedFire s z)

/-! ### Sounders and alerting -/

/-- The sounder of a wing takes its source value (R75). -/
def sound (s : State) (w : Fin 4) : State := writeSource s (sounderChannel w) (sounderValue (s.wing w))

/-- A wing's alerted flag is set, with its entry (R73). -/
def alertWing (spreading : Fin 4) (s : State) (w : Fin 4) : State :=
  if s.atStandby w && !(s.wing w).alerted then
    sound (appendWing (s.modWing w fun x => { x with alerted := true }) .wingAlerted w (.wing spreading)) w
  else s

/-- The wings in EVACUATE whose spread lists name a wing, ascending. -/
def alerters (s : State) (w : Fin 4) : List (Fin 4) :=
  s.wings.indices fun _ x => decide (x.stage.name = .evacuate) && x.spreadList.contains w

/-- A wing's spread list, ascending. -/
def spreadOf (s : State) (w : Fin 4) : List (Fin 4) :=
  (List.finRange 4).filter fun x => (s.wing w).spreadList.contains x

/-- A wing has left EVACUATE: a wing of its spread list that no other evacuating wing names is no longer
alerted (R73). -/
def endAlert (stopped : Fin 4) (s : State) (w : Fin 4) : State :=
  if (s.wing w).alerted && (alerters s w).isEmpty then
    sound (appendWing (s.modWing w fun x => { x with alerted := false }) .alertEnded w (.wing stopped)) w
  else s

/-! ### Leaving STANDBY (R70) -/

/-- A zone's test ends (R55): the test field and each detector's armed flag become absent, TEST_ENDED is
appended, and a change of the unprotected status is passed on (R16). -/
def endTest (cause : TestEndCause) (s : State) (z : Fin 64) : State :=
  if (s.zone z).testTimer.isSome then
    let s1 := s.modZone z fun r => { r with testTimer := none }
    let s2 := { s1 with
      detectors := s1.detectors.map fun d =>
        d.map fun d => if d.zone = z then { d with testArmed := none } else d }
    let s3 := appendZone s2 .testEnded z (.testEnd cause)
    if (s.zone z).unprotected = (s3.zone z).unprotected then s3 else trigger s3
  else s

/-- The wing's lockdown ends because the wing leaves STANDBY (R109). -/
def endLockdownByStage (s : State) (w : Fin 4) : State :=
  if (s.wing w).lockdown then
    appendWing (s.modWing w fun x => { x with lockdown := false }) .lockdownEnded w (.lockdownCause .stage)
  else s

/-- What the other blocks do when a wing leaves STANDBY (R70), in the order of its list. The tests of several zones
end by rising zone number. (DESIGN CHOICE, log entry 35.) -/
def leaveStandby (s : State) (w : Fin 4) : State :=
  let s1 := breakHolds s w
  let s2 := suspendWing s1 w
  let s3 := endLockdownByStage s2 w
  (s3.zonesOf w).foldl (endTest .stage) s3

/-! ### Stage changes -/

/-- The stage of a wing is written, with its STAGE_CHANGE entry (R69). -/
def changeStage (s : State) (w : Fin 4) (x : Stage) (cause : StageCause) : State :=
  appendWing (s.modWing w fun r => { r with stage := x }) .stageChange w (.stage x.name cause)

/-- The alerted flag of a wing that leaves STANDBY clears without an entry (R73). -/
def clearAlerted (s : State) (w : Fin 4) : State := s.modWing w fun r => { r with alerted := false }

/-- The egress flag of every configured zone of a wing is written; a change is a selection-pass trigger
(R71, R72). -/
def setEgress (s : State) (w : Fin 4) (x : Bool) : State :=
  let zs := (s.zonesOf w).filter fun z => decide ((s.zone z).egress ≠ x)
  if zs.isEmpty then s
  else trigger (zs.foldl (fun t z => t.modZone z fun r => { r with egress := x }) s)

/-- A wing enters ACK_WAIT (R63, R70). -/
def enterAckWait (s : State) (w : Fin 4) : State :=
  let s1 := changeStage s w (.ackWait (s.wing w).tAck) .staged
  sound (clearAlerted (leaveStandby s1 w) w) w

/-- A wing enters EVACUATE (R69, R70, R71): its STAGE_CHANGE, the effects of leaving STANDBY where it left
STANDBY, egress, the spread timer, its help calls (R126), and the alerting of its spread list (R73). -/
def enterEvacuate (s : State) (w : Fin 4) (cause : StageCause) : State :=
  let s1 := changeStage s w .evacuate cause
  let s2 := if s.atStandby w then clearAlerted (leaveStandby s1 w) w else s1
  let s3 := setEgress s2 w true
  let s4 := s3.modWing w fun r =>
    { r with
      silenced := false
      spreadTimer := if 0 < r.tSpread then some r.tSpread else r.spreadTimer }
  let s5 := sound (evacuateCalls s4 w) w
  (spreadOf s5 w).foldl (alertWing w) s5

/-- A wing has returned to STANDBY; its stage is written and its own entry appended already (R72). The effects stand
in the order of log entry 24, and several wings that are no longer alerted take their ALERT_ENDED by rising wing number.
(DESIGN CHOICE, log entries 24 and 51.) -/
def returnEffects (s : State) (w : Fin 4) (left : StageName) : State :=
  let s1 := s.modWing w fun r => { r with spreadTimer := none, silenced := false }
  let s2 := setEgress s1 w false
  let s3 := if left = .evacuate then (spreadOf s2 w).foldl (endAlert w) s2 else s2
  let s4 := match alerters s3 w with
    | v :: _ => alertWing v s3 w
    | [] => s3
  let s5 := sound s4 w
  standDownCalls (restoreWing s5 w) w

/-! ### Zone alarms -/

/-- The cause of an entry into EVACUATE from STANDBY (R63). -/
def standbyCause : AlarmOrigin → StageCause
  | .detector _ => .detector
  | .manualCall _ => .manualCall
  | .station => .station

/-- The cause of an entry into EVACUATE from ACK_WAIT or INVESTIGATE (R64). -/
def furtherCause : AlarmOrigin → StageCause
  | .detector _ => .secondAlarm
  | .manualCall _ => .manualCall
  | .station => .station

/-- The staged conditions of a wing, for a zone that has just entered ALARM (R63). `several` says that more
than one detector of the wing entered ALARM in the event. -/
def stagedConditions (s : State) (w : Fin 4) (origin : AlarmOrigin) (several : Bool) : Bool :=
  (match origin with | .detector _ => true | .manualCall _ | .station => false)
    && !several && decide ((s.wing w).mode = .openHours) && (s.wing w).staged && s.ports.fire.up

/-- The stage machine of a wing takes an alarm of one of its zones (R63, R64). `fresh` says that the zone
entered ALARM in this event. -/
def stageTakes (s : State) (w : Fin 4) (origin : AlarmOrigin) (several fresh : Bool) : State :=
  match (s.wing w).stage with
  | .standby =>
    if fresh && stagedConditions s w origin several then enterAckWait s w
    else enterEvacuate s w (standbyCause origin)
  | .ackWait _ | .investigate _ => enterEvacuate s w (furtherCause origin)
  | .evacuate => s

/-- A silenced evacuating wing resounds when a zone of it enters ALARM (R76). -/
def resound (s : State) (w : Fin 4) (z : Fin 64) : State :=
  if s.evacuating w && (s.wing w).silenced then
    sound (appendWing (s.modWing w fun r => { r with silenced := false }) .wingResounded w (.zone z)) w
  else s

/-- A zone enters ALARM (R61). -/
def enterAlarm (s : State) (z : Fin 64) (origin : AlarmOrigin) : State :=
  appendZone (writeFire s z (.alarm origin s.seconds)) .zoneAlarm z (.origin origin)

/-- A zone takes a cause of alarm (R61): it enters ALARM unless it is there, and the wing's stage machine
takes the cause. -/
def zoneAlarm (s : State) (z : Fin 64) (origin : AlarmOrigin) (several : Bool) : State :=
  let w := s.wingOf z
  if (s.zone z).fire.inAlarm then stageTakes s w origin several false
  else stageTakes (resound (enterAlarm s z origin) w z) w origin several true

/-- A fire call (R117): the point latches, FIRE_CALL is appended, and the zone takes the call. -/
def fireCall (s : State) (c : Fin 64) : State :=
  let s1 := match (s.point c).state with
    | .idle => setLamp (s.modPoint c fun p => { p with state := .latched }) c .steady
    | .latched | .active _ => s
  zoneAlarm (appendPoint s1 .fireCall c .none) (s.point c).zone (.manualCall c) false

/-! ### Zone resets (R77, R78) -/

/-- Whether a detector holds the level alarm condition (R58). -/
def holdsLevelAlarm (s : State) (d : Detector) : Bool :=
  !d.state.impaired && match d.level with
    | some l => (s.thresholdsFor d).levelAlarm l
    | none => false

/-- The zone-reset test (R77). -/
def passesReset (s : State) (z : Fin 64) : Bool :=
  (s.detectorsOf z fun d => holdsLevelAlarm s d).isEmpty
    && (s.points.indices fun _ p =>
      p.configured && decide (p.zone = z) && decide (p.kind = .fire) && decide (p.input = .pressed)).isEmpty

/-- A detector in ALARM enters NORMAL with its rise run cleared and its level kept (R58). -/
def Detector.resetAlarm (d : Detector) : Detector :=
  match d.state with
  | .alarm => { d with state := .normal, riseRun := 0 }
  | _ => d

/-- Every LATCHED fire call point of a zone returns to IDLE with its lamp OFF (R118). -/
def unlatchPoints (s : State) (z : Fin 64) : State :=
  (s.points.indices fun _ p => p.configured && decide (p.zone = z) && decide (p.state = .latched)).foldl
    (fun t c => setLamp (t.modPoint c fun p => { p with state := .idle }) c .off) s

/-- A zone is reset, with its ZONE_RESET entry (R78). -/
def resetOneZone (s : State) (z : Fin 64) : State :=
  let s1 := { s with
    detectors := s.detectors.map fun d => d.map fun d => if d.zone = z then d.resetAlarm else d }
  let s2 := unlatchPoints s1 z
  let f := derivedFire s2 z
  appendZone (writeFire s2 z f) .zoneReset z (.fireState f.name)

/-- The zones of a wing in ALARM, ascending. -/
def alarmZones (s : State) (w : Fin 4) : List (Fin 64) :=
  (s.zonesOf w).filter fun z => (s.zone z).fire.inAlarm

end Sys2Proof.Machine
end

