-- ==== Sys2Proof/Machine/Detection.lean ====
section
/-! DEFINITION. The Detector Evaluation Unit (chapter 3): the six steps of a reading, faults, verification,
coincidence, baseline tracking, test mode, and the changes from outside the reading path. -/

set_option autoImplicit false

namespace Sys2Proof.Machine

/-! ### Records and the impaired count -/

/-- The impaired count of a zone follows a change of one detector of it (R15); a change of the unprotected
status is a selection-pass trigger (R16). -/
def followImpaired (s : State) (z : Fin 64) (was now : Bool) : State :=
  if was = now then s
  else
    let s1 := s.modZone z fun r =>
      { r with impairedCount := if now then r.impairedCount + 1 else r.impairedCount - 1 }
    if (s.zone z).unprotected = (s1.zone z).unprotected then s1 else trigger s1

/-- A detector's record is written, with its zone's impaired count (R15). -/
def writeDetector (s : State) (n : Fin 192) (old new : Detector) : State :=
  followImpaired (s.putDetector n (some new)) new.zone old.state.impaired new.state.impaired

/-- An entry about a detector, naming its zone's wing (R41). -/
def appendDetector (s : State) (kind : EntryKind) (n : Fin 192) (z : Fin 64) (detail : Detail) : State :=
  append s kind (.detector n) (some (s.wingOf z)) detail

/-- A verification in progress is cancelled with its entry (R48). -/
def abortVerify (s : State) (n : Fin 192) (d : Detector) (cause : AbortCause) : State :=
  if d.state.isVerifying then appendDetector s .verifyAborted n d.zone (.abortCause cause) else s

/-! ### Step 1: the reply (R42, R43) -/

/-- What a reply is to the first step. -/
inductive ReplyClass
  | missed
  | faulty (kind : FaultKind)
  | valid (value : Nat)
  deriving DecidableEq, Repr

/-- A raw value is a valid reply from 64 to 4031, and otherwise a fault code (R42, R43). -/
def classify : Reading → ReplyClass
  | .noReply => .missed
  | .raw v =>
    if v < Config.validLow then .faulty .headRemoved
    else if Config.validHigh < v then .faulty .overRange
    else .valid v

/-- Entry into FAULT from a state outside it (R42). -/
def enterFault (s : State) (n : Fin 192) (old d : Detector) (kind : FaultKind) : State :=
  let s1 := abortVerify s n old .fault
  let s2 := writeDetector s1 n old
    { d with
      state := .fault kind, level := none, riseRun := 0, testArmed := d.testArmed.map fun _ => false }
  deriveFire (appendDetector s2 .detectorFault n d.zone (.faultKind kind)) d.zone

/-- A NO_REPLY (R42). -/
def takeMissed (s : State) (n : Fin 192) (d : Detector) : State :=
  let d1 := { d with validRun := 0, missed := min (d.missed + 1) Config.missedLimit }
  match d.state with
  | .fault _ => s.putDetector n (some d1)
  | .unmonitored | .normal | .preAlarm | .verifying _ | .alarm | .disabled =>
    if d1.missed < Config.missedLimit then s.putDetector n (some d1) else enterFault s n d d1 .noReply

/-- A fault code (R42). -/
def takeFaultCode (s : State) (n : Fin 192) (d : Detector) (kind : FaultKind) : State :=
  let d1 := { d with missed := 0, validRun := 0 }
  match d.state with
  | .fault _ => s.putDetector n (some { d1 with state := .fault kind })
  | .unmonitored | .normal | .preAlarm | .verifying _ | .alarm | .disabled => enterFault s n d d1 kind

/-! ### Steps 2 to 4: level, rise and conditions -/

/-- The level of a valid raw value (R44). -/
def levelOf (raw baseline : Nat) : Nat := min (raw - baseline / 16) Config.levelMax

/-- The rise of a reading: the level less the previous level, 0 where there is none (R45). -/
def riseOf (level : Nat) (previous : Option Nat) : Int :=
  match previous with
  | some p => (level : Int) - (p : Int)
  | none => 0

/-- The rise run after a reading (R45). -/
def riseRunAfter (run : Nat) (rise : Int) (riseStep : Nat) (previous : Option Nat) : Nat :=
  match previous with
  | none => 0
  | some _ =>
    if (riseStep : Int) ≤ rise then min (run + 1) Config.riseRunMax
    else if 0 < rise then run
    else 0

/-- Whether a rise alarm holds (R45). -/
def riseAlarm (c : DetectorClass) (run : Nat) : Bool := decide (0 < c.riseCount) && decide (c.riseCount ≤ run)

/-! ### Step 5: the state (R47, R48, R54) -/

/-- What the fifth step decides: the new state and the entry it appends. -/
structure Move where
  state : DetectorState
  entry : Option (EntryKind × Detail)
  deriving DecidableEq, Repr

/-- The move of a reading in a zone whose test is off (R47, R48, R49). -/
def moveState (c : DetectorClass) (t : Thresholds) (state : DetectorState) (level : Nat) (rises : Bool) : Move :=
  let levelAlarm := t.levelAlarm level
  let alarm := levelAlarm || rises
  match state with
  | .normal | .preAlarm =>
    if alarm then
      if c.window = 0 then
        { state := .alarm, entry := some (.detectorAlarm, .alarmCause (if levelAlarm then .level else .rise)) }
      else { state := .verifying c.window, entry := some (.verifyStarted, .number level) }
    else match state with
      | .preAlarm =>
        if level + Config.hysteresis < t.pre || (decide (level = 0) && decide (t.pre = 16)) then
          { state := .normal, entry := some (.detectorNormal, .number level) }
        else { state := .preAlarm, entry := none }
      | _ =>
        if t.pre ≤ level then { state := .preAlarm, entry := some (.detectorPreAlarm, .number level) }
        else { state := .normal, entry := none }
  | .verifying k =>
    if alarm then { state := .alarm, entry := some (.detectorAlarm, .alarmCause .confirmed) }
    else { state := .verifying k, entry := none }
  | .alarm => { state := .alarm, entry := none }
  | .unmonitored | .fault _ | .disabled => { state := state, entry := none }

/-- The three states whose entry counts for coincidence (R50). -/
def DetectorState.concern : DetectorState → Bool
  | .preAlarm | .verifying _ | .alarm => true
  | .unmonitored | .normal | .fault _ | .disabled => false

/-- Whether a move enters PRE_ALARM, VERIFYING or ALARM (R50). -/
def entersConcern (old new : DetectorState) : Bool :=
  new.concern && match old, new with
    | .preAlarm, .preAlarm | .verifying _, .verifying _ | .alarm, .alarm => false
    | _, _ => true

/-- One detector in VERIFYING is promoted to ALARM (R50). -/
def promote (s : State) (n : Fin 192) : State :=
  match s.detector n with
  | some d =>
    appendDetector (writeDetector s n d { d with state := .alarm }) .detectorAlarm n d.zone
      (.alarmCause .coincidence)
  | none => s

/-- What follows a detector's move: coincidence (R50), then the Fire Sequence Unit (R49, R60). `old` is the
detector's state before the event and the record `n` holds its state after it.
(DEDUCED, log entry 16: another detector must be VERIFYING. DESIGN CHOICE, log entry 35: the promoted detectors'
entries stand by rising number.) -/
def afterMove (s : State) (n : Fin 192) (z : Fin 64) (old new : DetectorState) : State :=
  let verifying := s.detectorsOf z fun d => d.state.isVerifying
  let promoted :=
    if entersConcern old new && (verifying.any fun m => decide (m ≠ n)) then verifying else []
  let s1 := promoted.foldl promote s
  let alarmed :=
    (List.finRange 192).filter fun m =>
      promoted.contains m || (decide (m = n) && decide (new = .alarm) && decide (old ≠ .alarm))
  match alarmed with
  | [] => deriveFire s1 z
  | m :: rest => zoneAlarm s1 z (.detector m) (!rest.isEmpty)

/-! ### Step 6: the baseline (R51, R52) -/

/-- The step of baseline tracking (R51). -/
def trackStep (raw baseline : Nat) : Int :=
  max (-Config.trackStepMax)
    (min Config.trackStepMax (Int.tdiv (16 * (raw : Int) - (baseline : Int)) Config.trackDivisor))

/-- The baseline after tracking (R51). -/
def trackedBaseline (c : DetectorClass) (raw baseline : Nat) : Nat :=
  clamp (16 * c.bmin) (16 * c.bmax) (((baseline : Int) + trackStep raw baseline).toNat)

/-- The compensation-limit flag after tracking has left a baseline (R52). -/
def limitAfter (c : DetectorClass) (baseline : Nat) (flag : Bool) : Bool :=
  if baseline = 16 * c.bmax then true
  else if baseline + 16 ≤ 16 * c.bmax then false
  else flag

/-- The sixth step on a detector whose baseline tracks (R51, R52). -/
def track (s : State) (n : Fin 192) (raw : Nat) : State :=
  match s.detector n with
  | some d =>
    let c := s.cls d.cls
    let b := trackedBaseline c raw d.baseline
    let s1 := s.putDetector n (some { d with baseline := b, compLimit := limitAfter c b d.compLimit })
    if limitAfter c b d.compLimit && !d.compLimit then
      appendDetector s1 .compLimit n d.zone (.number (b / 16))
    else s1
  | none => s

/-! ### The reading -/

/-- The armed flag after a reading in a test zone (R54). A level below the pre-alarm level sets it even where the
reading meets the alarm condition by a rise. (DEDUCED, log entry 34.) -/
def armedAfter (below alarm : Bool) (armed : Bool) : Bool :=
  if below then true else if alarm then false else armed

/-- Steps 2 to 6 of a valid reading. `old` is the record before the event, and `d` the record as step 1 left
it: in NORMAL for a detector that has just left UNMONITORED or FAULT, whose `fresh` is set (R43). -/
def evaluate (s : State) (n : Fin 192) (old d : Detector) (fresh : Bool) (raw : Nat) : State :=
  let c := s.cls d.cls
  let previous := if fresh then none else d.level
  let level := levelOf raw d.baseline
  let rise := riseOf level previous
  let run := riseRunAfter d.riseRun rise c.riseStep previous
  let t := s.thresholdsFor d
  let rises := riseAlarm c run
  let alarm := t.levelAlarm level || rises
  let d1 := { d with level := some level, riseRun := run }
  if (s.zone d.zone).testTimer.isSome then
    let armed := if fresh then true else d.testArmed.getD false
    let s1 := writeDetector s n old
      { d1 with testArmed := some (armedAfter (decide (level < t.pre)) alarm armed) }
    let s2 := if alarm && armed then appendDetector s1 .testActivation n d.zone (.number level) else s1
    afterMove s2 n d.zone old.state d.state
  else
    let m := moveState c t d.state level rises
    let s1 := writeDetector s n old { d1 with state := m.state }
    let s2 := match m.entry with
      | some (k, x) => appendDetector s1 k n d.zone x
      | none => s1
    let s3 := afterMove s2 n d.zone old.state m.state
    if c.tracking && decide (m.state = .normal) && decide (level < t.pre) && decide (rise < (c.riseStep : Int))
    then track s3 n raw
    else s3

/-- A valid reading, by the state that finds it (R43). -/
def takeValid (s : State) (n : Fin 192) (d : Detector) (raw : Nat) : State :=
  let d1 := { d with missed := 0 }
  match d.state with
  | .unmonitored => evaluate s n d { d1 with state := .normal } true raw
  | .fault _ =>
    if d.validRun = 0 then s.putDetector n (some { d1 with validRun := 1 })
    else
      evaluate (appendDetector s .faultCleared n d.zone .none) n d
        { d1 with state := .normal, validRun := 0 } true raw
  | .normal | .preAlarm | .verifying _ | .alarm => evaluate s n d d1 false raw
  | .disabled => s

/-- The DEU takes one reading of a detector (R41). A reading for a DISABLED detector does not arrive. -/
def takeReading (s : State) (n : Fin 192) (r : Reading) : State :=
  match s.detector n with
  | none => s
  | some d =>
    if d.state = .disabled then s
    else match classify r with
      | .missed => takeMissed s n d
      | .faulty k => takeFaultCode s n d k
      | .valid v => takeValid s n d v

/-- A verify timer's expiry (R48). -/
def verifyExpires (s : State) (n : Fin 192) (d : Detector) : State :=
  let level := d.level.getD 0
  let new : DetectorState := if (s.thresholdsFor d).pre ≤ level then .preAlarm else .normal
  let s1 := writeDetector s n d { d with state := new }
  let s2 := appendDetector s1 .unconfirmed n d.zone (.number level)
  afterMove s2 n d.zone d.state new

/-! ### Changes from outside the reading path -/

/-- A detector's move to DISABLED (R56), VERIFY_ABORTED before DETECTOR_DISABLED. (DESIGN CHOICE, log entry 35.) -/
def disableDetectorNow (s : State) (n : Fin 192) (d : Detector) : State :=
  let s1 := abortVerify s n d .disable
  let s2 := writeDetector s1 n d
    { d with
      state := .disabled, level := none, riseRun := 0, missed := 0, validRun := 0, testArmed := none
      waiting := none }
  deriveFire (appendDetector s2 .detectorDisabled n d.zone .none) d.zone

/-- A detector's move from DISABLED to UNMONITORED (R56). -/
def enableDetectorNow (s : State) (n : Fin 192) (d : Detector) : State :=
  let s1 := writeDetector s n d { d with state := .unmonitored, waiting := none }
  deriveFire (appendDetector s1 .detectorEnabled n d.zone .none) d.zone

/-- A detector on a loop that restarts (R33, R57). -/
def restartDetector (s : State) (n : Fin 192) : State :=
  match s.detector n with
  | none => s
  | some d =>
    if d.state = .disabled then s.putDetector n (some { d with mismatch := false })
    else
      let s1 := abortVerify s n d .restart
      let s2 := writeDetector s1 n d
        { d with
          state := .unmonitored, level := none, riseRun := 0, missed := 0, validRun := 0
          testArmed := none, mismatch := false }
      deriveFire s2 d.zone

/-- A zone's test starts on one detector of it (R53). (DEDUCED, log entry 17.) -/
def startTestOn (s : State) (n : Fin 192) : State :=
  match s.detector n with
  | none => s
  | some d =>
    let s1 := abortVerify s n d .test
    match d.state with
    | .verifying _ | .preAlarm | .normal =>
      s1.putDetector n (some { d with state := .normal, testArmed := some true })
    | .unmonitored | .alarm | .fault _ | .disabled =>
      s1.putDetector n (some { d with testArmed := some (d.testArmed.getD false) })

/-- A zone's test starts or is reloaded (R53), the detectors taken by rising number. (DESIGN CHOICE, log entry 35.) -/
def startTest (s : State) (z : Fin 64) : State :=
  let s1 := s.modZone z fun r => { r with testTimer := some Config.testSeconds }
  let s2 := (s1.detectorsOf z fun _ => true).foldl startTestOn s1
  let s3 := appendZone s2 .testStarted z .none
  let s4 := if (s.zone z).unprotected = (s3.zone z).unprotected then s3 else trigger s3
  deriveFire s4 z

/-- The counts of a zone taken anew from the detector records (R3, R15). -/
def recount (s : State) (z : Fin 64) (r : Zone) : Zone :=
  { r with
    detectorCount := (s.detectorsOf z fun _ => true).length
    impairedCount := (s.detectorsOf z fun d => d.state.impaired).length }

end Sys2Proof.Machine
end

