-- ==== Sys2Proof/Machine/LoopScan.lean ====
section
/-! DEFINITION. The Loop Scan Unit (chapter 2): scan units, converter arbitration, scan start and end, the
combination of the two ends of a mirrored slot, break location, and loop restarts. -/

set_option autoImplicit false

namespace Sys2Proof.Machine

/-! ### Scan units: an independent loop, or a mirrored pair (section 2.1) -/

/-- What is scanned as one: an independent loop, or a mirrored pair. -/
inductive ScanUnit
  | loop (number : Fin 4)
  | pair (number : Fin 2)
  deriving DecidableEq, Repr

/-- The two measuring converters (section 2.1). -/
inductive Converter | a | b
  deriving DecidableEq, Repr

/-- The lower loop of a pair, loop 0 or 1. -/
def lowerLoop (p : Fin 2) : Fin 4 := ⟨p.val, by omega⟩
/-- The upper loop of a pair, loop 2 or 3. -/
def upperLoop (p : Fin 2) : Fin 4 := ⟨p.val + 2, by omega⟩
/-- The pair a loop belongs to. -/
def pairOf (l : Fin 4) : Fin 2 := ⟨l.val % 2, by omega⟩
/-- The other loop of a loop's pair. -/
def partnerOf (l : Fin 4) : Fin 4 := ⟨(l.val + 2) % 4, by omega⟩
/-- Converter A serves loops 0 and 1, converter B loops 2 and 3 (section 4.2). -/
def converterOf (l : Fin 4) : Converter := if l.val < 2 then .a else .b

/-- The loop whose scan list and interval timer a unit is scanned by (R28). -/
def ScanUnit.head : ScanUnit → Fin 4
  | .loop l => l
  | .pair p => lowerLoop p

/-- The loops of a unit. -/
def ScanUnit.loops : ScanUnit → List (Fin 4)
  | .loop l => [l]
  | .pair p => [lowerLoop p, upperLoop p]

/-- The unit a loop is scanned in. -/
def unitOf (s : State) (l : Fin 4) : ScanUnit :=
  match (s.loop l).mode with
  | .independent => .loop l
  | .mirrored => .pair (pairOf l)

/-- Every loop record of a unit is changed (R28: a pair's records change together). -/
def modUnit (s : State) (u : ScanUnit) (f : Loop → Loop) : State := u.loops.foldl (fun t l => t.modLoop l f) s

/-- Whether a loop's state is one that scans (section 2.2). -/
def LoopState.scans : LoopState → Bool
  | .running | .lineFault => true
  | .off | .restarting _ _ => false

/-! ### Converters -/

def State.converter (s : State) : Converter → Holder
  | .a => s.converterA
  | .b => s.converterB

def State.putConverter (s : State) (c : Converter) (h : Holder) : State :=
  match c with
  | .a => { s with converterA := h }
  | .b => { s with converterB := h }

def Converter.other : Converter → Converter
  | .a => .b
  | .b => .a

/-- Whether a holder is a unit's scan, or a converter kept for it. -/
def Holder.isFor (h : Holder) (u : ScanUnit) : Bool :=
  match h, u with
  | .loop l, .loop m => decide (l = m)
  | .pair p, .pair q => decide (p = q)
  | .kept p, .pair q => decide (p = q)
  | _, _ => false

/-- The converters a unit holds, or that are kept for it, become free. -/
def releaseConverters (s : State) (u : ScanUnit) : State :=
  let s1 := if s.converterA.isFor u then s.putConverter .a .free else s
  if s1.converterB.isFor u then s1.putConverter .b .free else s1

/-! ### Slots -/

/-- The first slot at or above `first` that holds an enabled address before the first END above it (R24,
R25). -/
def enabledSlot (t : Tbl 48 ScanSlot) (first : Nat) : Option (Fin 48) :=
  (((List.finRange 48).filter fun k => decide (first ≤ k.val)).takeWhile fun k =>
    decide (t.get k ≠ .endMark)).find? fun k =>
      match t.get k with
      | .address _ enabled => enabled
      | .endMark => false

/-- Whether a loop is the upper loop of a mirrored pair, whose own list has no slot for a detector (R28). -/
def isMirroredUpper (s : State) (l : Fin 4) : Bool := decide (2 ≤ l.val) && decide ((s.loop l).mode = .mirrored)

/-- The slot of a detector recorded on a loop at an address: the slot of the loop's list that holds the address
(DEDUCED, log entry 15), and none on the upper loop of a mirrored pair (R28). -/
def slotOf (s : State) (l : Fin 4) (addr : Nat) : Option (Fin 48) :=
  if isMirroredUpper s l then none
  else (List.finRange 48).find? fun k =>
    match s.slot l k with
    | .address a _ => decide (a = addr)
    | .endMark => false

/-- The detector recorded on a loop at an address. -/
def detectorAt (s : State) (l : Fin 4) (addr : Nat) : Option (Fin 192) :=
  (s.detectors.indices fun _ d =>
    match d with
    | some d => decide (d.loop = l) && decide (d.address = addr)
    | none => false).head?

/-- The detector polled at a slot of a loop's list. -/
def detectorPolled (s : State) (l : Fin 4) (k : Fin 48) : Option (Fin 192) :=
  match s.slot l k with
  | .address a _ => detectorAt s l a
  | .endMark => none

/-- Whether a detector's enabled mark stands at enabled (R36): the mark of its slot. R36 does not say what mark a
detector without a slot has; it is whether the detector is not DISABLED. (DEDUCED, log entry 50.) -/
def markedEnabled (s : State) (d : Detector) : Bool :=
  match slotOf s d.loop d.address with
  | some k =>
    match s.slot d.loop k with
    | .address _ enabled => enabled
    | .endMark => false
  | none => decide (d.state ≠ .disabled)

/-- The mark of a detector's slot is written, where it has a slot. -/
def writeMark (s : State) (d : Detector) (enabled : Bool) : State :=
  match slotOf s d.loop d.address with
  | some k => s.putSlot d.loop k (.address d.address enabled)
  | none => s

/-! ### Waiting requests (R36) -/

/-- A waiting request of one detector is applied. -/
def applyRequest (s : State) (n : Fin 192) : State :=
  match s.detector n with
  | none => s
  | some d =>
    match d.waiting with
    | none => s
    | some .disable =>
      if markedEnabled s d then disableDetectorNow (writeMark s d false) n d
      else s.putDetector n (some { d with waiting := none })
    | some .enable =>
      if markedEnabled s d then s.putDetector n (some { d with waiting := none })
      else enableDetectorNow (writeMark s d true) n d

/-- The detectors recorded on the loops of a unit, ascending. -/
def detectorsOfUnit (s : State) (u : ScanUnit) : List (Fin 192) :=
  s.detectors.indices fun _ d =>
    match d with
    | some d => u.loops.contains d.loop
    | none => false

/-- The waiting requests of a unit's detectors are applied, ascending (R36). -/
def applyRequests (s : State) (u : ScanUnit) : State := (detectorsOfUnit s u).foldl applyRequest s

/-! ### Scan start (R24) -/

/-- A unit's scan starts. With no enabled slot it ends in the same event and frees its converters.
(DEDUCED, log entry 20.) -/
def startScan (s : State) (u : ScanUnit) : State :=
  let s1 := modUnit s u fun r => { r with due := false, lastStart := some s.seconds }
  let s2 := s1.modLoop u.head fun r => { r with intervalTimer := some r.scanInterval }
  let s3 := applyRequests s2 u
  match enabledSlot (s3.scanLists.get u.head) 0 with
  | some k => modUnit s3 u fun r => { r with scan := some { slot := k, polls := [] } }
  | none => releaseConverters s3 u

/-! ### Arbitration (R23) -/

/-- Whether a loop is due, not scanning and in a state that scans. -/
def Loop.wants (r : Loop) : Bool := r.inUse && r.due && r.scan.isNone && r.state.scans

/-- The units that want a converter, by loop number; a mirrored pair counts as its lower loop. -/
def contenders (s : State) (c : Converter) : List ScanUnit :=
  (List.finRange 4).filterMap fun l =>
    if (s.loop l).wants then
      match (s.loop l).mode with
      | .independent => if converterOf l = c then some (.loop l) else none
      | .mirrored => if l.val < 2 then some (.pair (pairOf l)) else none
    else none

/-- The rank of a contender: its last scan start time, none first (R23). The raw 32-bit values are compared, also across a
wrap of the seconds counter, on which R23 is silent. (DESIGN CHOICE, log entry 57.) -/
def startRank (s : State) (u : ScanUnit) : Nat :=
  match (s.loop u.head).lastStart with
  | none => 0
  | some t => t.toNat + 1

/-- The winner among contenders: the earliest last scan start, the first of equals (R23). -/
def winner (s : State) : List ScanUnit → Option ScanUnit
  | [] => none
  | u :: rest =>
    match winner s rest with
    | none => some u
    | some v => if startRank s v < startRank s u then some v else some u

/-- The pair that keeps the other converter (R23). -/
def keepsOther (s : State) (c : Converter) : Option (Fin 2) :=
  match s.converter c.other with
  | .kept p => some p
  | .free | .loop _ | .pair _ => none

/-- The unit an arbiter gives its free converter to: the pair that keeps the other converter already, and
otherwise the contender with the earliest last scan start (R23). -/
def arbiterPick (s : State) (c : Converter) : Option ScanUnit :=
  match s.converter c with
  | .free =>
    match keepsOther s c with
    | some p => some (.pair p)
    | none => winner s (contenders s c)
  | .loop _ | .pair _ | .kept _ => none

/-- A converter is given to a unit: a loop starts its scan, and a pair starts its scan when it holds the other
converter too, and otherwise keeps this one (R23). -/
def giveConverter (s : State) (c : Converter) : Option ScanUnit → State
  | some (.loop l) => startScan (s.putConverter c (.loop l)) (.loop l)
  | some (.pair p) =>
    if s.converter c.other = .kept p then
      startScan ((s.putConverter c (.pair p)).putConverter c.other (.pair p)) (.pair p)
    else s.putConverter c (.kept p)
  | none => s

/-- Both arbiters hand out their free converters, each weighing the contenders as they stand before either does.
(DESIGN CHOICE, log entry 19.) -/
def handOut (s : State) : State :=
  giveConverter (giveConverter s .a (arbiterPick s .a)) .b (arbiterPick s .b)

/-- Hand-outs, `n` times over. -/
def handOuts (n : Nat) (s : State) : State :=
  match n with
  | 0 => s
  | n + 1 => handOuts n (handOut s)

/-! ### Becoming due (R22, R34) -/

/-- A loop's interval timer has expired: it becomes due (R22). -/
def intervalDue (s : State) (l : Fin 4) : State :=
  if (s.loop l).intervalTimer = some 0 && (s.loop l).state.scans then
    modUnit (s.modLoop l fun r => { r with intervalTimer := none }) (unitOf s l) fun r => { r with due := true }
  else s

/-- A unit's settle period has ended: it enters RUNNING, due, with LOOP_RUNNING (R34). A mirrored pair appends one
entry, naming its lower loop. (DEDUCED, log entry 33.) -/
def settleDue (s : State) (l : Fin 4) : State :=
  if (s.loop l).state = .restarting .settle 0 then
    let u := unitOf s l
    appendLoop (modUnit s u fun r => { r with state := .running, due := true }) .loopRunning u.head .none
  else s

/-- Every loop whose interval or settle timer expires at this tick is made due (R23).
(DESIGN CHOICE, log entry 19.) -/
def makeDue (s : State) : State :=
  (List.finRange 4).foldl intervalDue ((List.finRange 4).foldl settleDue s)

/-- The arbiters' work in an event that frees a converter or makes a loop due (R23). Each round of hand-outs
starts a scan or keeps a converter, so eight rounds settle every contender. -/
def arbitrate (s : State) : State := handOuts 8 (makeDue s)

/-! ### Polls (R25, R29) -/

/-- How a reply counts (R29). -/
inductive EndReply | valid | faultCode | noReply
  deriving DecidableEq, Repr

def replyKind : Reading → EndReply
  | .noReply => .noReply
  | .raw v => if Config.validLow ≤ v ∧ v ≤ Config.validHigh then .valid else .faultCode

def Reading.value : Reading → Nat
  | .raw v => v
  | .noReply => 0

/-- The difference of the two ends. -/
def endDifference (a b : Reading) : Nat := max (Reading.value a) (Reading.value b) - min (Reading.value a) (Reading.value b)

/-- The reading handed on for a mirrored slot (R29). -/
def combineEnds (a b : Reading) : Reading :=
  match replyKind a, replyKind b with
  | .valid, .valid => .raw (max (Reading.value a) (Reading.value b))
  | .valid, .noReply | .valid, .faultCode => a
  | .noReply, .valid | .faultCode, .valid => b
  | .faultCode, .faultCode | .faultCode, .noReply => a
  | .noReply, .faultCode => b
  | .noReply, .noReply => .noReply

/-- The mirror-mismatch flag after a mirrored slot (R29). -/
def mismatchAfter (flag : Bool) (a b : Reading) : Bool :=
  match replyKind a, replyKind b with
  | .valid, .valid => decide (Config.mismatchLimit < endDifference a b)
  | .valid, .faultCode | .faultCode, .valid => true
  | _, _ => flag

/-- The detail of MIRROR_MISMATCH: the difference, or 0 when one end gave a fault code (R30). -/
def mismatchDetail (a b : Reading) : Nat :=
  match replyKind a, replyKind b with
  | .valid, .valid => endDifference a b
  | _, _ => 0

/-- The mirror-mismatch flag of a detector is written (R30). -/
def takeMismatch (s : State) (n : Fin 192) (a b : Reading) : State :=
  match s.detector n with
  | none => s
  | some d =>
    let flag := mismatchAfter d.mismatch a b
    let s1 := s.putDetector n (some { d with mismatch := flag })
    if flag && !d.mismatch then appendDetector s1 .mirrorMismatch n d.zone (.number (mismatchDetail a b)) else s1

/-- A loop in LINE_FAULT returns to RUNNING at a valid reply (R27). A mirrored pair appends one entry, naming its lower
loop. (DEDUCED, log entry 33.) -/
def clearLineFault (s : State) (u : ScanUnit) (r : Reading) : State :=
  if (s.loop u.head).state = .lineFault && decide (replyKind r = .valid) then
    appendLoop (modUnit s u fun x => { x with state := .running }) .loopLineFaultCleared u.head .none
  else s

/-! ### Scan end (R26, R27, R31) -/

/-- Whether every poll of a scan gave NO_REPLY, at both ends (R27). -/
def allSilent (polls : List PollNote) : Bool :=
  polls.all fun p => decide (p.endA = .noReply) && decide (p.endB = .noReply)

/-- The line-fault judgment (R27), with one entry for a mirrored pair. (DEDUCED, log entry 33.) -/
def judgeLineFault (s : State) (u : ScanUnit) (polls : List PollNote) : State :=
  if (s.loop u.head).state = .running && !polls.isEmpty && allSilent polls then
    appendLoop (modUnit s u fun x => { x with state := .lineFault }) .loopLineFault u.head .none
  else s

/-- The tail of a scan: the run of polls at its end in which end A gave NO_REPLY (R31). -/
def scanTail (polls : List PollNote) : List PollNote :=
  ((polls.reverse).takeWhile fun p => decide (p.endA = .noReply)).reverse

/-- The break a mirrored scan finds (R31). -/
def breakFound (polls : List PollNote) : Option (Fin 48) :=
  ((scanTail polls).find? fun p => decide (replyKind p.endB = .valid)).map fun p => p.slot

/-- The clearing condition: end A replied validly wherever end B did, in a scan in which some end answered
somewhere (R31). -/
def breakClears (polls : List PollNote) : Bool :=
  !allSilent polls && polls.all fun p => decide (replyKind p.endB ≠ .valid) || decide (replyKind p.endA = .valid)

/-- The break judgment of a mirrored scan (R31), with one entry for the pair. (DEDUCED, log entry 33.) -/
def judgeBreak (s : State) (u : ScanUnit) (polls : List PollNote) : State :=
  let recorded := (s.loop u.head).breakPosition
  match breakFound polls with
  | some k =>
    if recorded = some k then s
    else
      appendLoop (modUnit s u fun x => { x with breakPosition := some k }) .loopBreak u.head (.number k.val)
  | none =>
    if breakClears polls && recorded.isSome then
      appendLoop (modUnit s u fun x => { x with breakPosition := none }) .loopBreakCleared u.head .none
    else s

/-- A scan ends after its last poll: the judgments, then the converters are freed and handed on (R26).
(DEDUCED, log entry 18.) -/
def endScan (s : State) (u : ScanUnit) (polls : List PollNote) : State :=
  let s1 := modUnit s u fun x => { x with scan := none }
  let s2 := judgeLineFault s1 u polls
  let s3 := match u with
    | .pair _ => judgeBreak s2 u polls
    | .loop _ => s2
  arbitrate (releaseConverters s3 u)

/-- The scan moves on to its next slot, or ends (R25). -/
def moveOn (s : State) (u : ScanUnit) (sc : Scan) (note : PollNote) : State :=
  let polls := sc.polls ++ [note]
  match enabledSlot (s.scanLists.get u.head) (sc.slot.val + 1) with
  | some k => modUnit s u fun x => { x with scan := some { slot := k, polls := polls } }
  | none => endScan s u polls

/-- A poll of an independent loop's scan completes (R25). -/
def completePoll (s : State) (l : Fin 4) (sc : Scan) (r : Reading) : State :=
  let u := ScanUnit.loop l
  let s1 := match detectorPolled s l sc.slot with
    | some n => takeReading s n r
    | none => s
  moveOn (clearLineFault s1 u r) u sc { slot := sc.slot, endA := r, endB := .noReply }

/-- Both polls of a mirrored slot complete (R29, R30). -/
def completeMirrored (s : State) (p : Fin 2) (sc : Scan) (a b : Reading) : State :=
  let u := ScanUnit.pair p
  let r := combineEnds a b
  let s1 := match detectorPolled s (lowerLoop p) sc.slot with
    | some n => takeReading (takeMismatch s n a b) n r
    | none => s
  moveOn (clearLineFault s1 u r) u sc { slot := sc.slot, endA := a, endB := b }

/-! ### Restarts (R32, R37, R38) -/

/-- The loops that a restart of a loop reaches: both loops of a pair whose mode or pending mode is MIRRORED
(R32). -/
def restartReach (s : State) (l : Fin 4) : List (Fin 4) :=
  if (s.loop l).mode = .mirrored ∨ (s.loop l).pendingMode = some .mirrored then
    [lowerLoop (pairOf l), upperLoop (pairOf l)]
  else [l]

/-- A scan in progress is abandoned, and the converters held or kept are freed (R32). The last scan start time stays.
(DEDUCED, log entry 41.) -/
def abandonScan (s : State) (l : Fin 4) : State :=
  let s1 := releaseConverters s (unitOf s l)
  s1.modLoop l fun r => { r with scan := none, due := false, intervalTimer := none }

/-- A pending mode is taken (R21, R32): a MIRRORED mode marks the loop in use, and a change to INDEPENDENT
clears the break position. -/
def Loop.takePending (r : Loop) : Loop :=
  match r.pendingMode with
  | none => r
  | some .mirrored => { r with mode := .mirrored, pendingMode := none, inUse := true }
  | some .independent =>
    { r with
      mode := .independent, pendingMode := none
      breakPosition := match r.mode with | .mirrored => none | .independent => r.breakPosition }

/-- The upper loop's record of a mirrored pair with the fields that the pair has in common, which are those of its
lower loop (R28). -/
def Loop.joined (lower upper : Loop) : Loop :=
  { upper with
    state := lower.state, power := lower.power, scan := lower.scan, due := lower.due, lastStart := lower.lastStart
    breakPosition := lower.breakPosition }

/-- A loop's record with the pair's common fields where it is the upper loop of a mirrored pair (R28). -/
def pairRecord (s : State) (l : Fin 4) : Loop :=
  if isMirroredUpper s l then Loop.joined (s.loop (lowerLoop (pairOf l))) (s.loop l) else s.loop l

/-- The upper loop of a mirrored pair takes the pair's common fields (R28); another loop stays as it is. -/
def joinPair (s : State) (l : Fin 4) : State := s.modLoop l fun _ => pairRecord s l

/-- A loop enters RESTARTING in phase POWER_OFF (R32, R38). -/
def Loop.powerDown (r : Loop) : Loop :=
  { r with state := .restarting .powerOff Config.powerOffSeconds, power := false }

/-- The restart of several loops, with a LOOP_RESTART entry for each (R32, R33), the detectors taken by rising
number (DESIGN CHOICE, log entry 35). A pair that is mirrored now goes on with the common fields of its lower loop,
the last scan start time among them (R28; DEDUCED, log entry 20). -/
def restartLoops (s : State) (ls : List (Fin 4)) : State :=
  let s1 := ls.foldl abandonScan s
  let s2 := ls.foldl joinPair (ls.foldl (fun t l => t.modLoop l fun r => r.takePending.powerDown) s1)
  let s3 := (s2.detectors.indices fun _ d =>
    match d with
    | some d => ls.contains d.loop
    | none => false).foldl restartDetector s2
  let s4 := ls.foldl (fun t l => appendLoop t .loopRestart l (.loopMode (t.loop l).mode)) s3
  arbitrate s4

/-- The power-off phase of a unit ends: power on, SETTLE with the settle period in force (R34), for a mirrored pair
that of its lower loop. (DEDUCED, log entry 33.) -/
def powerUp (s : State) (l : Fin 4) : State :=
  let u := unitOf s l
  let t := (s.loop u.head).settlePeriod
  modUnit s u fun r => { r with state := .restarting .settle t, power := true }

/-- A loop record at ENTER CONFIGURATION (R37). -/
def Loop.configured (r : Loop) : Loop :=
  { r.takePending with
    state := .off, power := false, scan := none, due := false, intervalTimer := none, lastStart := none
    breakPosition := none }

/-- A loop record at START and RESTART (R38). -/
def Loop.started (r : Loop) : Loop :=
  let r1 := { r.takePending with
    scan := none, due := false, intervalTimer := none, lastStart := none, breakPosition := none }
  if r1.inUse then r1.powerDown else { r1 with state := .off, power := false }

end Sys2Proof.Machine
end

