-- ==== Sys2Proof/Machine/Clock.lean ====
section
/-! DEFINITION. The tick of the seconds counter (4.3): it has no row of the opcode table, and is what a step does
when no command waits. Every running timer counts one second down, and the expiries of the timers that now stand
at 0 are put in the queue (DESIGN CHOICE, log entries 2 and 5). -/

set_option autoImplicit false

namespace Sys2Proof.Machine

/-- A running timer after one second. -/
def countDown (t : Option Nat) : Option Nat := t.map fun n => n - 1

def Port.tick (p : Port) : Port :=
  match p.link with
  | .connected n => { p with link := .connected (n - 1) }
  | .disconnected => p

def LoopState.tick : LoopState → LoopState
  | .restarting phase n => .restarting phase (n - 1)
  | .off => .off
  | .running => .running
  | .lineFault => .lineFault

def Loop.tick (r : Loop) : Loop := { r with state := r.state.tick, intervalTimer := countDown r.intervalTimer }

def DetectorState.tick : DetectorState → DetectorState
  | .verifying n => .verifying (n - 1)
  | .unmonitored => .unmonitored
  | .normal => .normal
  | .preAlarm => .preAlarm
  | .alarm => .alarm
  | .fault k => .fault k
  | .disabled => .disabled

def Detector.tick (d : Detector) : Detector := { d with state := d.state.tick }

def Security.tick : Security → Security
  | .exitDelay n => .exitDelay (n - 1)
  | .disarmed => .disarmed
  | .armed => .armed
  | .suspended origin => .suspended origin
  | .breach => .breach

def Zone.tick (r : Zone) : Zone :=
  { r with testTimer := countDown r.testTimer, vacancyTimer := countDown r.vacancyTimer, security := r.security.tick }

def Stage.tick : Stage → Stage
  | .ackWait n => .ackWait (n - 1)
  | .investigate n => .investigate (n - 1)
  | .standby => .standby
  | .evacuate => .evacuate

def Wing.tick (r : Wing) : Wing := { r with stage := r.stage.tick, spreadTimer := countDown r.spreadTimer }

def Grant.tick : Grant → Grant
  | .counting n => .counting (n - 1)
  | .opened => .opened

def Door.tick (d : Door) : Door :=
  { d with
    rex := d.rex.map Grant.tick, pass := d.pass.map Grant.tick, heldTimer := countDown d.heldTimer
    notClosedTimer := countDown d.notClosedTimer }

def CallPhase.tick : CallPhase → CallPhase
  | .offered k n => .offered k (n - 1)
  | .raised => .raised
  | .accepted k => .accepted k

def HelpCall.tick (h : HelpCall) : HelpCall := { h with phase := h.phase.tick }

def PointState.tick : PointState → PointState
  | .active h => .active h.tick
  | .idle => .idle
  | .latched => .latched

def CallPoint.tick (p : CallPoint) : CallPoint := { p with state := p.state.tick }

def Ports.tick (p : Ports) : Ports :=
  { fire := p.fire.tick, guard := p.guard.tick, services := p.services.tick }

/-- The records one second on. -/
def countSecond (s : State) : State :=
  { s with
    seconds := s.seconds + 1
    ports := s.ports.tick
    loops := s.loops.map Loop.tick
    detectors := s.detectors.map fun d => d.map Detector.tick
    zones := s.zones.map Zone.tick
    wings := s.wings.map Wing.tick
    doors := s.doors.map Door.tick
    points := s.points.map CallPoint.tick }

/-! ### The expiries of a tick -/

def Port.due (st : Station) (p : Port) : List Instr :=
  if p.link = .connected 0 then [.linkSilenceExpiry st] else []

/-- The expiries of a loop; a mirrored pair's are those of its lower loop (R28). -/
def Loop.dueEvents (l : Fin 4) (r : Loop) : List Instr :=
  if r.mode = .mirrored ∧ 2 ≤ l.val then []
  else
    (if r.state = .restarting .powerOff 0 then [.powerOffExpiry l] else [])
      ++ (if r.state = .restarting .settle 0 then [.settleExpiry l] else [])
      ++ (if r.intervalTimer = some 0 then [.intervalTimerExpiry l] else [])

def detectorDue (n : Fin 192) (d : Option Detector) : List Instr :=
  match d with
  | some d => if d.state = .verifying 0 then [.verifyTimerExpiry n] else []
  | none => []

def Zone.due (z : Fin 64) (r : Zone) : List Instr :=
  (if r.testTimer = some 0 then [.testTimerExpiry z] else [])
    ++ (if r.vacancyTimer = some 0 then [.vacancyTimerExpiry z] else [])
    ++ (if r.security = .exitDelay 0 then [.exitDelayExpiry z] else [])

def Wing.due (w : Fin 4) (r : Wing) : List Instr :=
  (if r.stage = .ackWait 0 ∨ r.stage = .investigate 0 then [.stageTimerExpiry w] else [])
    ++ (if r.spreadTimer = some 0 then [.spreadTimerExpiry w] else [])

def Door.due (n : Fin 48) (d : Door) : List Instr :=
  (if d.rex = some (.counting 0) then [.rexGrantExpiry n] else [])
    ++ (if d.pass = some (.counting 0) then [.passGrantExpiry n] else [])
    ++ (if d.heldTimer = some 0 then [.heldTimerExpiry n] else [])
    ++ (if d.notClosedTimer = some 0 then [.notClosedTimerExpiry n] else [])

def CallPoint.due (c : Fin 64) (p : CallPoint) : List Instr :=
  match p.state with
  | .active h =>
    match h.phase with
    | .offered _ 0 => [.offerTimerExpiry c]
    | .offered _ (_ + 1) | .raised | .accepted _ => []
  | .idle | .latched => []

/-- What the records of a table add to the queue, by number. -/
def dueOf {n : Nat} {α : Type} (t : Tbl n α) (f : Fin n → α → List Instr) : List Instr :=
  (List.zip (List.finRange n) t.rows).flatMap fun x => f x.1 x.2

/-- The expiries of the timers that stand at 0, block by block and by number. -/
def dueEvents (s : State) : List Instr :=
  s.ports.fire.due .fire ++ s.ports.guard.due .guard ++ s.ports.services.due .services
    ++ dueOf s.loops Loop.dueEvents ++ dueOf s.detectors detectorDue ++ dueOf s.zones Zone.due
    ++ dueOf s.wings Wing.due ++ dueOf s.doors Door.due ++ dueOf s.points CallPoint.due

/-- One tick of the seconds counter, with no command waiting. -/
def tick (s : State) : State :=
  let s1 := countSecond s
  { s1 with pending := dueEvents s1, fieldOut := [], stationOut := [] }

end Sys2Proof.Machine
end

