-- ==== Sys2Proof/Decode.lean ====
section
/-! DEFINITION. The words of the commands: `decodeTableWord` for the rows of the opcode table that give bits
(none does), and the request bodies of section 11.6, decoded and encoded. The manual gives the code of every
request, the order of its operands and their widths; the numbers of the enumerated values and the layout of
the WRITE ENTRY fields it leaves to the reader, and the model's choice of them is log entry 3. -/

set_option autoImplicit false

namespace Sys2Proof

/-- The command that a word spells by the table's bits. No row of spec/opcode_table.json gives bits: the
commands arrive in frames (11.6) or as events, so no word spells one. -/
def decodeTableWord (_nbits _w : Nat) : Option Instr := none

/-! ### Numbers and enumerated values on the wire -/

/-- A two-byte quantity, high byte first (11.6). -/
def wide (h l : Byte) : Nat := h.toNat * 256 + l.toNat

/-- The byte of a one-byte quantity. -/
def byteOf (n : Nat) : Byte := BitVec.ofNat 8 n

/-- The two bytes of a two-byte quantity, high byte first (11.6). -/
def wideOf (n : Nat) : List Byte := [byteOf (n / 256), byteOf (n % 256)]

/-- The four bytes of a four-byte quantity, high byte first (11.6). -/
def longOf (n : Nat) : List Byte := wideOf (n / 65536) ++ wideOf (n % 65536)

/-- A one-byte quantity whose absence is sent as all ones (11.6). -/
def optionalByte (b : Byte) : Option Nat := if b.toNat = 255 then none else some b.toNat

/-- The byte of a quantity that may be absent. -/
def byteOfOption (x : Option Nat) : Byte :=
  match x with
  | some n => byteOf n
  | none => byteOf 255

/-- A two-byte quantity whose absence is sent as all ones (11.6). -/
def optionalWide (h l : Byte) : Option Nat := if wide h l = 65535 then none else some (wide h l)

/-- The bytes of a two-byte quantity that may be absent. -/
def wideOfOption (x : Option Nat) : List Byte :=
  match x with
  | some n => wideOf n
  | none => wideOf 65535

/-- The value an enumerated byte names in the list of its set, none outside it. -/
def valueOf {α : Type} (set : List α) (b : Byte) : Option α := set[b.toNat]?

/-- The byte of an enumerated value; a value outside the set is sent as all ones. -/
def codeOf {α : Type} [DecidableEq α] (set : List α) (x : Option α) : Byte :=
  match x with
  | some a => byteOf (set.idxOf a)
  | none => byteOf 255

def modeSet : List Mode := [.openHours, .closed, .night]
def loopModeSet : List LoopMode := [.independent, .mirrored]
def stationSet : List Station := [.fire, .guard, .services]
def groupSet : List Group := [.fire, .fault, .security, .door, .call, .route, .output, .system]
def categorySet : List Category := [.guard, .service]
def classKindSet : List ClassKind := [.smoke, .heat]
def doorKindSet : List DoorKind := [.secureEgress, .store, .fireHold]
def failModeSet : List FailMode := [.failSafe, .failSecure]
def pointKindSet : List PointKind := [.help, .fire]
def arrowSet : List Arrow := [.left, .right, .ahead, .back]
def polaritySet : List Polarity := [.normal, .inverted]
def sourceSet : List ActivitySource := [.presence, .passage, .call, .patrol]
def classSet : List ActivityClass := [.primary, .secondary, .ignored]
def switchSet : List Bool := [false, true]

/-- The set of stations a byte names: bit 0 the fire station, bit 1 the guard station and bit 2 the services station;
none when a bit outside the three is set. (DESIGN CHOICE, log entry 55.) -/
def stationsOf (b : Byte) : Option StationSet :=
  if b.toNat < 8 then
    some { fire := b.getLsbD 0, guard := b.getLsbD 1, services := b.getLsbD 2 }
  else none

/-- The byte of a set of stations. -/
def byteOfStations (x : Option StationSet) : Byte :=
  match x with
  | some s => byteOf ((if s.fire then 1 else 0) + (if s.guard then 2 else 0) + (if s.services then 4 else 0))
  | none => byteOf 255

/-- An activity class as a two-byte setting value. -/
def activityClassOf (h l : Byte) : Option ActivityClass := if h.toNat = 0 then valueOf classSet l else none

/-- The bytes of an activity class as a setting value. -/
def bytesOfClass (x : Option ActivityClass) : List Byte :=
  match x with
  | some c => [byteOf 0, codeOf classSet (some c)]
  | none => [byteOf 255, byteOf 255]

/-- A loop mode as a two-byte setting value. -/
def loopModeOf (h l : Byte) : Option LoopMode := if h.toNat = 0 then valueOf loopModeSet l else none

/-- The bytes of a loop mode as a setting value. -/
def bytesOfLoopMode (x : Option LoopMode) : List Byte :=
  match x with
  | some m => [byteOf 0, codeOf loopModeSet (some m)]
  | none => [byteOf 255, byteOf 255]

/-! ### Decoding a request body -/

/-- What a request body spells. `badSwitch` is a TEST ZONE whose on-or-off byte is neither, and `badTable` a
WRITE ENTRY whose table is outside the fourteen: their codes and operands are there, and the value is
refused after the checks before it (R169, R171). -/
inductive Spelled
  | row (i : Instr)
  | unknown
  | badSwitch (zone : Nat)
  | badTable
  deriving DecidableEq, Repr

/-- The row of a command, where its operands are whole. -/
def Spelled.ofOption : Option Instr → Spelled
  | some i => .row i
  | none => .unknown

def decodeDoorSideB (kind zone : Byte) : SideFields :=
  if kind.toNat = 0 then .zone zone.toNat else if kind.toNat = 1 then .outside else .other

def decodeInner (b : Byte) : InnerFields :=
  if b.toNat = 255 then .absent else if b.toNat = 0 then .sideA else if b.toNat = 1 then .sideB else .other

def decodeArrow (b : Byte) : ArrowFields :=
  if b.toNat = 255 then .absent
  else match valueOf arrowSet b with
    | some a => .arrow a
    | none => .other

/-- A run of routes, three bytes each. -/
def decodeRoutes : List Byte → Option (List RouteFields)
  | [] => some []
  | h :: l :: e :: rest => (decodeRoutes rest).map fun r => { head := wide h l, exit := e.toNat } :: r
  | _ => none

/-- The index and the fields of a WRITE ENTRY, by its table in the order R171 lists them. The fields stand in the
order of their rules, but a list of varying length stands last: in a wing entry the evacuation desk stands before
the spread list. (DESIGN CHOICE, log entry 3.) -/
def decodeEntry (table : Nat) (ops : List Byte) : Spelled :=
  match table, ops with
  | 0, [z, u] => if u.toNat = 0 then .row (.writeEntryZone z.toNat .unconfigured) else .unknown
  | 0, [z, c, w] => if c.toNat = 1 then .row (.writeEntryZone z.toNat (.configured w.toNat)) else .unknown
  | 1, w :: m :: st :: k :: spread =>
    .ofOption ((valueOf switchSet st).map fun st =>
      .writeEntryWing w.toNat
        { initialMode := valueOf modeSet m, staged := st, spreadList := spread.map fun b => b.toNat
          evacDesk := optionalByte k })
  | 2, [c, k, p1, p0, a1, a0, s1, s0, n1, n0, g1, g0, t, l1, l0, h1, h0, f1, f0, v1, v0] =>
    .row (.writeEntryClass c.toNat
      { kind := valueOf classKindSet k, preAlarm := wide p1 p0, alarm := wide a1 a0, riseStep := wide s1 s0
        riseCount := wide n1 n0, night := wide g1 g0, tracking := valueOf switchSet t, bmin := wide l1 l0
        bmax := wide h1 h0, fixedBaseline := wide f1 f0, window := optionalWide v1 v0 })
  | 3, [d, u] => if u.toNat = 0 then .row (.writeEntryDetector d.toNat .removed) else .unknown
  | 3, [d, c, l, a, z, k] =>
    if c.toNat = 1 then .row (.writeEntryDetector d.toNat (.placed l.toNat a.toNat z.toNat k.toNat)) else .unknown
  | 4, [l, u, m] =>
    .ofOption ((valueOf switchSet u).map fun u => .writeEntryLoop l.toNat u (valueOf loopModeSet m))
  | 5, [l, k, e] => if e.toNat = 0 then .row (.writeEntryScanList l.toNat k.toNat .endMark) else .unknown
  | 5, [l, k, c, a, e] =>
    if c.toNat = 1 then
      .ofOption ((valueOf switchSet e).map fun e => .writeEntryScanList l.toNat k.toNat (.address a.toNat e))
    else .unknown
  | 6, [d, u] => if u.toNat = 0 then .row (.writeEntryDoor d.toNat .unconfigured) else .unknown
  | 6, [d, c, a, bk, bz, k, f, o, i] =>
    if c.toNat = 1 then
      .ofOption ((valueOf switchSet o).map fun o =>
        .writeEntryDoor d.toNat
          (.configured a.toNat (decodeDoorSideB bk bz) (valueOf doorKindSet k) (valueOf failModeSet f) o
            (decodeInner i)))
    else .unknown
  | 7, c :: u :: rest =>
    if u.toNat = 0 then
      match rest with
      | [] => .row (.writeEntryCallPoint c.toNat .unconfigured)
      | _ => .unknown
    else if u.toNat = 1 then
      match rest with
      | z :: k :: desks =>
        .row (.writeEntryCallPoint c.toNat
          (.configured z.toNat (valueOf pointKindSet k) (desks.map fun b => b.toNat)))
      | _ => .unknown
    else .unknown
  | 8, [d, o, c1, c0, t1, t0] =>
    .row (.writeEntryDesk d.toNat { owner := valueOf stationSet o, capacity := wide c1 c0, tOffer := wide t1 t0 })
  | 9, [e, u] => if u.toNat = 0 then .row (.writeEntryExit e.toNat .unconfigured) else .unknown
  | 9, [e, c, z, d] =>
    if c.toNat = 1 then .row (.writeEntryExit e.toNat (.configured z.toNat (optionalByte d))) else .unknown
  | 10, [i1, i0, z, g, a, l] =>
    .ofOption ((valueOf switchSet l).map fun l =>
      .writeEntryDescriptor (wide i1 i0)
        { zone := z.toNat, sign := optionalByte g, arrow := decodeArrow a, lastStep := l })
  | 11, z :: routes => .ofOption ((decodeRoutes routes).map fun r => .writeEntryRouteList z.toNat r)
  | 12, [g, z] => .row (.writeEntrySign g.toNat z.toNat)
  | 13, [c1, c0, p] => .row (.writeEntryChannel (wide c1 c0) (valueOf polaritySet p))
  | t, _ => if t < 14 then .unknown else .badTable

/-- A WRITE SETTING, by the kind of its record: wing, zone, loop, door, call point, desk, routing table or
authority map. A record kind or a setting number outside its set spells no command, and is BAD_VALUE by check 1 of
R169, before the object and the authority (DEDUCED, log entry 7). A routing carries its set of stations as one byte and
the byte of the by-desk mark, whatever its group (DESIGN CHOICE, log entry 55). -/
def decodeSetting (ops : List Byte) : Spelled :=
  match ops with
  | [r, n, k, h, l] =>
    match r.toNat, k.toNat with
    | 0, 0 => .row (.writeSettingZoneWing (.tAck n.toNat (wide h l)))
    | 0, 1 => .row (.writeSettingZoneWing (.tInv n.toNat (wide h l)))
    | 0, 2 => .row (.writeSettingZoneWing (.tSpread n.toNat (wide h l)))
    | 0, 3 => .row (.writeSettingZoneWing (.exitDelay n.toNat (wide h l)))
    | 1, 0 => .row (.writeSettingZoneWing (.vacancyPeriod n.toNat (wide h l)))
    | 1, 1 => .row (.writeSettingZoneWing (.activityClass n.toNat .presence (activityClassOf h l)))
    | 1, 2 => .row (.writeSettingZoneWing (.activityClass n.toNat .passage (activityClassOf h l)))
    | 1, 3 => .row (.writeSettingZoneWing (.activityClass n.toNat .call (activityClassOf h l)))
    | 1, 4 => .row (.writeSettingZoneWing (.activityClass n.toNat .patrol (activityClassOf h l)))
    | 2, 0 => .row (.writeSettingLoop n.toNat (.scanInterval (wide h l)))
    | 2, 1 => .row (.writeSettingLoop n.toNat (.settlePeriod (wide h l)))
    | 2, 2 => .row (.writeSettingLoop n.toNat (.mode (loopModeOf h l)))
    | 3, 0 => .row (.writeSettingDoor n.toNat (.tPass (wide h l)))
    | 3, 1 => .row (.writeSettingDoor n.toNat (.tHeld (wide h l)))
    | 4, 0 => .row (.writeSettingDeskList n.toNat [h.toNat, l.toNat])
    | 5, 0 => .row (.writeSettingTOffer n.toNat (wide h l))
    | 7, _ =>
      .ofOption ((valueOf switchSet l).map fun g =>
        .writeSettingAuthority (valueOf stationSet n) k.toNat (valueOf categorySet h) g)
    | _, _ => .unknown
  | [r, g, s, b] =>
    if r.toNat = 6 then
      .ofOption ((valueOf switchSet b).map fun b =>
        .writeSettingRouting (valueOf groupSet g) (stationsOf s) b)
    else if r.toNat = 4 ∧ s.toNat = 0 then .row (.writeSettingDeskList g.toNat [b.toNat])
    else .unknown
  | r :: n :: k :: desks =>
    if r.toNat = 4 ∧ k.toNat = 0 then .row (.writeSettingDeskList n.toNat (desks.map fun b => b.toNat))
    else .unknown
  | _ => .unknown

/-- What a command body spells: the code byte and exactly its operands (11.6, R169 check 1). -/
def decodeCommand (body : List Byte) : Spelled :=
  match body with
  | [] => .unknown
  | code :: ops =>
    match code.toNat, ops with
    | 0x10, [a] => .row (.acknowledgeWing a.toNat)
    | 0x11, [a] => .row (.evacuateWing a.toNat)
    | 0x15, [a] => .row (.manualAlarmZone a.toNat)
    | 0x16, [a] => .row (.markExitBlocked a.toNat)
    | 0x17, [a] => .row (.markExitOpen a.toNat)
    | 0x18, [a] => .row (.disableDetector a.toNat)
    | 0x19, [a] => .row (.enableDetector a.toNat)
    | 0x1A, [a] => .row (.restartLoop a.toNat)
    | 0x21, [a] => .row (.armZone a.toNat)
    | 0x22, [a] => .row (.disarmZone a.toNat)
    | 0x24, [a] => .row (.passDoor a.toNat)
    | 0x25, [a] => .row (.lockdownWing a.toNat)
    | 0x26, [a] => .row (.endLockdown a.toNat)
    | 0x27, [a] => .row (.reportPatrol a.toNat)
    | 0x31, [a] => .row (.clearCall a.toNat)
    | 0x12, [a, h, l] => .row (.silenceWing a.toNat (h ++ l))
    | 0x13, [a, h, l] => .row (.resetZone a.toNat (h ++ l))
    | 0x14, [a, h, l] => .row (.resetWing a.toNat (h ++ l))
    | 0x23, [a, h, l] => .row (.clearBreach a.toNat (h ++ l))
    | 0x1B, [] => .row .start
    | 0x1C, [] => .row .restart
    | 0x1D, [] => .row .enterConfiguration
    | 0x20, [w, m] => .row (.setWingMode w.toNat (valueOf modeSet m))
    | 0x28, [z, x] => match valueOf switchSet x with
      | some true => .row (.testZoneOn z.toNat)
      | some false => .row (.testZoneOff z.toNat)
      | none => .badSwitch z.toNat
    | 0x29, [f1, f0, c1, c0] => .row (.holdChannels (wide f1 f0) (wide c1 c0))
    | 0x2A, [f1, f0, c1, c0] => .row (.freeChannels (wide f1 f0) (wide c1 c0))
    | 0x2B, [f1, f0, c1, c0] => .row (.releaseDrive (wide f1 f0) (wide c1 c0))
    | 0x2C, [f1, f0, c1, c0] => .row (.restoreDrive (wide f1 f0) (wide c1 c0))
    | 0x30, [p, d] => .row (.acceptCall p.toNat d.toNat)
    | 0x32, [d, c1, c0] => .row (.setDeskCapacity d.toNat (wide c1 c0))
    | 0x33, t :: rest => decodeEntry t.toNat rest
    | 0x34, rest => decodeSetting rest
    | _, _ => .unknown

/-- What a query body spells (11.6, R167). -/
def decodeQuery (body : List Byte) : Spelled :=
  match body with
  | [] => .unknown
  | code :: ops =>
    match code.toNat, ops with
    | 0x40, [] => .row .status
    | 0x41, [a] => .row (.readZone a.toNat)
    | 0x42, [a] => .row (.readWing a.toNat)
    | 0x43, [a] => .row (.readDetector a.toNat)
    | 0x44, [a] => .row (.readLoop a.toNat)
    | 0x45, [a] => .row (.readDoor a.toNat)
    | 0x47, [a] => .row (.readCallPoint a.toNat)
    | 0x48, [a] => .row (.readRoute a.toNat)
    | 0x49, [a] => .row (.readExit a.toNat)
    | 0x46, [] => .row .readCallQueue
    | 0x4A, [h, l] => .row (.readChannel (wide h l))
    | 0x4B, [a, b, c, d, h, l] => .row (.readLog (wide a b * 65536 + wide c d) (wide h l))
    | _, _ => .unknown

/-! ### Encoding a request body -/

def encodeInner : InnerFields → Byte
  | .absent => byteOf 255
  | .sideA => byteOf 0
  | .sideB => byteOf 1
  | .other => byteOf 2

def encodeSideB : SideFields → List Byte
  | .zone z => [byteOf 0, byteOf z]
  | .outside => [byteOf 1, byteOf 255]
  | .other => [byteOf 2, byteOf 255]

def encodeArrow : ArrowFields → Byte
  | .absent => byteOf 255
  | .arrow a => codeOf arrowSet (some a)
  | .other => byteOf 4

/-- The routes of a route-list entry, three bytes each. -/
def encodeRoutes (routes : List RouteFields) : List Byte :=
  routes.flatMap fun r => wideOf r.head ++ [byteOf r.exit]

/-- A setting value with its record kind, record number and setting. -/
def settingBody (kind number setting : Nat) (value : List Byte) : List Byte :=
  [byteOf 0x34, byteOf kind, byteOf number, byteOf setting] ++ value

/-- The body of a request (11.6): its code and its operands. A command of the field or of the part itself has
no body. -/
def encodeRequest : Instr → List Byte
  | .acknowledgeWing a => byteOf 0x10 :: ([byteOf a])
  | .evacuateWing a => byteOf 0x11 :: ([byteOf a])
  | .manualAlarmZone a => byteOf 0x15 :: ([byteOf a])
  | .markExitBlocked a => byteOf 0x16 :: ([byteOf a])
  | .markExitOpen a => byteOf 0x17 :: ([byteOf a])
  | .disableDetector a => byteOf 0x18 :: ([byteOf a])
  | .enableDetector a => byteOf 0x19 :: ([byteOf a])
  | .restartLoop a => byteOf 0x1A :: ([byteOf a])
  | .armZone a => byteOf 0x21 :: ([byteOf a])
  | .disarmZone a => byteOf 0x22 :: ([byteOf a])
  | .passDoor a => byteOf 0x24 :: ([byteOf a])
  | .lockdownWing a => byteOf 0x25 :: ([byteOf a])
  | .endLockdown a => byteOf 0x26 :: ([byteOf a])
  | .reportPatrol a => byteOf 0x27 :: ([byteOf a])
  | .clearCall a => byteOf 0x31 :: ([byteOf a])
  | .silenceWing a r => byteOf 0x12 :: (byteOf a :: wideOf r.toNat)
  | .resetZone a r => byteOf 0x13 :: (byteOf a :: wideOf r.toNat)
  | .resetWing a r => byteOf 0x14 :: (byteOf a :: wideOf r.toNat)
  | .clearBreach a r => byteOf 0x23 :: (byteOf a :: wideOf r.toNat)
  | .start => byteOf 0x1B :: ([])
  | .restart => byteOf 0x1C :: ([])
  | .enterConfiguration => byteOf 0x1D :: ([])
  | .setWingMode w m => byteOf 0x20 :: ([byteOf w, codeOf modeSet m])
  | .testZoneOn z => byteOf 0x28 :: ([byteOf z, byteOf 1])
  | .testZoneOff z => byteOf 0x28 :: ([byteOf z, byteOf 0])
  | .holdChannels f c => byteOf 0x29 :: (wideOf f ++ wideOf c)
  | .freeChannels f c => byteOf 0x2A :: (wideOf f ++ wideOf c)
  | .releaseDrive f c => byteOf 0x2B :: (wideOf f ++ wideOf c)
  | .restoreDrive f c => byteOf 0x2C :: (wideOf f ++ wideOf c)
  | .acceptCall p d => byteOf 0x30 :: ([byteOf p, byteOf d])
  | .setDeskCapacity d c => byteOf 0x32 :: (byteOf d :: wideOf c)
  | .writeEntryZone z .unconfigured => byteOf 0x33 :: byteOf 0 :: ([byteOf z, byteOf 0])
  | .writeEntryZone z (.configured w) => byteOf 0x33 :: byteOf 0 :: ([byteOf z, byteOf 1, byteOf w])
  | .writeEntryWing w f => byteOf 0x33 :: byteOf 1 :: ([byteOf w, codeOf modeSet f.initialMode, codeOf switchSet (some f.staged), byteOfOption f.evacDesk]
      ++ f.spreadList.map byteOf)
  | .writeEntryClass c f => byteOf 0x33 :: byteOf 2 :: ([byteOf c, codeOf classKindSet f.kind] ++ wideOf f.preAlarm ++ wideOf f.alarm ++ wideOf f.riseStep
      ++ wideOf f.riseCount ++ wideOf f.night ++ [codeOf switchSet f.tracking] ++ wideOf f.bmin ++ wideOf f.bmax
      ++ wideOf f.fixedBaseline ++ wideOfOption f.window)
  | .writeEntryDetector d .removed => byteOf 0x33 :: byteOf 3 :: ([byteOf d, byteOf 0])
  | .writeEntryDetector d (.placed l a z c) => byteOf 0x33 :: byteOf 3 :: ([byteOf d, byteOf 1, byteOf l, byteOf a, byteOf z, byteOf c])
  | .writeEntryLoop l u m => byteOf 0x33 :: byteOf 4 :: ([byteOf l, codeOf switchSet (some u), codeOf loopModeSet m])
  | .writeEntryScanList l k .endMark => byteOf 0x33 :: byteOf 5 :: ([byteOf l, byteOf k, byteOf 0])
  | .writeEntryScanList l k (.address a e) => byteOf 0x33 :: byteOf 5 :: ([byteOf l, byteOf k, byteOf 1, byteOf a, codeOf switchSet (some e)])
  | .writeEntryDoor d .unconfigured => byteOf 0x33 :: byteOf 6 :: ([byteOf d, byteOf 0])
  | .writeEntryDoor d (.configured a b k f o i) => byteOf 0x33 :: byteOf 6 :: ([byteOf d, byteOf 1, byteOf a] ++ encodeSideB b ++ [codeOf doorKindSet k, codeOf failModeSet f,
      codeOf switchSet (some o), encodeInner i])
  | .writeEntryCallPoint c .unconfigured => byteOf 0x33 :: byteOf 7 :: ([byteOf c, byteOf 0])
  | .writeEntryCallPoint c (.configured z k desks) => byteOf 0x33 :: byteOf 7 :: ([byteOf c, byteOf 1, byteOf z, codeOf pointKindSet k] ++ desks.map byteOf)
  | .writeEntryDesk d f => byteOf 0x33 :: byteOf 8 :: ([byteOf d, codeOf stationSet f.owner] ++ wideOf f.capacity ++ wideOf f.tOffer)
  | .writeEntryExit e .unconfigured => byteOf 0x33 :: byteOf 9 :: ([byteOf e, byteOf 0])
  | .writeEntryExit e (.configured z d) => byteOf 0x33 :: byteOf 9 :: ([byteOf e, byteOf 1, byteOf z, byteOfOption d])
  | .writeEntryDescriptor i f => byteOf 0x33 :: byteOf 10 :: (wideOf i ++ [byteOf f.zone, byteOfOption f.sign, encodeArrow f.arrow, codeOf switchSet (some f.lastStep)])
  | .writeEntryRouteList z r => byteOf 0x33 :: byteOf 11 :: (byteOf z :: encodeRoutes r)
  | .writeEntrySign g z => byteOf 0x33 :: byteOf 12 :: ([byteOf g, byteOf z])
  | .writeEntryChannel c p => byteOf 0x33 :: byteOf 13 :: (wideOf c ++ [codeOf polaritySet p])
  | .writeSettingZoneWing (.tAck w v) => settingBody 0 w 0 (wideOf v)
  | .writeSettingZoneWing (.tInv w v) => settingBody 0 w 1 (wideOf v)
  | .writeSettingZoneWing (.tSpread w v) => settingBody 0 w 2 (wideOf v)
  | .writeSettingZoneWing (.exitDelay w v) => settingBody 0 w 3 (wideOf v)
  | .writeSettingZoneWing (.vacancyPeriod z v) => settingBody 1 z 0 (wideOf v)
  | .writeSettingZoneWing (.activityClass z src c) => settingBody 1 z (sourceSet.idxOf src + 1) (bytesOfClass c)
  | .writeSettingLoop l (.scanInterval v) => settingBody 2 l 0 (wideOf v)
  | .writeSettingLoop l (.settlePeriod v) => settingBody 2 l 1 (wideOf v)
  | .writeSettingLoop l (.mode m) => settingBody 2 l 2 (bytesOfLoopMode m)
  | .writeSettingDoor d (.tPass v) => settingBody 3 d 0 (wideOf v)
  | .writeSettingDoor d (.tHeld v) => settingBody 3 d 1 (wideOf v)
  | .writeSettingDeskList c desks => settingBody 4 c 0 (desks.map byteOf)
  | .writeSettingTOffer d v => settingBody 5 d 0 (wideOf v)
  | .writeSettingRouting g s b => [byteOf 0x34, byteOf 6, codeOf groupSet g, byteOfStations s, codeOf switchSet (some b)]
  | .writeSettingAuthority st w c g => [byteOf 0x34, byteOf 7, codeOf stationSet st, byteOf w, codeOf categorySet c, codeOf switchSet (some g)]
  | .status => byteOf 0x40 :: ([])
  | .readZone a => byteOf 0x41 :: ([byteOf a])
  | .readWing a => byteOf 0x42 :: ([byteOf a])
  | .readDetector a => byteOf 0x43 :: ([byteOf a])
  | .readLoop a => byteOf 0x44 :: ([byteOf a])
  | .readDoor a => byteOf 0x45 :: ([byteOf a])
  | .readCallPoint a => byteOf 0x47 :: ([byteOf a])
  | .readRoute a => byteOf 0x48 :: ([byteOf a])
  | .readExit a => byteOf 0x49 :: ([byteOf a])
  | .readCallQueue => byteOf 0x46 :: ([])
  | .readChannel c => byteOf 0x4A :: (wideOf c)
  | .readLog f c => byteOf 0x4B :: (longOf f ++ wideOf c)
  | .powerOn | .frameReceived _ _ | .transmissionEnd _ | .linkSilenceExpiry _
  | .intervalTimerExpiry _ | .pollComplete _ _ | .mirroredPollComplete _ _ _ | .powerOffExpiry _
  | .settleExpiry _ | .verifyTimerExpiry _ | .testTimerExpiry _ | .stageTimerExpiry _
  | .spreadTimerExpiry _ | .presenceInput _ | .vacancyTimerExpiry _ | .exitDelayExpiry _
  | .contactInput _ _ | .heldTimerExpiry _ | .notClosedTimerExpiry _ | .rexPress _
  | .rexGrantExpiry _ | .passGrantExpiry _ | .callPointInput _ _ | .offerTimerExpiry _
  | .selectionPassEnd | .channelLineReport _ _ => []

end Sys2Proof
end

