-- ==== Sys2Proof/Machine/DoorControl.lean ====
section
/-! DEFINITION. The Door Controller (chapter 6): contact supervision, faults, grants, and what an event
leaves of the doors whose inputs it changed. -/

set_option autoImplicit false

namespace Sys2Proof.Machine

/-- An opening's effect on a grant: it becomes OPENED and its timer stops (R97). -/
def Grant.onOpening : Option Grant → Option Grant
  | some _ => some .opened
  | none => none

/-- A closing's effect on a grant: one that is OPENED ends (R98). One that still counts, which a contact that became OPEN
inside FAULT leaves, goes on counting. (DEDUCED, log entry 59.) -/
def Grant.onClosing : Option Grant → Option Grant
  | some .opened => none
  | g => g

/-- A grant loaded by a REX press or a pass (R106, R107): OPENED at once when the contact is OPEN, left
OPENED when it is so already, and otherwise counting T_pass. R106 leaves an OPENED grant OPENED at a press; that a pass
does so too is a reading. (DEDUCED, log entry 21.) -/
def Grant.load (contact : Contact) (tPass : Nat) (g : Option Grant) : Option Grant :=
  match contact, g with
  | .opened, _ => some .opened
  | _, some .opened => some .opened
  | _, _ => some (.counting tPass)

/-- The held timer a door loads on entry into OPEN_AUTHORISED (R97): lockable doors only. -/
def Door.heldLoad (d : Door) : Option Nat := if d.lockable then some d.tHeld else none

/-- A door event is handed to the PAU for side A and then side B (R88). -/
def handDoorEvent (s : State) (n : Fin 48) (source : BreachSource) : State :=
  (s.door n).sides.foldl (fun t z => takeDoorEvent t z source) s

/-- A passage is handed to the PAU for side A and then side B (R81). -/
def handPassage (s : State) (n : Fin 48) : State := takeActivities s (s.door n).sides .passage

/-- A door opens (R97). The source handed to the PAU is DOOR_OPENED with right and DOOR_FORCED without. (DEDUCED, log
entry 60: R88 does not say which of the two a forced opening has.) -/
def openDoor (s : State) (n : Fin 48) : State :=
  let d := s.door n
  let opened := { d with contact := .opened, rex := Grant.onOpening d.rex, pass := Grant.onOpening d.pass }
  if d.withRight (s.channel (doorChannel n)).effective then
    let s1 := s.modDoor n fun _ => { opened with status := .openAuthorised, heldTimer := d.heldLoad }
    handDoorEvent s1 n (.doorOpened n)
  else
    let s1 := s.modDoor n fun _ => { opened with status := .forced }
    handDoorEvent (appendDoor s1 .doorForced n (.forcedCause .opened)) n (.doorForced n)

/-- The record of a door whose contact is CLOSED again (R98, R100). The status is set by the effective value
as it stands; where the event changes that value, the end of the event sets it again. The not-closed reported flag clears on
leaving FAULT with the contact CLOSED, whichever of contact and line fault changed last. (DEDUCED, log entry 58.) -/
def Door.closedRecord (effective : ChannelValue) (d : Door) : Door :=
  { d with
    contact := .closed, heldTimer := none, notClosedTimer := none, notClosedReported := false
    rex := Grant.onClosing d.rex, pass := Grant.onClosing d.pass
    status := closedStatus d.kind effective }

/-- A door closes (R98). -/
def closeDoor (s : State) (n : Fin 48) : State :=
  let d := s.door n
  let s1 := s.modDoor n (Door.closedRecord (s.channel (doorChannel n)).effective)
  match d.status with
  | .forced => appendDoor s1 .doorRestored n .none
  | .openAuthorised | .openHeld => handPassage s1 n
  | .closedLocked | .closedUnlocked | .fault => s1

/-- A door takes a fault: on the first it enters FAULT; a second one leaves the status (R100). Every fault sets the
fault reported flag. (DEDUCED, log entry 37.) -/
def faultDoor (s : State) (n : Fin 48) (cause : DoorFaultCause) : State :=
  appendDoor
    (s.modDoor n fun d => { d with status := .fault, heldTimer := none, faultReported := true })
    .doorFault n (.doorFaultCause cause)

/-- DOOR_FAULT_CLEARED is appended where the fault was reported (R100). -/
def clearFaultReport (s : State) (n : Fin 48) : State :=
  if (s.door n).faultReported then
    appendDoor (s.modDoor n fun d => { d with faultReported := false }) .doorFaultCleared n .none
  else s

/-- A door leaves FAULT, its status taken from what it finds (R100), the forced entry before the end of the fault (DEDUCED,
log entry 21). A grant that still counts is left counting, at an open contact too, where R100 says nothing of the grants.
(DEDUCED, log entry 59.) -/
def leaveFault (s : State) (n : Fin 48) : State :=
  let d := s.door n
  let effective := (s.channel (doorChannel n)).effective
  match d.contact with
  | .closed => clearFaultReport (s.modDoor n (Door.closedRecord effective)) n
  | .opened =>
    if d.withRight effective then
      clearFaultReport
        (s.modDoor n fun d => { d with status := .openAuthorised, heldTimer := d.heldLoad }) n
    else
      let s1 := appendDoor (s.modDoor n fun d => { d with status := .forced }) .doorForced n
        (.forcedCause .faultCleared)
      clearFaultReport (handDoorEvent s1 n (.doorForced n)) n
  | .lineFault => s

/-- A contact report recorded without an opening or a closing (R100): no grant is marked or ended. (DEDUCED, log entry 59:
for a counting grant and a contact that becomes OPEN.) -/
def recordContact (s : State) (n : Fin 48) (x : Contact) : State := s.modDoor n fun d => { d with contact := x }

/-- A change of a configured door's contact input, in service (R97, R98, R100). -/
def contactChange (s : State) (n : Fin 48) (x : Contact) : State :=
  match (s.door n).status, x with
  | .fault, .lineFault => faultDoor (recordContact s n x) n .contact
  | .fault, _ =>
    if (s.channel (doorChannel n)).lineFault then recordContact s n x
    else leaveFault (recordContact s n x) n
  | _, .lineFault => faultDoor (recordContact s n x) n .contact
  | _, .opened => openDoor s n
  | _, .closed => closeDoor s n

/-- A change of a configured door's channel line fault flag, in service (R100, R156). -/
def lineFaultChange (s : State) (n : Fin 48) (faulty : Bool) : State :=
  if faulty then faultDoor s n .channel
  else if (s.door n).status = .fault then leaveFault s n
  else s

/-- The status of a configured door is taken anew by the rule for CONFIGURING (R112). -/
def restDoor (s : State) (n : Fin 48) : State :=
  if (s.door n).configured then
    s.modDoor n fun d => { d with status := restingStatus d (s.channel (doorChannel n)) }
  else s

/-! ### The end of an event -/

/-- A door's value is computed anew and written to its record and its channel (R103). -/
def computeDoor (s : State) (n : Fin 48) : State :=
  let v := doorValue (doorInputs s n)
  writeSource (s.modDoor n fun d => { d with value := v.1, cause := v.2 }) (doorChannel n) v.1

/-- Every door whose precedence inputs the event changed is computed anew, from the state the whole event
leaves (R103). -/
def computeDoors (before s : State) : State :=
  (List.finRange 48).foldl
    (fun t n => if doorInputs before n = doorInputs s n then t else computeDoor t n) s

/-- A closed door takes the status that matches its channel's effective value, where the event changed the
value or closed the door (R98, R99). -/
def followEffective (before s : State) (n : Fin 48) : State :=
  let d := s.door n
  let c := s.channel (doorChannel n)
  if d.configured && d.status.isClosed
      && (decide ((before.channel (doorChannel n)).effective ≠ c.effective)
        || decide ((before.door n).status ≠ d.status)) then
    s.modDoor n fun d => { d with status := closedStatus d.kind c.effective }
  else s

/-- The not-closed timer of a door as the event leaves it: loaded when value CLOSE and contact OPEN newly hold together
(R105), also where the contact became OPEN without an opening, from LINE_FAULT or inside FAULT. (DEDUCED, log entry 58: R105
names the change of the value and an opening alone.) -/
def notClosedAfter (before after : Door) : Option Nat :=
  if after.expectedToClose then
    if before.expectedToClose || after.notClosedReported then after.notClosedTimer
    else some Config.notClosedSeconds
  else if before.expectedToClose then none
  else after.notClosedTimer

/-- The not-closed supervision of a door at the end of an event. -/
def superviseClosing (before s : State) (n : Fin 48) : State :=
  if notClosedAfter (before.door n) (s.door n) = (s.door n).notClosedTimer then s
  else s.modDoor n fun d => { d with notClosedTimer := notClosedAfter (before.door n) d }

/-- What an event leaves of the doors (R99, R103, R105). (DEDUCED, log entry 23.) -/
def settleDoors (before s : State) : State :=
  let s1 := computeDoors before s
  (List.finRange 48).foldl
    (fun t n => if t.inService then superviseClosing before (followEffective before t n) n
      else followEffective before t n) s1

/-! ### The resets -/

/-- A door record with every grant, timer, flag and claim of the runtime cleared (R112, R113). -/
def Door.cleared (d : Door) : Door :=
  { d with
    faultReported := false, rex := none, pass := none, heldTimer := none, notClosedTimer := none
    notClosedReported := false, claims := 0 }

/-- Every door computed anew, as a reset does. -/
def computeAllDoors (s : State) : State := (List.finRange 48).foldl computeDoor s

/-- The status of every configured door taken from its contact and its line fault flag (R112). -/
def restAllDoors (s : State) : State := (List.finRange 48).foldl restDoor s

/-- A door as START and RESTART leave it: an open one has its held timer loaded, and its not-closed timer
where it is expected to close (R113). -/
def Door.started (d : Door) : Door :=
  { d with
    heldTimer := if d.configured && decide (d.status = .openAuthorised) then d.heldLoad else none
    notClosedTimer := if d.expectedToClose then some Config.notClosedSeconds else none }

end Sys2Proof.Machine
end

