-- ==== Sys2Proof/Machine/RoutePass.lean ====
section
/-! DEFINITION. The Route Engine (chapter 8): the view of a pass, grading and selection, and what a pass end
writes. -/

set_option autoImplicit false

namespace Sys2Proof.Machine

/-- The view a pass takes (R137). -/
def takeView (s : State) : View :=
  { zones := s.zones.map fun z =>
      { configured := z.configured, fire := z.fire.name, unprotected := z.unprotected, egress := z.egress }
    exits := s.exits.map fun e => { state := e.state, stationBlocked := e.stationBlocked } }

/-- The path that begins at a descriptor index: the descriptors up to and including the first that carries
the last-step flag, at most `fuel` of them (R134). -/
def walkPath (t : Tbl 512 Descriptor) : Nat → Nat → Option (List Descriptor)
  | 0, _ => none
  | fuel + 1, h =>
    if hh : h < 512 then
      let d := t.get ⟨h, hh⟩
      if d.lastStep then some [d]
      else match walkPath t fuel (h + 1) with
        | some rest => some (d :: rest)
        | none => none
    else none

/-- The steps of a route; none when its path is not whole, which START refuses for a configured zone (R134). READ
ROUTE returns no steps of such a path. (DESIGN CHOICE, log entry 45.) -/
def routeSteps (s : State) (r : Route) : List Descriptor :=
  (walkPath s.descriptors Config.pathMax r.head.val).getD []

/-- The grade of a route of the given steps from a view (R135). -/
def gradeRoute (v : View) (exit : Fin 16) (steps : List Descriptor) : Grade :=
  let later := steps.tail.map fun d => v.zones.get d.zone
  if (v.exits.get exit).stationBlocked || (later.any fun z => decide (z.fire = .alarm)) then .blocked
  else if later.any fun z => decide (z.fire = .preAlarm) || z.unprotected then .passable
  else .clear

/-- A zone's route that a pass selected. -/
structure Selection where
  zone : Fin 64
  index : Nat
  grade : Grade
  exit : Fin 16
  steps : List Descriptor
  deriving DecidableEq, Repr

/-- Every route of a zone with its grade, in list order (R135). -/
def gradedRoutes (s : State) (v : View) (z : Fin 64) : List Selection :=
  ((s.routeLists.get z).zipIdx).map fun x =>
    let steps := routeSteps s x.1
    { zone := z, index := x.2, grade := gradeRoute v x.1.exit steps, exit := x.1.exit, steps := steps }

/-- The selection among graded routes: the first CLEAR, else the first PASSABLE (R136). -/
def selectAmong (routes : List Selection) : Option Selection :=
  match routes.find? fun r => decide (r.grade = .clear) with
  | some r => some r
  | none => routes.find? fun r => decide (r.grade = .passable)

/-- Whether a view gives a zone egress (R136); an unconfigured zone is not selected for (R2). -/
def View.leaves (v : View) (z : Fin 64) : Bool := (v.zones.get z).configured && (v.zones.get z).egress

/-- The graded routes of every zone with egress. -/
def gradedZones (s : State) (v : View) : List (Fin 64 × List Selection) :=
  (List.finRange 64).filterMap fun z => if v.leaves z then some (z, gradedRoutes s v z) else none

/-- The selected routes of a pass, ascending by zone. -/
def selections (graded : List (Fin 64 × List Selection)) : List Selection :=
  graded.filterMap fun x => selectAmong x.2

/-- A route index as the zone record holds it. -/
def routeIndex (n : Nat) : Option (Fin 4) := if h : n < 4 then some ⟨n, h⟩ else none

/-- A zone record after a pass (R136, R139). -/
def Zone.selectedRoute (graded : Option (List Selection)) (r : Zone) : Zone :=
  match graded with
  | none => { r with selected := none, grade := none, noRoute := false, routeGrades := [] }
  | some routes =>
    match selectAmong routes with
    | some x =>
      { r with
        selected := routeIndex x.index, grade := some x.grade, noRoute := false
        routeGrades := routes.map fun y => y.grade }
    | none =>
      { r with selected := none, grade := none, noRoute := true, routeGrades := routes.map fun y => y.grade }

/-- The graded routes of one zone, where it has egress. -/
def gradedOf (graded : List (Fin 64 × List Selection)) (z : Fin 64) : Option (List Selection) :=
  (graded.find? fun x => decide (x.1 = z)).map fun x => x.2

/-- The pass end writes one zone's selection, with its entry (R139). -/
def writeSelection (graded : List (Fin 64 × List Selection)) (s : State) (z : Fin 64) : State :=
  let old := s.zone z
  let new := Zone.selectedRoute (gradedOf graded z) old
  let s1 := s.modZone z fun _ => new
  match old.noRoute, new.noRoute, new.selected, new.grade with
  | false, true, _, _ => appendZone s1 .noRoute z .none
  | true, false, some i, some g => appendZone s1 .routeFound z (.route i g)
  | _, _, _, _ => s1

/-- The transit count of a zone (R140). -/
def transitCount (sel : List Selection) (z : Fin 64) : Nat :=
  sel.countP fun x => x.steps.tail.any fun d => decide (d.zone = z)

/-- A claim on a sign (R142). -/
structure SignClaim where
  zone : Fin 64
  arrow : Arrow
  remaining : Nat
  deriving DecidableEq, Repr

/-- The claim a step makes on a sign, where it names it; `remaining` steps follow it. -/
def stepClaim (g : Fin 96) (z : Fin 64) (d : Descriptor) (remaining : Nat) : Option SignClaim :=
  match d.sign with
  | some x => if x.sign = g then some { zone := z, arrow := x.arrow, remaining := remaining } else none
  | none => none

/-- The claim of a route on a sign, by the naming step with the fewest remaining steps (R142). -/
def routeClaim (g : Fin 96) (z : Fin 64) : List Descriptor → Option SignClaim
  | [] => none
  | d :: rest =>
    match routeClaim g z rest with
    | some c => some c
    | none => stepClaim g z d rest.length

/-- The winning claim: the fewest remaining steps, the lower zone of equals (R142). -/
def winningClaim : List SignClaim → Option SignClaim
  | [] => none
  | c :: rest =>
    match winningClaim rest with
    | none => some c
    | some d => if d.remaining < c.remaining then some d else some c

/-- The value a sign shows for an arrow. -/
def arrowValue (a : Arrow) : ChannelValue := .arrow a

/-- A sign settled from its claims (R142). -/
def Sign.settled (claims : List SignClaim) (noExit : Bool) (g : Sign) : Sign :=
  match winningClaim claims with
  | some c => { g with aspect := arrowValue c.arrow, claims := claims.length, winner := some c.zone }
  | none => { g with aspect := if noExit then .noExit else .exitSteady, claims := 0, winner := none }

/-- The pass end settles one sign (R142). -/
def writeSign (v : View) (sel : List Selection) (s : State) (g : Fin 96) : State :=
  let x := s.sign g
  if x.configured then
    let claims := sel.filterMap fun r => routeClaim g r.zone r.steps
    let new := Sign.settled claims (v.leaves x.home && (s.zone x.home).noRoute) x
    writeSource { s with signs := s.signs.set g new } (signChannel g) new.aspect
  else s

/-- The egress light of a zone after a pass (R143). -/
def lightAfter (v : View) (z : Fin 64) (r : Zone) : ChannelValue :=
  if r.configured && ((v.zones.get z).egress || decide (0 < r.transit)) then .on else .off

/-- Whether two consecutive steps lie one in each of two zones, in either order (R144). -/
def crosses (a b : Fin 64) : List Descriptor → Bool
  | d :: e :: rest =>
    (decide (d.zone = a) && decide (e.zone = b)) || (decide (d.zone = b) && decide (e.zone = a))
      || crosses a b (e :: rest)
  | _ => false

/-- Whether a selected route claims a door (R144). -/
def claimsDoor (s : State) (n : Fin 48) (r : Selection) : Bool :=
  (match (s.door n).sideB with
    | some b => crosses (s.door n).sideA b r.steps
    | none => false)
    || ((s.exit r.exit).configured && decide ((s.exit r.exit).door = some n))

/-- The claim count of a door (R144). -/
def claimCount (s : State) (v : View) (sel : List Selection) (n : Fin 48) : Nat :=
  let d := s.door n
  if d.configured then
    (if d.kind = .secureEgress ∧ (d.sides.any fun z => (v.zones.get z).egress) then 1 else 0)
      + sel.countP fun r => claimsDoor s n r
  else 0

/-- A door record with its egress claim count written (R110). -/
def Door.withClaims (d : Door) (n : Nat) : Door := { d with claims := n }

/-- A zone record with its transit count written (R140). -/
def Zone.withTransit (r : Zone) (n : Nat) : Zone := { r with transit := n }

/-- The outcome of a pass is written (R139, R140, R142, R143, R144, R110), and the PAU takes the transit
counts, ascending (R140). The engine becomes IDLE, or starts the repeat pass (R138). -/
def passEnd (s : State) (v : View) (again : Bool) : State :=
  let graded := gradedZones s v
  let sel := selections graded
  let s1 := (List.finRange 64).foldl (writeSelection graded) s
  let s2 := { s1 with zones := s1.zones.mapIdx fun z r => r.withTransit (transitCount sel z) }
  let s3 := (List.finRange 64).foldl takeTransit s2
  let s4 := (List.finRange 96).foldl (writeSign v sel) s3
  let s5 : State := (List.finRange 64).foldl
    (fun t z => writeSource t (lightChannel z) (lightAfter v z (t.zone z))) s4
  let s6 := { s5 with doors := s5.doors.mapIdx fun n (d : Door) => d.withClaims (claimCount s5 v sel n) }
  { s6 with engine := if again then .opening else .idle }

end Sys2Proof.Machine
end

