-- ==== Sys2Proof/Machine/EventEnd.lean ====
section
/-! DEFINITION. What every event ends with: the doors whose inputs it changed take their values and statuses
(R99, R103, R105), a selection pass it started takes its view (R137), a free transmitter starts to send
(R167), and the channel messages go out (R150). -/

set_option autoImplicit false

namespace Sys2Proof.Machine

/-- A pass started in the event takes its view from the state the event leaves (R137). -/
def openPass (s : State) : State :=
  match s.engine with
  | .opening => { s with engine := .passing (takeView s) false }
  | .idle | .passing _ _ => s

/-- A free transmitter sends the oldest pending reply, or the head of the notice queue (R167). -/
def Port.startSending (p : Port) : Port :=
  match p.sending with
  | some _ => p
  | none =>
    match p.replies, p.notices with
    | _ :: _, _ => { p with sending := some .reply }
    | [], _ :: _ => { p with sending := some .notice }
    | [], [] => p

/-- Every port's transmitter starts where it is free. -/
def startTransmitters (s : State) : State :=
  { s with
    ports :=
      { fire := s.ports.fire.startSending, guard := s.ports.guard.startSending
        services := s.ports.services.startSending } }

/-- The end of an event that began in `before` and has changed the records to `s`. -/
def endEvent (before s : State) : State :=
  let s1 := startTransmitters (openPass (settleDoors before s))
  { s1 with fieldOut := channelMessages before.channels s1.channels, stationOut := [] }

/-- The end of START and RESTART, whose resets have settled the doors themselves and which send a message of
every channel (R157). A fire call taken in the event is a trigger, so its pass starts here although R146 says that
none runs in the event. (DEDUCED, log entries 13 and 46.) -/
def endStart (s : State) : State :=
  let s1 := startTransmitters (openPass s)
  { s1 with fieldOut := allMessages s1.channels, stationOut := [] }

/-- The end of ENTER CONFIGURATION, whose reset has settled the doors itself. -/
def endReset (before s : State) : State :=
  let s1 := startTransmitters (openPass s)
  { s1 with fieldOut := channelMessages before.channels s1.channels, stationOut := [] }

end Sys2Proof.Machine
end

