-- ==== Sys2Proof/Machine/Executor.lean ====
section
/-! DEFINITION. The Command Executor and the query server (chapter 11): the choice of the port, the checks, the
verdict of the owning block, and the reply. -/

set_option autoImplicit false

namespace Sys2Proof.Machine

/-! ### Authority (R169, R170) -/

def Authority.of (a : Authority) (st : Station) (w : Fin 4) : Rights :=
  match st with
  | .fire => a.fire.get w
  | .guard => a.guard.get w
  | .services => a.services.get w

/-- The authority map with one station's rights on one wing written. -/
def Authority.put (a : Authority) (st : Station) (w : Fin 4) (r : Rights) : Authority :=
  match st with
  | .fire => { a with fire := a.fire.set w r }
  | .guard => { a with guard := a.guard.set w r }
  | .services => { a with services := a.services.set w r }

def holdsGuard (s : State) (st : Station) (w : Fin 4) : Bool := (s.authority.of st w).guard
def holdsService (s : State) (st : Station) (w : Fin 4) : Bool := (s.authority.of st w).service

/-- SERVICE on the wing, for a check that allows any of several wings. -/
def holdsServiceOnAny (s : State) (st : Station) (ws : List (Fin 4)) : Bool := ws.any fun w => holdsService s st w

/-- FIRE is held by the fire station alone (R169). -/
def holdsFire (st : Station) : Bool := decide (st = .fire)

/-- CONFIG is held by the fire station and the services station (R169, R171). -/
def holdsConfig (st : Station) : Bool := decide (st ≠ .guard)

/-! ### Verdicts -/

/-- What becomes of a command that is taken: a refusal with its code, which changes no record, or the state
its owner leaves with the code and data of the reply (R169). -/
inductive Verdict
  | refused (code : ReplyCode) (data : ReplyData)
  | taken (s : State) (code : ReplyCode) (data : ReplyData)
  deriving DecidableEq, Repr

/-- A taken command answered DONE. -/
def done (s : State) : Verdict := .taken s .done .none

/-- A taken command answered DONE, or DONE_ADJUSTED with the values applied where a value was clamped
(section 4.5). -/
def doneApplied (s : State) (given applied : List Nat) : Verdict :=
  if given = applied then done s else .taken s .doneAdjusted (.applied applied)

/-- A check that must hold; the first that fails gives the refusal (R169). -/
def need (ok : Bool) (code : ReplyCode) (k : Verdict) : Verdict := if ok then k else .refused code .none

/-- Check 2 for a runtime command (R169). -/
def inServiceOnly (s : State) (k : Verdict) : Verdict := need s.inService .notInService k

/-- Check 2 for WRITE ENTRY and START (R169). -/
def configuringOnly (s : State) (k : Verdict) : Verdict := need (!s.inService) .wrongState k

/-- An object number in range, or BAD_OBJECT (R169 check 3). -/
def onObject (n : Nat) (size : Nat) (k : Fin size → Verdict) : Verdict :=
  if h : n < size then k ⟨n, h⟩ else .refused .badObject .none

/-- An enumerated value inside its set, or BAD_VALUE (section 4.5). -/
def onValue {α : Type} (x : Option α) (k : α → Verdict) : Verdict :=
  match x with
  | some a => k a
  | none => .refused .badValue .none

/-- A configured zone, or BAD_OBJECT (R2). -/
def onZone (s : State) (n : Nat) (k : Fin 64 → Verdict) : Verdict :=
  onObject n 64 fun z => need (s.zone z).configured .badObject (k z)

/-- A configured door, or BAD_OBJECT (R95). -/
def onDoor (s : State) (n : Nat) (k : Fin 48 → Verdict) : Verdict :=
  onObject n 48 fun d => need (s.door d).configured .badObject (k d)

/-- A configured call point, or BAD_OBJECT (R114). -/
def onPoint (s : State) (n : Nat) (k : Fin 64 → Verdict) : Verdict :=
  onObject n 64 fun c => need (s.point c).configured .badObject (k c)

/-- A configured exit, or BAD_OBJECT (R131). -/
def onExit (s : State) (n : Nat) (k : Fin 16 → Verdict) : Verdict :=
  onObject n 16 fun e => need (s.exit e).configured .badObject (k e)

/-- A detector with a record, or BAD_OBJECT (R35). -/
def onDetector (s : State) (n : Nat) (k : Fin 192 → Detector → Verdict) : Verdict :=
  onObject n 192 fun d =>
    match s.detector d with
    | some x => k d x
    | none => .refused .badObject .none

/-- A loop in use, or BAD_OBJECT (R19). -/
def onLoop (s : State) (n : Nat) (k : Fin 4 → Verdict) : Verdict :=
  onObject n 4 fun l => need (s.loop l).inUse .badObject (k l)

/-- The revision comparison of R13. -/
def needRevision (s : State) (w : Fin 4) (r : Revision) (k : Verdict) : Verdict :=
  need (decide ((s.wing w).revision = r)) .staleView k

/-! ### The executor's choice (R168) -/

/-- Whether a port counts as holding a command (R167, R168). -/
def Port.holdsCommand (p : Port) : Bool := !p.commands.isEmpty && decide (p.replies.length < Config.replyMax)

/-- Whether a port counts as holding a query (R167). -/
def Port.holdsQuery (p : Port) : Bool := !p.queries.isEmpty && decide (p.replies.length < Config.replyMax)

/-- The stations in the cycle fire, guard, services, starting at one of them. -/
def cycleFrom (st : Station) : List Station := [st, st.after, st.after.after]

/-- A port chosen, with the rotation pointer and the fire burst count the choice leaves. -/
structure PortChoice where
  port : Station
  rotation : Station
  burst : Nat
  deriving DecidableEq, Repr

/-- The port the executor takes its next command from (R168). (DEDUCED, log entry 8.) -/
def choosePort (s : State) : Option PortChoice :=
  let others := s.ports.guard.holdsCommand || s.ports.services.holdsCommand
  if s.ports.fire.holdsCommand && decide (s.fireBurst < Config.fireBurstMax) then
    some { port := .fire, rotation := s.rotation, burst := if others then s.fireBurst + 1 else 0 }
  else
    ((cycleFrom s.rotation).find? fun st =>
      (s.port st).holdsCommand && !(decide (st = .fire) && decide (s.fireBurst = Config.fireBurstMax))).map
        fun st => { port := st, rotation := st.after, burst := 0 }

/-- A request taken from its queue, with the state the taking leaves. -/
structure TakenRequest where
  port : Station
  request : Request
  state : State
  deriving DecidableEq, Repr

/-- The command the executor takes next: it leaves its queue in the event that takes it (R167, R168). -/
def nextCommand (s : State) : Option TakenRequest :=
  match choosePort s with
  | none => none
  | some c =>
    match (s.port c.port).commands with
    | [] => none
    | r :: rest =>
      some
        { port := c.port, request := r
          state := { (s.modPort c.port fun p => { p with commands := rest }) with
            rotation := c.rotation, fireBurst := c.burst } }

/-- The query the query server answers next, in the cycle after the port last served (R167). -/
def nextQuery (s : State) : Option TakenRequest :=
  match (cycleFrom s.lastQuery.after).find? fun st => (s.port st).holdsQuery with
  | none => none
  | some st =>
    match (s.port st).queries with
    | [] => none
    | r :: rest =>
      some
        { port := st, request := r
          state := { (s.modPort st fun p => { p with queries := rest }) with lastQuery := st } }

/-! ### Replies (R167) -/

/-- A reply joins its port's pending replies. -/
def addReply (s : State) (st : Station) (r : Reply) : State :=
  s.modPort st fun p => { p with replies := p.replies ++ [r] }

/-- The reply to a request. -/
def replyTo (r : Request) (code : ReplyCode) (data : ReplyData) : Reply :=
  { tag := r.tag, request := r.body.head?, code := code, data := data }

/-- The state a verdict leaves, with its reply composed. -/
def applyVerdict (t : TakenRequest) : Verdict → State
  | .refused code data => addReply t.state t.port (replyTo t.request code data)
  | .taken s code data => addReply s t.port (replyTo t.request code data)

/-! ### Taking a command, answering a query -/

/-- The verdict on a body that spells no row, by R169 and R171. -/
def judgeUnspelled (s : State) (st : Station) : Spelled → Verdict
  | .badTable =>
    configuringOnly s (need (holdsConfig st) .notPermitted (.refused .badValue .none))
  | .badSwitch z =>
    inServiceOnly s (onZone s z fun z => need (holdsService s st (s.wingOf z)) .notPermitted
      (.refused .badValue .none))
  | .unknown | .row _ => .refused .badValue .none

/-- The event in which the executor takes the command `c`: it occurs when the command the executor takes next
spells `c`, and `act` is then the owner's verdict. A next command that spells no row is taken and refused in
the event. A next command that spells another row is not reached by this event, which then does not occur.
(DEDUCED, log entry 7.) -/
def runCommand (c : Instr) (act : Station → State → Verdict) (s : State) : Host.Outcome State Fault Refusal :=
  match nextCommand s with
  | none => .next s
  | some t =>
    match decodeCommand t.request.body with
    | .row i =>
      if i = c then .next (endEvent s (applyVerdict t (act t.port t.state))) else .next s
    | .unknown => .next (endEvent s (applyVerdict t (judgeUnspelled t.state t.port .unknown)))
    | .badSwitch z => .next (endEvent s (applyVerdict t (judgeUnspelled t.state t.port (.badSwitch z))))
    | .badTable => .next (endEvent s (applyVerdict t (judgeUnspelled t.state t.port .badTable)))

/-- The event in which the executor takes one of the three commands that reset the part; `close` is the end of
an event that resets, used where the command is taken. -/
def runReset (c : Instr) (act : Station → State → Verdict) (close : State → State → State) (s : State) :
    Host.Outcome State Fault Refusal :=
  match nextCommand s with
  | none => .next s
  | some t =>
    match decodeCommand t.request.body with
    | .row i =>
      if i = c then
        match act t.port t.state with
        | .taken x code data => .next (close s (applyVerdict t (.taken x code data)))
        | .refused code data => .next (endEvent s (applyVerdict t (.refused code data)))
      else .next s
    | .unknown => .next (endEvent s (applyVerdict t (judgeUnspelled t.state t.port .unknown)))
    | .badSwitch z => .next (endEvent s (applyVerdict t (judgeUnspelled t.state t.port (.badSwitch z))))
    | .badTable => .next (endEvent s (applyVerdict t (judgeUnspelled t.state t.port .badTable)))

/-- A query's answer: the code and the data of its reply. -/
structure Answer where
  code : ReplyCode
  data : ReplyData
  deriving DecidableEq, Repr

/-- A query answered DONE with its data. -/
def answered (data : ReplyData) : Answer := { code := .done, data := data }

/-- A query of an object number in its range, or BAD_OBJECT (R167). -/
def answerFor (n size : Nat) (k : Fin size → Answer) : Answer :=
  if h : n < size then k ⟨n, h⟩ else { code := .badObject, data := .none }

/-- The event in which the query server answers the query `c`: it occurs when the query it takes next spells
`c`. A next query that spells no query is answered BAD_VALUE in the event (R167). -/
def runQuery (c : Instr) (answer : State → Answer) (s : State) : Host.Outcome State Fault Refusal :=
  match nextQuery s with
  | none => .next s
  | some t =>
    match decodeQuery t.request.body with
    | .row i =>
      if i = c then
        .next (endEvent s (addReply t.state t.port
          (replyTo t.request (answer t.state).code (answer t.state).data)))
      else .next s
    | .unknown | .badSwitch _ | .badTable =>
      .next (endEvent s (addReply t.state t.port (replyTo t.request .badValue .none)))

end Sys2Proof.Machine
end

