-- ==== Sys2Proof/Machine/ConfigEntries.lean ====
section
/-! DEFINITION. WRITE ENTRY, one definition for each of the fourteen tables (R171): the owner's verdict on an
entry, and the event in which the executor takes it. Object numbers are judged before authority (R169), and
a refused entry leaves its record as it was. -/

set_option autoImplicit false

namespace Sys2Proof.Machine

/-- The object numbers of a list, each in its range, or BAD_OBJECT. (DEDUCED, log entry 9.) -/
def onObjects (ns : List Nat) (size : Nat) (k : List (Fin size) → Verdict) : Verdict :=
  match ns with
  | [] => k []
  | n :: rest => onObject n size fun x => onObjects rest size fun xs => k (x :: xs)

/-- An object number that may be absent, in its range where present. -/
def onOptional (n : Option Nat) (size : Nat) (k : Option (Fin size) → Verdict) : Verdict :=
  match n with
  | none => k none
  | some n => onObject n size fun x => k (some x)

/-- CONFIG authority (R171). (DEDUCED, log entry 9.) -/
def underConfig (st : Station) (k : Verdict) : Verdict := need (holdsConfig st) .notPermitted k

/-- Whether a list names no member twice. -/
def noneTwice {α : Type} [DecidableEq α] : List α → Bool
  | [] => true
  | x :: rest => !rest.contains x && noneTwice rest

/-- An entry of the zone table (R2). -/
def doWriteEntryZone (zone : Nat) (fields : ZoneFields) (st : Station) (s : State) : Verdict :=
  configuringOnly s (onObject zone 64 fun z =>
    match fields with
    | .unconfigured => underConfig st (done (s.modZone z fun r => { r with configured := false }))
    | .configured wing =>
      onObject wing 4 fun w =>
        underConfig st (done (s.modZone z fun r => { r with configured := true, wing := w })))

def execWriteEntryZone (zone : Nat) (fields : ZoneFields) (s : State) : Host.Outcome State Fault Refusal :=
  runCommand (.writeEntryZone zone fields) (doWriteEntryZone zone fields) s

/-- An entry of the wing table (R7). An evacuation desk given as absent, by the byte FF of section 11.6, leaves the
desk unset. (DEDUCED, log entry 49.) -/
def doWriteEntryWing (wing : Nat) (fields : WingFields) (st : Station) (s : State) : Verdict :=
  configuringOnly s (onObject wing 4 fun w =>
    onObjects fields.spreadList 4 fun spread =>
      onOptional fields.evacDesk 8 fun desk =>
        underConfig st (onValue fields.initialMode fun m =>
          need (!spread.contains w && noneTwice spread && decide (spread.length ≤ 3)) .badValue
            (done (s.modWing w fun r =>
              { r with initialMode := m, staged := fields.staged, spreadList := spread, evacDesk := desk }))))

def execWriteEntryWing (wing : Nat) (fields : WingFields) (s : State) : Host.Outcome State Fault Refusal :=
  runCommand (.writeEntryWing wing fields) (doWriteEntryWing wing fields) s

/-- The window an entry gives, or the default of its kind where it is omitted (R39). -/
def windowGiven (kind : ClassKind) : Option Nat → Nat
  | some n => n
  | none => match kind with
    | .smoke => 20
    | .heat => 0

/-- A class record as an entry gives it, each number clamped to its range (R39). -/
def classRecord (kind : ClassKind) (tracking : Bool) (f : ClassFields) : DetectorClass :=
  { configured := true, kind := kind, preAlarm := clamp 16 2031 f.preAlarm, alarm := clamp 32 2047 f.alarm
    riseStep := clamp 1 255 f.riseStep, riseCount := clamp 0 15 f.riseCount, night := clamp 0 255 f.night
    tracking := tracking, bmin := clamp 64 4031 f.bmin, bmax := clamp 64 4031 f.bmax
    fixedBaseline := clamp 64 4031 f.fixedBaseline, window := clamp 0 60 (windowGiven kind f.window) }

/-- The numbers of a class record, in the order of an entry. -/
def classNumbers (c : DetectorClass) : List Nat :=
  [c.preAlarm, c.alarm, c.riseStep, c.riseCount, c.night, c.bmin, c.bmax, c.fixedBaseline, c.window]

/-- The numbers an entry gives, in the same order. -/
def givenNumbers (kind : ClassKind) (f : ClassFields) : List Nat :=
  [f.preAlarm, f.alarm, f.riseStep, f.riseCount, f.night, f.bmin, f.bmax, f.fixedBaseline
    , windowGiven kind f.window]

/-- An entry of the class table (R39). -/
def doWriteEntryClass (cls : Nat) (fields : ClassFields) (st : Station) (s : State) : Verdict :=
  configuringOnly s (onObject cls 8 fun c => underConfig st
    (onValue fields.kind fun kind => onValue fields.tracking fun tracking =>
      doneApplied { s with classes := s.classes.set c (classRecord kind tracking fields) }
        (givenNumbers kind fields) (classNumbers (classRecord kind tracking fields))))

def execWriteEntryClass (cls : Nat) (fields : ClassFields) (s : State) : Host.Outcome State Fault Refusal :=
  runCommand (.writeEntryClass cls fields) (doWriteEntryClass cls fields) s

/-- A detector record as an entry creates it (R40). -/
def newDetector (loop : Fin 4) (address : Nat) (zone : Fin 64) (cls : Fin 8) (c : DetectorClass) : Detector :=
  { loop := loop, address := address, zone := zone, cls := cls, state := .unmonitored, missed := 0, validRun := 0
    baseline := 16 * c.fixedBaseline, level := none, riseRun := 0, compLimit := false, testArmed := none
    mismatch := false, waiting := none }

/-- The counts of a zone taken anew after a write to the detector table (R3, R15). -/
def recountZone (s : State) (z : Fin 64) : State := s.modZone z (recount s z)

/-- The counts of the zone a detector record named, taken anew. -/
def recountOld (old : Option Detector) (s : State) : State :=
  match old with
  | some d => recountZone s d.zone
  | none => s

/-- A detector record is removed (R40, R3, R15). -/
def removeDetector (s : State) (n : Fin 192) : State := recountOld (s.detector n) (s.putDetector n none)

/-- A detector record is created, or its configuration fields written (R40, R3, R15). -/
def placeDetector (s : State) (n : Fin 192) (loop : Fin 4) (address : Nat) (zone : Fin 64) (cls : Fin 8) : State :=
  let new := match s.detector n with
    | some d => { d with loop := loop, address := address, zone := zone, cls := cls }
    | none => newDetector loop address zone cls (s.cls cls)
  recountZone (recountOld (s.detector n) (s.putDetector n (some new))) zone

/-- An entry of the detector table (R40). -/
def doWriteEntryDetector (detector : Nat) (fields : DetectorFields) (st : Station) (s : State) : Verdict :=
  configuringOnly s (onObject detector 192 fun n =>
    match fields with
    | .removed => underConfig st (done (removeDetector s n))
    | .placed loop address zone cls =>
      onObject loop 4 fun l => onObject zone 64 fun z => onObject cls 8 fun c =>
        underConfig st (need (decide (1 ≤ address) && decide (address ≤ 48)) .badValue
          (done (placeDetector s n l address z c))))

def execWriteEntryDetector (detector : Nat) (fields : DetectorFields) (s : State) :
    Host.Outcome State Fault Refusal :=
  runCommand (.writeEntryDetector detector fields) (doWriteEntryDetector detector fields) s

/-- The mode of both loops of a loop's pair is written (R19). -/
def writePairMode (s : State) (l : Fin 4) (f : Loop → Loop) : State := (s.modLoop l f).modLoop (partnerOf l) f

/-- The mode of a loop is written as configuration writes it (R19): MIRRORED marks the pair in use, and
INDEPENDENT for a mirrored pair unmakes it. -/
def configureMode (s : State) (l : Fin 4) (m : LoopMode) : State :=
  match m, (s.loop l).mode with
  | .mirrored, _ => writePairMode s l fun r => { r with mode := .mirrored, inUse := true }
  | .independent, .mirrored => writePairMode s l fun r => { r with mode := .independent }
  | .independent, .independent => s

/-- An entry of the loop table (R19). -/
def doWriteEntryLoop (loop : Nat) (inUse : Bool) (mode : Option LoopMode) (st : Station) (s : State) : Verdict :=
  configuringOnly s (onObject loop 4 fun l => underConfig st
    (onValue mode fun m => need (decide (m = .independent) || decide (l.val < 2)) .badValue
      (if m = .independent ∧ (s.loop l).mode = .independent then
          done (s.modLoop l fun r => { r with inUse := inUse })
        else done (configureMode s l m))))

def execWriteEntryLoop (loop : Nat) (inUse : Bool) (mode : Option LoopMode) (s : State) :
    Host.Outcome State Fault Refusal :=
  runCommand (.writeEntryLoop loop inUse mode) (doWriteEntryLoop loop inUse mode) s

/-- An entry of the scan-list table (R20). -/
def doWriteEntryScanList (loop slot : Nat) (fields : SlotFields) (st : Station) (s : State) : Verdict :=
  configuringOnly s (onObject loop 4 fun l => onObject slot 48 fun k => underConfig st
    (match fields with
      | .endMark => done (s.putSlot l k .endMark)
      | .address a enabled =>
        need (decide (1 ≤ a) && decide (a ≤ 48)) .badValue (done (s.putSlot l k (.address a enabled)))))

def execWriteEntryScanList (loop slot : Nat) (fields : SlotFields) (s : State) :
    Host.Outcome State Fault Refusal :=
  runCommand (.writeEntryScanList loop slot fields) (doWriteEntryScanList loop slot fields) s

/-- Side B of a door as an entry names it: a zone in range, OUTSIDE, or a value outside the set (R95). -/
def onSideB (b : SideFields) (k : Option (Option (Fin 64)) → Verdict) : Verdict :=
  match b with
  | .zone z => onObject z 64 fun z => k (some (some z))
  | .outside => k (some none)
  | .other => k none

/-- The inner zone of a door as an entry of its kind may give it (R95). -/
def innerGiven (kind : DoorKind) (sideB : Option (Fin 64)) : InnerFields → Option (Option Side)
  | .absent => match kind with
    | .store => none
    | .secureEgress | .fireHold => some none
  | .sideA => match kind with
    | .store => some (some .sideA)
    | .secureEgress | .fireHold => none
  | .sideB => match kind with
    | .store => if sideB.isSome then some (some .sideB) else none
    | .secureEgress | .fireHold => none
  | .other => none

/-- An entry of the door table (R95). The status is taken by the rule for CONFIGURING (R112). -/
def doWriteEntryDoor (door : Nat) (fields : DoorFields) (st : Station) (s : State) : Verdict :=
  configuringOnly s (onObject door 48 fun n =>
    match fields with
    | .unconfigured => underConfig st (done (s.modDoor n fun d => { d with configured := false }))
    | .configured sideA sideB kind failMode free inner =>
      onObject sideA 64 fun a => onSideB sideB fun b =>
        underConfig st (onValue b fun b => onValue kind fun kind => onValue failMode fun failMode =>
          need (decide (b ≠ some a)) .badValue (onValue (innerGiven kind b inner) fun inner =>
            done (restDoor (s.modDoor n fun d =>
              { d with
                configured := true, sideA := a, sideB := b, kind := kind, failMode := failMode
                freeInOpenHours := free, inner := inner }) n))))

def execWriteEntryDoor (door : Nat) (fields : DoorFields) (s : State) : Host.Outcome State Fault Refusal :=
  runCommand (.writeEntryDoor door fields) (doWriteEntryDoor door fields) s

/-- Whether a desk list is one its kind of point may have (R114). -/
def deskListFits (kind : PointKind) (desks : List (Fin 8)) : Bool :=
  match kind with
  | .help => !desks.isEmpty && decide (desks.length ≤ 3) && noneTwice desks
  | .fire => desks.isEmpty

/-- An entry of the call point table (R114). -/
def doWriteEntryCallPoint (point : Nat) (fields : PointFields) (st : Station) (s : State) : Verdict :=
  configuringOnly s (onObject point 64 fun c =>
    match fields with
    | .unconfigured => underConfig st (done (s.modPoint c fun p => { p with configured := false }))
    | .configured zone kind desks =>
      onObject zone 64 fun z => onObjects desks 8 fun desks =>
        underConfig st (onValue kind fun kind => need (deskListFits kind desks) .badValue
          (done (s.modPoint c fun p =>
            { p with configured := true, zone := z, kind := kind, deskList := desks }))))

def execWriteEntryCallPoint (point : Nat) (fields : PointFields) (s : State) :
    Host.Outcome State Fault Refusal :=
  runCommand (.writeEntryCallPoint point fields) (doWriteEntryCallPoint point fields) s

/-- An entry of the desk table (R114). Where either number is clamped, DONE_ADJUSTED carries both as applied.
(DESIGN CHOICE, log entry 54.) -/
def doWriteEntryDesk (desk : Nat) (fields : DeskFields) (st : Station) (s : State) : Verdict :=
  configuringOnly s (onObject desk 8 fun k => underConfig st
    (onValue fields.owner fun owner =>
      doneApplied
        (s.modDesk k fun d =>
          { d with
            owner := some owner, capacity := clamp 1 4 fields.capacity, tOffer := clamp 10 120 fields.tOffer })
        [fields.capacity, fields.tOffer] [clamp 1 4 fields.capacity, clamp 10 120 fields.tOffer]))

def execWriteEntryDesk (desk : Nat) (fields : DeskFields) (s : State) : Host.Outcome State Fault Refusal :=
  runCommand (.writeEntryDesk desk fields) (doWriteEntryDesk desk fields) s

/-- An entry of the exit table (R131). -/
def doWriteEntryExit (exit : Nat) (fields : ExitFields) (st : Station) (s : State) : Verdict :=
  configuringOnly s (onObject exit 16 fun e =>
    match fields with
    | .unconfigured => underConfig st (done (s.modExit e fun r => { r with configured := false }))
    | .configured zone door =>
      onObject zone 64 fun z => onOptional door 48 fun door =>
        underConfig st (done (s.modExit e fun r =>
          { r with
            configured := true, zone := z, door := door
            state := exitState (s.zone z).fire.inAlarm r.stationBlocked })))

def execWriteEntryExit (exit : Nat) (fields : ExitFields) (s : State) : Host.Outcome State Fault Refusal :=
  runCommand (.writeEntryExit exit fields) (doWriteEntryExit exit fields) s

/-- The sign of a descriptor with its aspect, as an entry gives them: none is a value outside the set, or a
sign without an aspect (R133). (DESIGN CHOICE, log entry 28.) -/
def stepSignGiven (sign : Option (Fin 96)) : ArrowFields → Option (Option StepSign)
  | .other => none
  | .absent => match sign with
    | some _ => none
    | none => some none
  | .arrow a => match sign with
    | some g => some (some { sign := g, arrow := a })
    | none => some none

/-- An entry of the descriptor table (R133). -/
def doWriteEntryDescriptor (index : Nat) (fields : DescriptorFields) (st : Station) (s : State) : Verdict :=
  configuringOnly s (onObject index 512 fun i => onObject fields.zone 64 fun z =>
    onOptional fields.sign 96 fun sign =>
      underConfig st (onValue (stepSignGiven sign fields.arrow) fun sign =>
        done { s with
          descriptors := s.descriptors.set i { zone := z, sign := sign, lastStep := fields.lastStep } }))

def execWriteEntryDescriptor (index : Nat) (fields : DescriptorFields) (s : State) :
    Host.Outcome State Fault Refusal :=
  runCommand (.writeEntryDescriptor index fields) (doWriteEntryDescriptor index fields) s

/-- The routes of an entry, every head and exit in range, or BAD_OBJECT (R133). -/
def onRoutes (rs : List RouteFields) (k : List Route → Verdict) : Verdict :=
  match rs with
  | [] => k []
  | r :: rest =>
    onObject r.head 512 fun h => onObject r.exit 16 fun e =>
      onRoutes rest fun xs => k ({ head := h, exit := e } :: xs)

/-- An entry of the route-list table (R133). -/
def doWriteEntryRouteList (zone : Nat) (routes : List RouteFields) (st : Station) (s : State) : Verdict :=
  configuringOnly s (onObject zone 64 fun z => onRoutes routes fun routes =>
    underConfig st (need (decide (routes.length ≤ Config.routesMax)) .badValue
      (done { s with routeLists := s.routeLists.set z routes })))

def execWriteEntryRouteList (zone : Nat) (routes : List RouteFields) (s : State) :
    Host.Outcome State Fault Refusal :=
  runCommand (.writeEntryRouteList zone routes) (doWriteEntryRouteList zone routes) s

/-- An entry of the sign table (R141). -/
def doWriteEntrySign (sign zone : Nat) (st : Station) (s : State) : Verdict :=
  configuringOnly s (onObject sign 96 fun g => onObject zone 64 fun z =>
    underConfig st (done { s with
      signs := s.signs.modify g fun r => { r with configured := true, home := z } }))

def execWriteEntrySign (sign zone : Nat) (s : State) : Host.Outcome State Fault Refusal :=
  runCommand (.writeEntrySign sign zone) (doWriteEntrySign sign zone) s

/-- Whether a kind of channel has a polarity (R148). -/
def ChannelKind.hasPolarity : ChannelKind → Bool
  | .door | .light => true
  | .sign | .lamp | .sounder => false

/-- An entry of the channel table (R148). -/
def doWriteEntryChannel (channel : Nat) (polarity : Option Polarity) (st : Station) (s : State) : Verdict :=
  configuringOnly s (onObject channel 276 fun n => underConfig st
    (onValue polarity fun p => need ((channelKind n).hasPolarity || decide (p = .normal)) .badValue
      (done (s.modChannel n fun c => { c with polarity := p }))))

def execWriteEntryChannel (channel : Nat) (polarity : Option Polarity) (s : State) :
    Host.Outcome State Fault Refusal :=
  runCommand (.writeEntryChannel channel polarity) (doWriteEntryChannel channel polarity) s

end Sys2Proof.Machine
end

