-- ==== Sys2Proof/Machine/FieldEvents.lean ====
section
/-! DEFINITION. The part's own events and the field's inputs: timer expiries, polls, presence, contacts,
request-to-exit presses, call points, the end of a selection pass and line reports. An event whose occasion a
state does not hold (its timer has not run out, no poll is under way) does not occur in that state. -/

set_option autoImplicit false

namespace Sys2Proof.Machine

/-- An event that occurs when `ok` holds and then leaves the records at `after`. (DEDUCED, log entry 4.) -/
def occursWhen (ok : Bool) (before after : State) : Host.Outcome State Fault Refusal :=
  if ok then .next (endEvent before after) else .next before

/-! ### The detector loops -/

/-- INTERVAL TIMER EXPIRY (R22, R23). -/
def execIntervalTimerExpiry (loop : Fin 4) (s : State) : Host.Outcome State Fault Refusal :=
  occursWhen (decide ((s.loop loop).intervalTimer = some 0) && (s.loop loop).state.scans) s (arbitrate s)

/-- POLL COMPLETE (R25). -/
def execPollComplete (loop : Fin 4) (reply : Reading) (s : State) : Host.Outcome State Fault Refusal :=
  match (s.loop loop).mode, (s.loop loop).scan with
  | .independent, some sc => .next (endEvent s (offerAfterEvacuation s (completePoll s loop sc reply)))
  | _, _ => .next s

/-- MIRRORED POLL COMPLETE (R29). -/
def execMirroredPollComplete (pair : Fin 2) (endA endB : Reading) (s : State) : Host.Outcome State Fault Refusal :=
  match (s.loop (lowerLoop pair)).mode, (s.loop (lowerLoop pair)).scan with
  | .mirrored, some sc => .next (endEvent s (offerAfterEvacuation s (completeMirrored s pair sc endA endB)))
  | _, _ => .next s

/-- POWER OFF EXPIRY (R34). -/
def execPowerOffExpiry (loop : Fin 4) (s : State) : Host.Outcome State Fault Refusal :=
  occursWhen (decide ((s.loop loop).state = .restarting .powerOff 0)) s (powerUp s loop)

/-- SETTLE EXPIRY (R34, R23). -/
def execSettleExpiry (loop : Fin 4) (s : State) : Host.Outcome State Fault Refusal :=
  occursWhen (decide ((s.loop loop).state = .restarting .settle 0)) s (arbitrate s)

/-! ### Timers of detectors, zones and wings -/

/-- VERIFY TIMER EXPIRY (R48). -/
def execVerifyTimerExpiry (detector : Fin 192) (s : State) : Host.Outcome State Fault Refusal :=
  match s.detector detector with
  | some d => occursWhen (decide (d.state = .verifying 0)) s (offerAfterEvacuation s (verifyExpires s detector d))
  | none => .next s

/-- TEST TIMER EXPIRY (R55). -/
def execTestTimerExpiry (zone : Fin 64) (s : State) : Host.Outcome State Fault Refusal :=
  occursWhen (decide ((s.zone zone).testTimer = some 0)) s (endTest .timeout s zone)

/-- STAGE TIMER EXPIRY (R66). -/
def execStageTimerExpiry (wing : Fin 4) (s : State) : Host.Outcome State Fault Refusal :=
  match (s.wing wing).stage with
  | .ackWait 0 => .next (endEvent s (offeringRound (enterEvacuate s wing .ackTimeout)))
  | .investigate 0 => .next (endEvent s (offeringRound (enterEvacuate s wing .invTimeout)))
  | .ackWait (_ + 1) | .investigate (_ + 1) | .standby | .evacuate => .next s

/-- A wing's spread timer has run out (R74). -/
def spread (s : State) (w : Fin 4) : State :=
  ((spreadOf s w).filter fun v => s.atStandby v).foldl (fun t v => enterEvacuate t v .spread)
    (s.modWing w fun r => { r with spreadTimer := none })

/-- SPREAD TIMER EXPIRY (R74). -/
def execSpreadTimerExpiry (wing : Fin 4) (s : State) : Host.Outcome State Fault Refusal :=
  occursWhen (decide ((s.wing wing).spreadTimer = some 0)) s (offerAfterEvacuation s (spread s wing))

/-! ### Presence and arming -/

/-- PRESENCE INPUT (R81, R83). One for an unconfigured zone is discarded, and so is one in CONFIGURING (R94). -/
def execPresenceInput (zone : Fin 64) (s : State) : Host.Outcome State Fault Refusal :=
  occursWhen (s.inService && (s.zone zone).configured) s (takeActivity s zone .presence)

/-- A zone becomes VACANT (R84). -/
def Zone.vacated (r : Zone) : Zone := { r with occupancy := .vacant, vacancyTimer := none }

/-- VACANCY TIMER EXPIRY (R84). -/
def execVacancyTimerExpiry (zone : Fin 64) (s : State) : Host.Outcome State Fault Refusal :=
  occursWhen (decide ((s.zone zone).vacancyTimer = some 0)) s (s.modZone zone Zone.vacated)

/-- EXIT DELAY EXPIRY (R86). -/
def execExitDelayExpiry (zone : Fin 64) (s : State) : Host.Outcome State Fault Refusal :=
  occursWhen (decide ((s.zone zone).security = .exitDelay 0)) s
    (appendZone (setSecurity s zone .armed) .zoneArmed zone .none)

/-! ### Doors -/

/-- CONTACT INPUT (R97, R98, R100): a report of a configured door that changes its contact. In CONFIGURING it is
recorded and the status follows (R112). -/
def execContactInput (door : Fin 48) (report : Contact) (s : State) : Host.Outcome State Fault Refusal :=
  occursWhen ((s.door door).configured && decide ((s.door door).contact ≠ report)) s
    (if s.inService then contactChange s door report else restDoor (recordContact s door report) door)

/-- Whether a held timer that runs out finds the door held (R101). -/
def holdsOpen (s : State) (n : Fin 48) : Bool :=
  decide ((s.wing (s.doorWing n)).mode ≠ .openHours) && decide ((s.door n).claims = 0) && !s.evacuating (s.doorWing n)

/-- A door's held timer has run out (R101). -/
def heldExpires (s : State) (n : Fin 48) : State :=
  if holdsOpen s n then
    appendDoor (s.modDoor n fun d => { d with status := .openHeld, heldTimer := none }) .doorHeld n
      (.number (s.door n).tHeld)
  else s.modDoor n fun d => { d with heldTimer := some d.tHeld }

/-- HELD TIMER EXPIRY (R101). -/
def execHeldTimerExpiry (door : Fin 48) (s : State) : Host.Outcome State Fault Refusal :=
  occursWhen (decide ((s.door door).heldTimer = some 0) && decide ((s.door door).status = .openAuthorised)) s
    (heldExpires s door)

/-- NOT CLOSED TIMER EXPIRY (R105). -/
def execNotClosedTimerExpiry (door : Fin 48) (s : State) : Host.Outcome State Fault Refusal :=
  occursWhen (decide ((s.door door).notClosedTimer = some 0)) s
    (appendDoor (s.modDoor door fun d => { d with notClosedTimer := none, notClosedReported := true })
      .doorNotClosed door .none)

/-- A request to exit loads the door's REX grant (R106). -/
def Door.pressRex (d : Door) : Door := { d with rex := Grant.load d.contact d.tPass d.rex }

/-- REX PRESS (R106). One at an unconfigured door, or in CONFIGURING, is discarded (R95, R112). -/
def execRexPress (door : Fin 48) (s : State) : Host.Outcome State Fault Refusal :=
  occursWhen (s.inService && (s.door door).configured) s (s.modDoor door Door.pressRex)

/-- REX GRANT EXPIRY (R106). -/
def execRexGrantExpiry (door : Fin 48) (s : State) : Host.Outcome State Fault Refusal :=
  occursWhen (decide ((s.door door).rex = some (.counting 0))) s (s.modDoor door fun d => { d with rex := none })

/-- PASS GRANT EXPIRY (R107). -/
def execPassGrantExpiry (door : Fin 48) (s : State) : Host.Outcome State Fault Refusal :=
  occursWhen (decide ((s.door door).pass = some (.counting 0))) s (s.modDoor door fun d => { d with pass := none })

/-! ### Calls -/

/-- A call point's input is recorded (R117). -/
def recordInput (s : State) (c : Fin 64) (x : PointInput) : State := s.modPoint c fun p => { p with input := x }

/-- A press of a call point, its input recorded (R117, R120). -/
def pressPoint (s : State) (c : Fin 64) : State :=
  match (s.point c).kind, (s.point c).state with
  | .fire, _ => offerAfterEvacuation s (fireCall s c)
  | .help, .active h => pressAgain s c h
  | .help, .idle | .help, .latched => raiseCall s c

/-- A restored call point, its input recorded (R118, R120). -/
def restorePoint (s : State) (c : Fin 64) : State :=
  match (s.point c).kind with
  | .fire => appendPoint s .callPointRestored c .none
  | .help => s

/-- CALL POINT INPUT (R117, R118, R120): a report of a configured point that changes its input. In CONFIGURING it
is recorded alone (R130). -/
def execCallPointInput (point : Fin 64) (input : PointInput) (s : State) : Host.Outcome State Fault Refusal :=
  let s1 := recordInput s point input
  occursWhen ((s.point point).configured && decide ((s.point point).input ≠ input)) s
    (if s.inService then
      match input with
      | .pressed => pressPoint s1 point
      | .restored => restorePoint s1 point
    else s1)

/-- OFFER TIMER EXPIRY (R123). -/
def execOfferTimerExpiry (point : Fin 64) (s : State) : Host.Outcome State Fault Refusal :=
  match s.call point with
  | some h =>
    match h.phase with
    | .offered k 0 => .next (endEvent s (lapseOffer s point h k))
    | .offered _ (_ + 1) | .raised | .accepted _ => .next s
  | none => .next s

/-! ### Routes and channels -/

/-- SELECTION PASS END (R138 to R144). -/
def execSelectionPassEnd (s : State) : Host.Outcome State Fault Refusal :=
  match s.engine with
  | .passing v again => .next (endEvent s (passEnd s v again))
  | .idle | .opening => .next s

/-- Whether a report says that a line is faulty. -/
def saysFaulty : LineReport → Bool
  | .lineFault => true
  | .lineOk => false

/-- The Door Controller takes a change of a DOOR channel's line fault flag (R156, R100, R112). -/
def handLineFault (s : State) (n : Fin 276) (faulty : Bool) : State :=
  if h : n.val < 48 then
    let d : Fin 48 := ⟨n.val, h⟩
    if (s.door d).configured then
      if s.inService then lineFaultChange s d faulty else restDoor s d
    else s
  else s

/-- The entry of a line report, in service (R156). -/
def appendLineReport (s : State) (n : Fin 276) (faulty : Bool) : State :=
  if s.inService then
    append s (if faulty then .channelFault else .channelFaultCleared) (.channel n) (s.channel n).wing .none
  else s

/-- A channel's line fault flag changes (R156): the channel's entry stands before the door's.
(DESIGN CHOICE, log entry 43.) -/
def lineChanges (s : State) (n : Fin 276) (faulty : Bool) : State :=
  handLineFault (appendLineReport (s.modChannel n fun c => { c with lineFault := faulty }) n faulty) n faulty

/-- CHANNEL LINE REPORT (R156). -/
def execChannelLineReport (channel : Fin 276) (report : LineReport) (s : State) : Host.Outcome State Fault Refusal :=
  occursWhen (decide ((s.channel channel).lineFault ≠ saysFaulty report)) s (lineChanges s channel (saysFaulty report))

end Sys2Proof.Machine
end

