-- ==== Sys2Proof/Machine/FireCommands.lean ====
section
/-! DEFINITION. The commands of the fire station's part of the code table (11.6), but the three that reset the
part: each `do` definition is the owner's verdict on the command as one station sent it, and each `exec`
definition the event in which the executor takes it. -/

set_option autoImplicit false

namespace Sys2Proof.Machine

/-- ACKNOWLEDGE WING (R65). -/
def doAcknowledgeWing (wing : Nat) (st : Station) (s : State) : Verdict :=
  inServiceOnly s (onObject wing 4 fun w => need (holdsFire st) .notPermitted
    (match (s.wing w).stage with
      | .ackWait _ => done (sound (changeStage s w (.investigate (s.wing w).tInv) .acknowledge) w)
      | .standby | .investigate _ | .evacuate => .refused .wrongState .none))

def execAcknowledgeWing (wing : Nat) (s : State) : Host.Outcome State Fault Refusal :=
  runCommand (.acknowledgeWing wing) (doAcknowledgeWing wing) s

/-- EVACUATE WING (R67). -/
def doEvacuateWing (wing : Nat) (st : Station) (s : State) : Verdict :=
  inServiceOnly s (onObject wing 4 fun w => need (holdsFire st) .notPermitted
    (if s.evacuating w then done s else done (offeringRound (enterEvacuate s w .command))))

def execEvacuateWing (wing : Nat) (s : State) : Host.Outcome State Fault Refusal :=
  runCommand (.evacuateWing wing) (doEvacuateWing wing) s

/-- The silenced flag of a wing sets (R76). -/
def silence (s : State) (w : Fin 4) : State :=
  appendWing (sound (s.modWing w fun r => { r with silenced := true }) w) .wingSilenced w .none

/-- SILENCE WING (R76). -/
def doSilenceWing (wing : Nat) (revision : Revision) (st : Station) (s : State) : Verdict :=
  inServiceOnly s (onObject wing 4 fun w => need (holdsFire st) .notPermitted
    (needRevision s w revision (need (s.evacuating w) .wrongState
      (if (s.wing w).silenced then done s else done (silence s w)))))

def execSilenceWing (wing : Nat) (revision : Revision) (s : State) : Host.Outcome State Fault Refusal :=
  runCommand (.silenceWing wing revision) (doSilenceWing wing revision) s

/-- A zone reset that leaves no zone of a wing in ACK_WAIT or INVESTIGATE in ALARM returns the wing to
STANDBY (R78). -/
def afterZoneReset (s : State) (w : Fin 4) : State :=
  match (s.wing w).stage with
  | .ackWait _ =>
    if (alarmZones s w).isEmpty then returnEffects (changeStage s w .standby .zoneReset) w .ackWait else s
  | .investigate _ =>
    if (alarmZones s w).isEmpty then returnEffects (changeStage s w .standby .zoneReset) w .investigate else s
  | .standby | .evacuate => s

/-- RESET ZONE (R78). -/
def doResetZone (zone : Nat) (revision : Revision) (st : Station) (s : State) : Verdict :=
  inServiceOnly s (onZone s zone fun z => need (holdsFire st) .notPermitted
    (needRevision s (s.wingOf z) revision (need (s.zone z).fire.inAlarm .wrongState
      (need (passesReset s z) .stillActive (done (afterZoneReset (resetOneZone s z) (s.wingOf z)))))))

def execResetZone (zone : Nat) (revision : Revision) (s : State) : Host.Outcome State Fault Refusal :=
  runCommand (.resetZone zone revision) (doResetZone zone revision) s

/-- A wing is reset: its zones in ALARM, ascending, then its return to STANDBY (R79). -/
def resetWingNow (s : State) (w : Fin 4) : State :=
  let left := (s.wing w).stage.name
  let s1 := (alarmZones s w).foldl resetOneZone s
  let s2 := appendWing (s1.modWing w fun r => { r with stage := .standby }) .wingReset w (.stageLeft left)
  returnEffects s2 w left

/-- RESET WING (R79). -/
def doResetWing (wing : Nat) (revision : Revision) (st : Station) (s : State) : Verdict :=
  inServiceOnly s (onObject wing 4 fun w => need (holdsFire st) .notPermitted
    (needRevision s w revision (need (!s.atStandby w) .wrongState
      (need ((alarmZones s w).all fun z => passesReset s z) .stillActive (done (resetWingNow s w))))))

def execResetWing (wing : Nat) (revision : Revision) (s : State) : Host.Outcome State Fault Refusal :=
  runCommand (.resetWing wing revision) (doResetWing wing revision) s

/-- MANUAL ALARM ZONE (R62). -/
def doManualAlarmZone (zone : Nat) (st : Station) (s : State) : Verdict :=
  inServiceOnly s (onZone s zone fun z => need (holdsFire st) .notPermitted
    (done (offerAfterEvacuation s (zoneAlarm (appendZone s .manualAlarm z .none) z .station false))))

def execManualAlarmZone (zone : Nat) (s : State) : Host.Outcome State Fault Refusal :=
  runCommand (.manualAlarmZone zone) (doManualAlarmZone zone) s

/-- The station-blocked flag of an exit is written, with its entry and its trigger, and the exit's state is
taken anew (R132). (DESIGN CHOICE, log entry 25.) -/
def markExit (s : State) (e : Fin 16) (blocked : Bool) : State :=
  let x := s.exit e
  if x.stationBlocked = blocked then s
  else
    let s1 := trigger (s.modExit e fun r =>
      { r with
        stationBlocked := blocked, state := exitState (s.zone r.zone).fire.inAlarm blocked })
    append s1 .exitMarked (.exit e) (some (s.wingOf x.zone)) (.exitMark (if blocked then .blocked else .available))

/-- MARK EXIT BLOCKED (R132). -/
def doMarkExitBlocked (exit : Nat) (st : Station) (s : State) : Verdict :=
  inServiceOnly s (onExit s exit fun e => need (holdsFire st) .notPermitted (done (markExit s e true)))

def execMarkExitBlocked (exit : Nat) (s : State) : Host.Outcome State Fault Refusal :=
  runCommand (.markExitBlocked exit) (doMarkExitBlocked exit) s

/-- MARK EXIT OPEN (R132). -/
def doMarkExitOpen (exit : Nat) (st : Station) (s : State) : Verdict :=
  inServiceOnly s (onExit s exit fun e => need (holdsFire st) .notPermitted (done (markExit s e false)))

def execMarkExitOpen (exit : Nat) (s : State) : Host.Outcome State Fault Refusal :=
  runCommand (.markExitOpen exit) (doMarkExitOpen exit) s

/-- A request waits on its detector's loop (R35). -/
def recordRequest (s : State) (n : Fin 192) (d : Detector) (r : WaitingRequest) : State :=
  s.putDetector n (some { d with waiting := some r })

/-- Whether a station may disable or enable a detector (R35). -/
def mayServeDetector (s : State) (st : Station) (d : Detector) : Bool :=
  holdsFire st || holdsService s st (s.wingOf d.zone)

/-- DISABLE DETECTOR (R35). -/
def doDisableDetector (detector : Nat) (st : Station) (s : State) : Verdict :=
  inServiceOnly s (onDetector s detector fun n d => need (mayServeDetector s st d) .notPermitted
    (done (recordRequest s n d .disable)))

def execDisableDetector (detector : Nat) (s : State) : Host.Outcome State Fault Refusal :=
  runCommand (.disableDetector detector) (doDisableDetector detector) s

/-- ENABLE DETECTOR (R35). -/
def doEnableDetector (detector : Nat) (st : Station) (s : State) : Verdict :=
  inServiceOnly s (onDetector s detector fun n d => need (mayServeDetector s st d) .notPermitted
    (done (recordRequest s n d .enable)))

def execEnableDetector (detector : Nat) (s : State) : Host.Outcome State Fault Refusal :=
  runCommand (.enableDetector detector) (doEnableDetector detector) s

/-- The wings of the detectors recorded on a loop, or on either loop of its mirrored pair (R21). -/
def loopWings (s : State) (l : Fin 4) : List (Fin 4) :=
  (detectorsOfUnit s (unitOf s l)).filterMap fun n => (s.detector n).map fun d => s.wingOf d.zone

/-- SERVICE authority as R21 states it for a loop: on the wing of one of its detectors, or on any wing for a
loop without detectors. -/
def servesLoop (s : State) (st : Station) (l : Fin 4) : Bool :=
  match loopWings s l with
  | [] => holdsServiceOnAny s st (List.finRange 4)
  | ws => holdsServiceOnAny s st ws

def LoopState.isRestarting : LoopState → Bool
  | .restarting _ _ => true
  | .off | .running | .lineFault => false

/-- RESTART LOOP (R32). -/
def doRestartLoop (loop : Nat) (st : Station) (s : State) : Verdict :=
  inServiceOnly s (onLoop s loop fun l => need (holdsFire st || servesLoop s st l) .notPermitted
    (need ((restartReach s l).all fun x => !(s.loop x).state.isRestarting) .wrongState
      (done (restartLoops s (restartReach s l)))))

def execRestartLoop (loop : Nat) (s : State) : Host.Outcome State Fault Refusal :=
  runCommand (.restartLoop loop) (doRestartLoop loop) s

end Sys2Proof.Machine
end

