-- ==== Sys2Proof/Machine/GuardCommands.lean ====
section
/-! DEFINITION. The commands under GUARD authority (11.6): the owner's verdict on each, and the event in which
the executor takes it. -/

set_option autoImplicit false

namespace Sys2Proof.Machine

/-- The operating mode of a wing changes, with its entry (R8). -/
def changeMode (s : State) (w : Fin 4) (m : Mode) : State :=
  appendWing (s.modWing w fun r => { r with mode := m }) .wingMode w (.modes (s.wing w).mode m)

/-- SET WING MODE (R8). -/
def doSetWingMode (wing : Nat) (mode : Option Mode) (st : Station) (s : State) : Verdict :=
  inServiceOnly s (onObject wing 4 fun w => need (holdsGuard s st w) .notPermitted
    (onValue mode fun m => if (s.wing w).mode = m then done s else done (changeMode s w m)))

def execSetWingMode (wing : Nat) (mode : Option Mode) (s : State) : Host.Outcome State Fault Refusal :=
  runCommand (.setWingMode wing mode) (doSetWingMode wing mode) s

/-- Whether a status holds arming back (R85). -/
def DoorStatus.standsOpen : DoorStatus → Bool
  | .openAuthorised | .openHeld | .forced => true
  | .closedLocked | .closedUnlocked | .fault => false

/-- Whether some door bordering a zone stands open (R85). -/
def borderOpen (s : State) (z : Fin 64) : Bool :=
  !(s.doors.indices fun _ d => d.configured && d.sides.contains z && d.status.standsOpen).isEmpty

/-- A zone enters EXIT_DELAY (R85). -/
def startArming (s : State) (z : Fin 64) : State :=
  let t := (s.wing (s.wingOf z)).exitDelay
  appendZone (setSecurity s z (.exitDelay t)) .armStarted z (.number t)

/-- ARM ZONE (R85). -/
def doArmZone (zone : Nat) (st : Station) (s : State) : Verdict :=
  inServiceOnly s (onZone s zone fun z => need (holdsGuard s st (s.wingOf z)) .notPermitted
    (need (decide ((s.zone z).security = .disarmed)) .wrongState
      (need (s.atStandby (s.wingOf z)) .evacActive
        (need (decide ((s.zone z).transit = 0)) .inUse
          (need (decide ((s.zone z).occupancy = .vacant)) .notVacant
            (need (decide ((s.zone z).activeCalls = 0)) .inUse
              (need (!borderOpen s z) .inUse (done (startArming s z)))))))))

def execArmZone (zone : Nat) (s : State) : Host.Outcome State Fault Refusal :=
  runCommand (.armZone zone) (doArmZone zone) s

/-- A zone is disarmed by command (R90). -/
def disarm (s : State) (z : Fin 64) : State :=
  appendZone (setSecurity s z .disarmed) .zoneDisarmed z (.securityLeft (s.zone z).security.name)

/-- DISARM ZONE (R90). -/
def doDisarmZone (zone : Nat) (st : Station) (s : State) : Verdict :=
  inServiceOnly s (onZone s zone fun z => need (holdsGuard s st (s.wingOf z)) .notPermitted
    (match (s.zone z).security with
      | .exitDelay _ | .armed | .suspended _ => done (disarm s z)
      | .disarmed => done s
      | .breach => .refused .wrongState .none))

def execDisarmZone (zone : Nat) (s : State) : Host.Outcome State Fault Refusal :=
  runCommand (.disarmZone zone) (doDisarmZone zone) s

/-- CLEAR BREACH (R89). -/
def doClearBreach (zone : Nat) (revision : Revision) (st : Station) (s : State) : Verdict :=
  inServiceOnly s (onZone s zone fun z => need (holdsGuard s st (s.wingOf z)) .notPermitted
    (needRevision s (s.wingOf z) revision (need (decide ((s.zone z).security = .breach)) .wrongState
      (done (appendZone (setSecurity s z .disarmed) .breachCleared z .none)))))

def execClearBreach (zone : Nat) (revision : Revision) (s : State) : Host.Outcome State Fault Refusal :=
  runCommand (.clearBreach zone revision) (doClearBreach zone revision) s

/-- A pass grant is loaded, with its entry (R107). -/
def grantPass (s : State) (d : Fin 48) : State :=
  appendDoor (s.modDoor d fun r => { r with pass := Grant.load r.contact r.tPass r.pass }) .passGranted d
    (.number (s.door d).tPass)

/-- PASS DOOR (R107). -/
def doPassDoor (door : Nat) (st : Station) (s : State) : Verdict :=
  inServiceOnly s (onDoor s door fun d => need (holdsGuard s st (s.doorWing d)) .notPermitted
    (need ((s.door d).lockable && !((s.door d).sides.any fun z => decide ((s.zone z).security = .armed))) .wrongState
      (done (grantPass s d))))

def execPassDoor (door : Nat) (s : State) : Host.Outcome State Fault Refusal :=
  runCommand (.passDoor door) (doPassDoor door) s

/-- LOCKDOWN WING (R108). -/
def doLockdownWing (wing : Nat) (st : Station) (s : State) : Verdict :=
  inServiceOnly s (onObject wing 4 fun w => need (holdsGuard s st w) .notPermitted
    (need (s.atStandby w) .evacActive
      (if (s.wing w).lockdown then done s
        else done (appendWing (s.modWing w fun r => { r with lockdown := true }) .lockdownStarted w .none))))

def execLockdownWing (wing : Nat) (s : State) : Host.Outcome State Fault Refusal :=
  runCommand (.lockdownWing wing) (doLockdownWing wing) s

/-- END LOCKDOWN (R108). -/
def doEndLockdown (wing : Nat) (st : Station) (s : State) : Verdict :=
  inServiceOnly s (onObject wing 4 fun w => need (holdsGuard s st w) .notPermitted
    (if (s.wing w).lockdown then
        done (appendWing (s.modWing w fun r => { r with lockdown := false }) .lockdownEnded w
          (.lockdownCause .command))
      else done s))

def execEndLockdown (wing : Nat) (s : State) : Host.Outcome State Fault Refusal :=
  runCommand (.endLockdown wing) (doEndLockdown wing) s

/-- REPORT PATROL (R82). -/
def doReportPatrol (zone : Nat) (st : Station) (s : State) : Verdict :=
  inServiceOnly s (onZone s zone fun z => need (holdsGuard s st (s.wingOf z)) .notPermitted
    (done (takeActivity (appendZone s .patrolReported z .none) z .patrol)))

def execReportPatrol (zone : Nat) (s : State) : Host.Outcome State Fault Refusal :=
  runCommand (.reportPatrol zone) (doReportPatrol zone) s

end Sys2Proof.Machine
end

