-- ==== Sys2Proof/Machine/Queries.lean ====
section
/-! DEFINITION. The twelve queries (11.6): the answer each takes from the records as they stand, and the event in
which the query server composes its reply (R167). A query changes no record of the building. -/

set_option autoImplicit false

namespace Sys2Proof.Machine

/-- What STATUS returns of a wing (R167). -/
def wingStatus (w : Wing) : WingStatus := { stage := w.stage.name, mode := w.mode, revision := w.revision }

/-- The connected stations. -/
def connectedStations (s : State) : StationSet :=
  { fire := s.ports.fire.up, guard := s.ports.guard.up, services := s.ports.services.up }

/-- The oldest and the newest held log sequence (R159). -/
def oldestHeld (s : State) : Option Nat := s.log.head?.map fun e => e.sequence
def newestHeld (s : State) : Option Nat := s.log.getLast?.map fun e => e.sequence

/-- STATUS (R167). -/
def answerStatus (s : State) : Answer :=
  answered (.status s.part s.seconds (connectedStations s) (oldestHeld s) (newestHeld s)
    (s.wings.rows.map wingStatus))

def execStatus (s : State) : Host.Outcome State Fault Refusal := runQuery .status answerStatus s

/-- The remaining minutes of a zone's test: its remaining seconds rounded up (R53). -/
def testMinutes (z : Zone) : Option Nat := z.testTimer.map fun t => (t + 59) / 60

/-- READ ZONE (R1). For a zone that is not configured the revision is that of the wing its record keeps. (DEDUCED, log
entry 56.) -/
def answerReadZone (zone : Nat) (s : State) : Answer :=
  answerFor zone 64 fun z =>
    answered (.zone (s.zone z) (testMinutes (s.zone z)) (s.zone z).unprotected (s.wing (s.wingOf z)).revision)

def execReadZone (zone : Nat) (s : State) : Host.Outcome State Fault Refusal :=
  runQuery (.readZone zone) (answerReadZone zone) s

/-- READ WING (R1). -/
def answerReadWing (wing : Nat) (s : State) : Answer := answerFor wing 4 fun w => answered (.wing (s.wing w))

def execReadWing (wing : Nat) (s : State) : Host.Outcome State Fault Refusal :=
  runQuery (.readWing wing) (answerReadWing wing) s

/-- READ DETECTOR (R35, R52, R167): a number with no record is BAD_OBJECT. -/
def answerReadDetector (detector : Nat) (s : State) : Answer :=
  answerFor detector 192 fun n =>
    match s.detector n with
    | some d => answered (.detector d)
    | none => { code := .badObject, data := .none }

def execReadDetector (detector : Nat) (s : State) : Host.Outcome State Fault Refusal :=
  runQuery (.readDetector detector) (answerReadDetector detector) s

/-- READ LOOP (R28): the loop's record, with its pair's common fields where the pair is mirrored, the mode of its pair,
and its partner's mode and pending mode. -/
def answerReadLoop (loop : Nat) (s : State) : Answer :=
  answerFor loop 4 fun l =>
    answered (.loop (pairRecord s l) (s.loop (lowerLoop (pairOf l))).mode (s.loop (partnerOf l)).mode
      (s.loop (partnerOf l)).pendingMode)

def execReadLoop (loop : Nat) (s : State) : Host.Outcome State Fault Refusal :=
  runQuery (.readLoop loop) (answerReadLoop loop) s

/-- A field that is present on configured objects only. -/
def whenConfigured {α : Type} (configured : Bool) (x : α) : Option α := if configured then some x else none

/-- READ DOOR (R111). -/
def answerReadDoor (door : Nat) (s : State) : Answer :=
  answerFor door 48 fun n =>
    let d := s.door n
    answered (.door d (whenConfigured d.configured d.status) (whenConfigured d.configured d.value)
      (whenConfigured d.configured d.cause)
      (match d.kind with
        | .fireHold => some d.notClosedReported
        | .secureEgress | .store => none)
      (s.channel (doorChannel n)).effective)

def execReadDoor (door : Nat) (s : State) : Host.Outcome State Fault Refusal :=
  runQuery (.readDoor door) (answerReadDoor door) s

/-- The calls of the queue, in queue order (R121). -/
def queuedCalls (s : State) : List QueuedCall :=
  s.callQueue.filterMap fun c =>
    match (s.point c).state with
    | .active h => some { point := c, zone := (s.point c).zone, call := h }
    | .idle | .latched => none

/-- READ CALL QUEUE (R121). -/
def answerReadCallQueue (s : State) : Answer :=
  answered (.callQueue (queuedCalls s) (s.desks.rows.map fun d => d.offered))

def execReadCallQueue (s : State) : Host.Outcome State Fault Refusal := runQuery .readCallQueue answerReadCallQueue s

/-- READ CALL POINT (R129). -/
def answerReadCallPoint (point : Nat) (s : State) : Answer :=
  answerFor point 64 fun c =>
    answered (.point (s.point c) (match (s.point c).kind with
      | .help => some (s.point c).deskList
      | .fire => none))

def execReadCallPoint (point : Nat) (s : State) : Host.Outcome State Fault Refusal :=
  runQuery (.readCallPoint point) (answerReadCallPoint point) s

/-- One route of a zone, with its steps and the grade of the last pass (R145). -/
def routeReport (s : State) (z : Fin 64) (x : Route × Nat) : RouteReport :=
  { route := x.1, steps := routeSteps s x.1, grade := (s.zone z).routeGrades[x.2]? }

/-- READ ROUTE (R145). -/
def answerReadRoute (zone : Nat) (s : State) : Answer :=
  answerFor zone 64 fun z =>
    answered (.route ((s.routeLists.get z).zipIdx.map (routeReport s z)) (s.zone z).selected (s.zone z).grade
      (s.zone z).noRoute (s.zone z).transit)

def execReadRoute (zone : Nat) (s : State) : Host.Outcome State Fault Refusal :=
  runQuery (.readRoute zone) (answerReadRoute zone) s

/-- READ EXIT (R145). -/
def answerReadExit (exit : Nat) (s : State) : Answer :=
  answerFor exit 16 fun e =>
    answered (.exit (s.exit e) (whenConfigured (s.exit e).configured (s.exit e).state))

def execReadExit (exit : Nat) (s : State) : Host.Outcome State Fault Refusal :=
  runQuery (.readExit exit) (answerReadExit exit) s

/-- The polarity a channel shows: DOOR and LIGHT channels alone have one (section 9.1). -/
def shownPolarity (n : Fin 276) (c : Channel) : Option Polarity :=
  match channelKind n with
  | .door | .light => some c.polarity
  | .sign | .lamp | .sounder => none

/-- READ CHANNEL (section 9.6). -/
def answerReadChannel (channel : Nat) (s : State) : Answer :=
  answerFor channel 276 fun n =>
    answered (.channel n (channelKind n) (s.channel n) (shownPolarity n (s.channel n)))

def execReadChannel (channel : Nat) (s : State) : Host.Outcome State Fault Refusal :=
  runQuery (.readChannel channel) (answerReadChannel channel) s

/-- The entries a READ LOG returns: up to `count` from the first held at or above `first` (R160). -/
def logEntries (log : List Entry) (first count : Nat) : List Entry :=
  (log.filter fun e => decide (first ≤ e.sequence)).take count

/-- The GAP flag of a READ LOG: the start lies below the oldest held sequence (R160). -/
def logGap (log : List Entry) (first : Nat) : Bool :=
  match log with
  | [] => false
  | e :: _ => decide (first < e.sequence)

/-- READ LOG (R160). -/
def answerReadLog (first count : Nat) (s : State) : Answer :=
  let k := clamp 1 Config.readLogMax count
  { code := if k = count then .done else .doneAdjusted
    data := .log (logEntries s.log first k) (logGap s.log first) (newestHeld s) k }

/-- READ LOG as the command of the executor (R160). (DEDUCED, log entry 27.) -/
def execReadLog (first count : Nat) (s : State) : Host.Outcome State Fault Refusal :=
  runQuery (.readLog first count) (answerReadLog first count) s

end Sys2Proof.Machine
end

