-- ==== Sys2Proof/Machine/Resets.lean ====
section
/-! DEFINITION. The resets of the part: POWER ON, START with its checks, RESTART and ENTER CONFIGURATION (R17, R18,
R37, R38, R59, R80, R94, R112, R113, R130, R146, R147, R157, R172 to R174). -/

set_option autoImplicit false

namespace Sys2Proof.Machine

/-! ### The checks of START (R172) -/

/-- The first member of a list that fails, as a configuration object. -/
def firstFailing {α : Type} (xs : List α) (fails : α → Bool) (f : α → ConfigObject) : Option ConfigObject :=
  (xs.find? fails).map f

/-- Whether some detector record names a class. -/
def namesClass (s : State) (c : Fin 8) : Bool :=
  s.detectors.rows.any fun d => match d with
    | some d => decide (d.cls = c)
    | none => false

/-- Check 1: the class and the zone of every detector configured and its loop in use; no zone of more than 48. An
unconfigured class is named itself, as R39 has it, and before any other object. (DEDUCED, log entry 40.) -/
def check1 (s : State) : Option ConfigObject :=
  ((firstFailing (List.finRange 8) (fun c => namesClass s c && !(s.cls c).configured) .cls).or
    (firstFailing (List.finRange 192)
      (fun n => match s.detector n with
        | some d => !((s.zone d.zone).configured && (s.loop d.loop).inUse)
        | none => false) .detector)).or
    (firstFailing (List.finRange 64)
      (fun z => decide (Config.zoneDetectorsMax < (s.detectorsOf z fun _ => true).length)) .zone)

/-- The addresses of a loop's scan list. -/
def listedAddresses (s : State) (l : Fin 4) : List Nat :=
  (List.finRange 48).filterMap fun k =>
    match s.slot l k with
    | .address a _ => some a
    | .endMark => none

/-- Check 2: a loop and address held by one detector at most; every address of a list once in it, and matched
by a detector record. The first object that fails is the lowest detector of a doubled loop and address, and else the
lowest loop whose list fails. (DESIGN CHOICE, log entry 40.) -/
def check2 (s : State) : Option ConfigObject :=
  let held := s.detectors.rows.filterMap fun d => d.map fun d => (d.loop, d.address)
  match firstFailing (List.finRange 192)
      (fun n => match s.detector n with
        | some d => decide (1 < held.countP fun x => decide (x = (d.loop, d.address)))
        | none => false) .detector with
  | some x => some x
  | none =>
    firstFailing (List.finRange 4)
      (fun l =>
        let as := listedAddresses s l
        !(noneTwice as && as.all fun a => held.contains (l, a))) .loop

/-- Check 3: END in slot 0 of the upper loop of every mirrored pair. -/
def check3 (s : State) : Option ConfigObject :=
  firstFailing (List.finRange 4)
    (fun l => decide (2 ≤ l.val) && decide ((s.loop l).mode = .mirrored) && decide (s.slot l 0 ≠ .endMark)) .loop

/-- The relations of a class (R39). -/
def classRelations (c : DetectorClass) : Bool :=
  c.configured && decide (c.preAlarm + 16 ≤ c.alarm) && decide (c.bmin < c.bmax)
    && decide (c.bmin ≤ c.fixedBaseline) && decide (c.fixedBaseline ≤ c.bmax)

/-- Check 4: the relations of every class that a detector names. -/
def check4 (s : State) : Option ConfigObject :=
  firstFailing (List.finRange 8)
    (fun c => namesClass s c && !classRelations (s.cls c)) .cls

/-- Check 5: the side zones of every configured door. -/
def check5 (s : State) : Option ConfigObject :=
  firstFailing (List.finRange 48)
    (fun d => (s.door d).configured && !((s.door d).sides.all fun z => (s.zone z).configured)) .door

/-- Check 6: the zone of every configured call point. -/
def check6 (s : State) : Option ConfigObject :=
  firstFailing (List.finRange 64)
    (fun c => (s.point c).configured && !(s.zone (s.point c).zone).configured) .point

/-- Check 7: every desk's owning station. -/
def check7 (s : State) : Option ConfigObject :=
  firstFailing (List.finRange 8) (fun k => (s.desk k).owner.isNone) .desk

/-- Check 8: every wing's evacuation desk. -/
def check8 (s : State) : Option ConfigObject :=
  firstFailing (List.finRange 4) (fun w => (s.wing w).evacDesk.isNone) .wing

/-- Whether a configured exit meets R131. -/
def exitMeets (s : State) (x : ExitRecord) : Bool :=
  (s.zone x.zone).configured && match x.door with
    | some d => (s.door d).configured && decide ((s.door d).kind = .secureEgress)
    | none => true

/-- Check 9: every configured exit. -/
def check9 (s : State) : Option ConfigObject :=
  firstFailing (List.finRange 16) (fun e => (s.exit e).configured && !exitMeets s (s.exit e)) .exit

/-- Check 10: the home zone of every configured sign. -/
def check10 (s : State) : Option ConfigObject :=
  firstFailing (List.finRange 96) (fun g => (s.sign g).configured && !(s.zone (s.sign g).home).configured) .sign

/-- Whether a route of a zone meets R134. -/
def routeMeets (s : State) (z : Fin 64) (r : Route) : Bool :=
  match walkPath s.descriptors Config.pathMax r.head.val with
  | none => false
  | some steps =>
    decide ((steps.head?.map fun d => d.zone) = some z)
      && decide ((steps.getLast?.map fun d => d.zone) = some (s.exit r.exit).zone)
      && (s.exit r.exit).configured
      && steps.all fun d => (s.zone d.zone).configured && match d.sign with
        | some x => (s.sign x.sign).configured
        | none => true

/-- The routes of every configured zone, with their zone and index. -/
def listedRoutes (s : State) : List (Fin 64 × Route × Nat) :=
  (List.finRange 64).flatMap fun z =>
    if (s.zone z).configured then (s.routeLists.get z).zipIdx.map fun x => (z, x) else []

/-- Check 11: every route of every configured zone. -/
def check11 (s : State) : Option ConfigObject :=
  firstFailing (listedRoutes s) (fun x => !routeMeets s x.1 x.2.1) fun x => .route x.1 x.2.2

/-- The checks in order; the first that fails, with its first failing object (R172). -/
def startCheck (s : State) : Option (Nat × ConfigObject) :=
  [(1, check1), (2, check2), (3, check3), (4, check4), (5, check5), (6, check6), (7, check7), (8, check8)
    , (9, check9), (10, check10), (11, check11)].findSome? fun x => (x.2 s).map fun o => (x.1, o)

/-! ### What the resets of the part leave of each record -/

/-- The zone fields that all three resets clear (R17). -/
def Zone.cleared (r : Zone) : Zone :=
  { r with
    testTimer := none, fire := .normal, egress := false, transit := 0, selected := none, grade := none
    noRoute := false, routeGrades := [], occupancy := .occupied, vacancyTimer := none, lastPrimary := none
    lastSecondary := none, security := .disarmed, activeCalls := 0 }

/-- A zone record at START and RESTART (R17). -/
def Zone.started (r : Zone) : Zone :=
  { r.cleared with vacancyTimer := if r.configured then some r.vacancyPeriod else none }

/-- The wing fields that all three resets clear (R18). -/
def Wing.cleared (r : Wing) : Wing :=
  { r with
    stage := .standby, silenced := false, spreadTimer := none, alerted := false, lockdown := false }

/-- A wing record at START and RESTART (R18). -/
def Wing.started (r : Wing) : Wing := { r.cleared with mode := r.initialMode }

/-- The detector fields that all three resets clear (R59, R30, R35), with the state the reset gives. -/
def Detector.cleared (state : DetectorState) (d : Detector) : Detector :=
  { d with
    state := state, missed := 0, validRun := 0, level := none, riseRun := 0, testArmed := none
    mismatch := false, waiting := none }

/-- A detector's state at ENTER CONFIGURATION (R59). -/
def DetectorState.configured : DetectorState → DetectorState
  | .disabled => .disabled
  | .unmonitored | .normal | .preAlarm | .verifying _ | .alarm | .fault _ => .unmonitored

/-- A detector's state at START and RESTART: DISABLED when its slot is marked disabled (R59). -/
def startState (s : State) (d : Detector) : DetectorState :=
  match slotOf s d.loop d.address with
  | some k =>
    match s.slot d.loop k with
    | .address _ false => .disabled
    | .address _ true => .unmonitored
    | .endMark => .unmonitored
  | none => .unmonitored

/-- A detector's baseline and compensation-limit flag brought into its class at START (R59). -/
def Detector.rebased (c : DetectorClass) (d : Detector) : Detector :=
  let b := if c.tracking then clamp (16 * c.bmin) (16 * c.bmax) d.baseline else 16 * c.fixedBaseline
  { d with baseline := b, compLimit := decide (b = 16 * c.bmax) }

/-- A call point record after each of the three resets (R130). -/
def CallPoint.cleared (p : CallPoint) : CallPoint := { p with state := .idle, lamp := .off }

/-- An exit record after each of the three resets (R146). -/
def ExitRecord.cleared (e : ExitRecord) : ExitRecord := { e with stationBlocked := false, state := .available }

/-- A sign record after each of the three resets (R146). -/
def Sign.cleared (g : Sign) : Sign := { g with aspect := .exitSteady, claims := 0, winner := none }

/-- The reset value of a channel's source, but for a DOOR channel, whose value the Door Controller computes
(R157). -/
def resetSource (n : Fin 276) (c : Channel) : ChannelValue :=
  match channelKind n with
  | .door => c.source
  | .sign => .exitSteady
  | .lamp | .light | .sounder => .off

/-- A channel after a reset: FOLLOW, at its owner's reset value, with the drive the reset gives (R157). -/
def Channel.restarted (n : Fin 276) (drive : Drive) (c : Channel) : Channel :=
  takeEffective
    { c with source := resetSource n c, latch := .follow, latched := resetSource n c, drive := drive }

/-- The object a channel drives, where it is configured: the wing it gives its channel (R147). -/
def objectWing (s : State) (n : Fin 276) : Option (Fin 4) :=
  if h : n.val < 48 then
    let d : Fin 48 := ⟨n.val, h⟩
    if (s.door d).configured then some (s.doorWing d) else none
  else if h : n.val - 48 < 96 then
    let g : Fin 96 := ⟨n.val - 48, h⟩
    if (s.sign g).configured then some (s.wingOf (s.sign g).home) else none
  else if h : n.val - 144 < 64 then
    let c : Fin 64 := ⟨n.val - 144, h⟩
    if (s.point c).configured then some (s.wingOf (s.point c).zone) else none
  else if h : n.val - 208 < 64 then
    let z : Fin 64 := ⟨n.val - 208, h⟩
    if (s.zone z).configured then some (s.wingOf z) else none
  else if h : n.val - 272 < 4 then some ⟨n.val - 272, h⟩
  else none

/-- The fail value of a configured door (R147). -/
def doorFailValue (d : Door) : ChannelValue :=
  if d.configured then
    match d.failMode, d.kind with
    | .failSafe, .fireHold => .close
    | .failSafe, _ => .unlock
    | .failSecure, .fireHold => .hold
    | .failSecure, _ => .lock
  else .unlock

/-- The fail value of a channel (R147). -/
def failValueOf (s : State) (n : Fin 276) : ChannelValue :=
  if h : n.val < 48 then doorFailValue (s.door ⟨n.val, h⟩)
  else match channelKind n with
    | .sign => .dark
    | .light => .on
    | .door | .lamp | .sounder => .off

/-- A channel at START and RESTART: its wing and fail value given anew (R147), then the reset (R157). -/
def Channel.started (s : State) (n : Fin 276) (c : Channel) : Channel :=
  Channel.restarted n .enabled { c with wing := objectWing s n, failValue := failValueOf s n }

/-! ### The resets -/

/-- A desk after each of the three resets (R130). -/
def Desk.cleared (d : Desk) : Desk := { d with offered := [] }

/-- What ENTER CONFIGURATION, START and RESTART clear alike: doors, points, desks, exits, signs and the route
engine (R112, R113, R130, R146). -/
def clearRuntime (s : State) : State :=
  { s with
    doors := s.doors.map Door.cleared
    points := s.points.map CallPoint.cleared
    callQueue := []
    desks := s.desks.map Desk.cleared
    exits := s.exits.map ExitRecord.cleared
    signs := s.signs.map Sign.cleared
    engine := .idle
    converterA := .free
    converterB := .free }

/-- A detector record at START and RESTART (R59). -/
def startDetector (rebase : Bool) (s : State) (d : Option Detector) : Option Detector :=
  d.map fun (x : Detector) =>
    let y := Detector.cleared (startState s x) x
    if rebase then y.rebased (s.cls x.cls) else y

/-- A detector record at ENTER CONFIGURATION (R59). -/
def configureDetector (d : Option Detector) : Option Detector :=
  d.map fun (x : Detector) => Detector.cleared x.state.configured x

/-- A zone record at ENTER CONFIGURATION (R17): no detector of it is in service. -/
def Zone.configuring (r : Zone) : Zone := { r.cleared with impairedCount := r.detectorCount }

/-- The records START and RESTART give, before their entry; `rebase` says that the baselines are brought into
their classes, as START does (R59). -/
def startRecords (rebase : Bool) (s : State) : State :=
  let s0 := { clearRuntime s with part := .inService, loops := s.loops.map Loop.started }
  let s1 := { s0 with detectors := s.detectors.map (startDetector rebase s0) }
  let s2 := { s1 with
    zones := s1.zones.mapIdx fun z (r : Zone) => recount s1 z r.started
    wings := s1.wings.map Wing.started }
  { s2 with channels := s2.channels.mapIdx (Channel.started s2) }

/-- The fire calls of the FIRE points found pressed (R130), taken by rising number. (DESIGN CHOICE, log entry 44.) -/
def takePressedPoints (s : State) : State :=
  (s.points.indices fun _ p =>
    p.configured && decide (p.kind = .fire) && decide (p.input = .pressed)).foldl fireCall s

/-- The doors as START and RESTART leave them (R113). -/
def startDoors (s : State) : State :=
  let s1 := restAllDoors (computeAllDoors s)
  { s1 with doors := s1.doors.map Door.started }

/-- START and RESTART in one event: the records, the part's entry, the fire calls, and the doors. -/
def startPart (rebase : Bool) (kind : EntryKind) (s : State) : State :=
  startDoors (takePressedPoints (appendPart (startRecords rebase s) kind .none))

/-- ENTER CONFIGURATION in one event (R173, R37, R59, R80, R94, R112, R130, R146, R157). -/
def configurePart (s : State) : State :=
  let s1 := { clearRuntime s with
    part := .configuring
    loops := s.loops.map Loop.configured
    detectors := s.detectors.map configureDetector }
  let s2 := { s1 with
    zones := s1.zones.map Zone.configuring
    wings := s1.wings.map Wing.cleared
    channels := s1.channels.mapIdx fun n c => Channel.restarted n .released c }
  appendPart (restAllDoors (computeAllDoors s2)) .configEntered .none

/-! ### The commands -/

/-- POWER ON: the reset input gives the whole part its power-on state (R174), and a message is sent for every channel
whose drive it changes (R157). The waiting commands are the model's queue and are no part of it.
(DESIGN CHOICE, log entry 29.) -/
def execPowerOn (s : State) : Host.Outcome State Fault Refusal :=
  .next { State.reset with
    fieldOut := channelMessages s.channels State.reset.channels, pending := s.pending }

/-- START (R172). -/
def doStart (st : Station) (s : State) : Verdict :=
  configuringOnly s (need (holdsFire st) .notPermitted
    (match startCheck s with
      | some x => .refused .configError (.configError x.1 x.2)
      | none => done (startPart true .partStarted s)))

def execStart (s : State) : Host.Outcome State Fault Refusal :=
  runReset .start doStart (fun _ x => endStart x) s

/-- Whether some HELP call is active (R173). -/
def anyCallActive (s : State) : Bool :=
  s.points.rows.any fun p => match p.state with
    | .active _ => true
    | .idle | .latched => false

/-- RESTART (R173). -/
def doRestart (st : Station) (s : State) : Verdict :=
  inServiceOnly s (need (holdsFire st) .notPermitted (need s.allStandby .evacActive
    (need (!anyCallActive s) .inUse (done (startPart false .partRestarted s)))))

def execRestart (s : State) : Host.Outcome State Fault Refusal :=
  runReset .restart doRestart (fun _ x => endStart x) s

/-- ENTER CONFIGURATION (R173). -/
def doEnterConfiguration (st : Station) (s : State) : Verdict :=
  inServiceOnly s (need (holdsFire st) .notPermitted (need s.allStandby .evacActive (done (configurePart s))))

def execEnterConfiguration (s : State) : Host.Outcome State Fault Refusal :=
  runReset .enterConfiguration doEnterConfiguration endReset s

end Sys2Proof.Machine
end

