-- ==== Sys2Proof/Machine/ServiceCommands.lean ====
section
/-! DEFINITION. The commands under SERVICE authority and the commands of the desks (11.6): the owner's verdict
on each, and the event in which the executor takes it. -/

set_option autoImplicit false

namespace Sys2Proof.Machine

/-- TEST ZONE ON (R53). -/
def doTestZoneOn (zone : Nat) (st : Station) (s : State) : Verdict :=
  inServiceOnly s (onZone s zone fun z => need (holdsService s st (s.wingOf z)) .notPermitted
    (need (s.atStandby (s.wingOf z)) .evacActive (done (startTest s z))))

def execTestZoneOn (zone : Nat) (s : State) : Host.Outcome State Fault Refusal :=
  runCommand (.testZoneOn zone) (doTestZoneOn zone) s

/-- TEST ZONE OFF (R55). -/
def doTestZoneOff (zone : Nat) (st : Station) (s : State) : Verdict :=
  inServiceOnly s (onZone s zone fun z => need (holdsService s st (s.wingOf z)) .notPermitted
    (need (s.atStandby (s.wingOf z)) .evacActive (done (endTest .off s z))))

def execTestZoneOff (zone : Nat) (s : State) : Host.Outcome State Fault Refusal :=
  runCommand (.testZoneOff zone) (doTestZoneOff zone) s

/-! ### Maintenance of the output channels (R151) -/

/-- The wings that the channels of a range belong to, in channel order. -/
def rangeWings (s : State) (first count : Nat) : List (Fin 4) :=
  (List.zip (List.finRange 276) s.channels.rows).filterMap fun x =>
    if inRange first count x.1 then x.2.wing else none

/-- The authority check of a maintenance command (R151). -/
def servesRange (s : State) (st : Station) (ws : List (Fin 4)) : Bool :=
  match ws with
  | [] => holdsServiceOnAny s st (List.finRange 4)
  | _ => ws.all fun w => holdsService s st w

/-- The checks of a maintenance command, in the order of R151. -/
def onRange (s : State) (st : Station) (first count : Nat) (k : Verdict) : Verdict :=
  inServiceOnly s (need (decide (1 ≤ count) && decide (count ≤ 276)) .badValue
    (need (decide (first ≤ 275) && decide (first + count ≤ 276)) .badObject
      (need (servesRange s st (rangeWings s first count)) .notPermitted
        (need ((rangeWings s first count).all fun w => s.atStandby w) .evacActive k))))

/-- HOLD CHANNELS (R152). -/
def doHoldChannels (first count : Nat) (st : Station) (s : State) : Verdict :=
  onRange s st first count
    (done (maintain s first count .channelsHeld (fun c => decide (c.latch = .hold)) holdChannel))

def execHoldChannels (first count : Nat) (s : State) : Host.Outcome State Fault Refusal :=
  runCommand (.holdChannels first count) (doHoldChannels first count) s

/-- FREE CHANNELS (R152). -/
def doFreeChannels (first count : Nat) (st : Station) (s : State) : Verdict :=
  onRange s st first count
    (done (maintain s first count .channelsFreed (fun c => decide (c.latch = .follow)) freeChannel))

def execFreeChannels (first count : Nat) (s : State) : Host.Outcome State Fault Refusal :=
  runCommand (.freeChannels first count) (doFreeChannels first count) s

/-- RELEASE DRIVE (R153). -/
def doReleaseDrive (first count : Nat) (st : Station) (s : State) : Verdict :=
  onRange s st first count
    (done (maintain s first count .driveReleased (fun c => decide (c.drive = .released)) releaseChannel))

def execReleaseDrive (first count : Nat) (s : State) : Host.Outcome State Fault Refusal :=
  runCommand (.releaseDrive first count) (doReleaseDrive first count) s

/-- RESTORE DRIVE (R153). -/
def doRestoreDrive (first count : Nat) (st : Station) (s : State) : Verdict :=
  onRange s st first count
    (done (maintain s first count .driveRestored (fun c => decide (c.drive = .enabled)) restoreChannel))

def execRestoreDrive (first count : Nat) (s : State) : Host.Outcome State Fault Refusal :=
  runCommand (.restoreDrive first count) (doRestoreDrive first count) s

/-! ### The desks -/

/-- ACCEPT CALL (R124). -/
def doAcceptCall (point desk : Nat) (st : Station) (s : State) : Verdict :=
  inServiceOnly s (onPoint s point fun c => onObject desk 8 fun k =>
    need (ownsDesk s st k) .notPermitted
      (need (decide ((s.point c).kind = .help)) .wrongState
        (match s.call c with
          | none => .refused .tooLate .none
          | some h =>
            match h.phase with
            | .offered d _ => if d = k then done (acceptOffer s c h k) else .refused .tooLate .none
            | .accepted d => if d = k then done s else .refused .tooLate .none
            | .raised => .refused .tooLate .none)))

def execAcceptCall (point desk : Nat) (s : State) : Host.Outcome State Fault Refusal :=
  runCommand (.acceptCall point desk) (doAcceptCall point desk) s

/-- Whether a station owns the accepted desk of a point's call (R125). -/
def ownsAccepted (s : State) (st : Station) (c : Fin 64) : Bool :=
  match s.call c with
  | some h =>
    match h.phase with
    | .accepted k => ownsDesk s st k
    | .raised | .offered _ _ => false
  | none => false

/-- Whether a station may clear a point's call (R125): with GUARD on the point's wing, from the accepting desk, and
at an IDLE point, where the command does nothing, every station. (DEDUCED, log entry 39.) -/
def mayClear (s : State) (st : Station) (c : Fin 64) : Bool :=
  holdsGuard s st (s.wingOf (s.point c).zone) || ownsAccepted s st c
    || (decide ((s.point c).kind = .help) && (s.call c).isNone)

/-- CLEAR CALL (R125). -/
def doClearCall (point : Nat) (st : Station) (s : State) : Verdict :=
  inServiceOnly s (onPoint s point fun c =>
    need (mayClear s st c) .notPermitted
      (need (decide ((s.point c).kind = .help)) .wrongState
        (match s.call c with
          | some h => done (clearActive s c h st)
          | none => done s)))

def execClearCall (point : Nat) (s : State) : Host.Outcome State Fault Refusal :=
  runCommand (.clearCall point) (doClearCall point) s

/-- A desk's capacity is written; a change has its entry, and a rise runs an offering round (R128). -/
def writeCapacity (s : State) (k : Fin 8) (n : Nat) : State :=
  if (s.desk k).capacity = n then s
  else
    let s1 := appendPart (s.modDesk k fun d => { d with capacity := n }) .settingChanged (.setting .deskCapacity)
    if (s.desk k).capacity < n then offeringRound s1 else s1

/-- SET DESK CAPACITY (R128). -/
def doSetDeskCapacity (desk capacity : Nat) (st : Station) (s : State) : Verdict :=
  inServiceOnly s (onObject desk 8 fun k => need (holdsFire st || ownsDesk s st k) .notPermitted
    (need (decide ((s.desk k).offered.length ≤ clamp 1 4 capacity)) .inUse
      (doneApplied (writeCapacity s k (clamp 1 4 capacity)) [capacity] [clamp 1 4 capacity])))

def execSetDeskCapacity (desk capacity : Nat) (s : State) : Host.Outcome State Fault Refusal :=
  runCommand (.setDeskCapacity desk capacity) (doSetDeskCapacity desk capacity) s

end Sys2Proof.Machine
end

