-- ==== Sys2Proof/Machine/Settings.lean ====
section
/-! DEFINITION. WRITE SETTING, one definition for each kind of live setting: the owner's verdict on a write,
and the event in which the executor takes it. Each is taken in both part states, under its own authority in
service and under CONFIG authority while the part is CONFIGURING (R6). -/

set_option autoImplicit false

namespace Sys2Proof.Machine

/-- The authority of a live setting: its own in service, CONFIG in CONFIGURING (R6).
(DEDUCED, log entry 26.) -/
def underSetting (s : State) (st : Station) (ok : Bool) (k : Verdict) : Verdict :=
  need (if s.inService then ok else holdsConfig st) .notPermitted k

/-- In service a configured zone, in CONFIGURING any zone in range (R2, R6). -/
def onSettingZone (s : State) (n : Nat) (k : Fin 64 → Verdict) : Verdict :=
  onObject n 64 fun z => need (!s.inService || (s.zone z).configured) .badObject (k z)

/-- SETTING_CHANGED where a write has changed a value (R5). -/
def settingEntry (s : State) (changed : Bool) (subject : Subject) (wing : Option (Fin 4)) (x : SettingName) :
    State :=
  if changed then append s .settingChanged subject wing (.setting x) else s

/-- The applied value of T_spread: 0 as given, else 60 to 900 (R5). -/
def spreadApplied (v : Nat) : Nat := if v = 0 then 0 else clamp 60 900 v

/-- The steps of the vacancy period (R5). -/
def vacancySteps : List Nat := [30, 60, 120, 300, 600, 1200, 1800]

/-- The applied value of a vacancy period: the first step at or above it, 1800 above them all (R5). -/
def vacancyApplied (v : Nat) : Nat := (vacancySteps.find? fun x => decide (v ≤ x)).getD 1800

/-- A numeric setting of a wing. -/
def writeWingSetting (s : State) (w : Fin 4) (x : SettingName) (get : Wing → Nat) (put : Wing → Wing)
    (given applied : Nat) : Verdict :=
  doneApplied
    (settingEntry (s.modWing w put) (decide (get (s.wing w) ≠ applied)) (.wing w) (some w) x) [given] [applied]

/-- WRITE SETTING for a setting of a wing or zone record (R5, R6). In CONFIGURING the SETTING_CHANGED of a zone that is not
configured names the wing that its record keeps, whose revision advances. (DEDUCED, log entry 56: R2 gives that field no
effect, and R5 has the entry name the zone's wing.) -/
def doWriteSettingZoneWing (setting : ZoneWingSetting) (st : Station) (s : State) : Verdict :=
  match setting with
  | .tAck wing v =>
    onObject wing 4 fun w => underSetting s st (holdsFire st)
      (writeWingSetting s w .tAck (fun r => r.tAck) (fun r => { r with tAck := clamp 5 30 v }) v (clamp 5 30 v))
  | .tInv wing v =>
    onObject wing 4 fun w => underSetting s st (holdsFire st)
      (writeWingSetting s w .tInv (fun r => r.tInv) (fun r => { r with tInv := clamp 30 300 v }) v
        (clamp 30 300 v))
  | .tSpread wing v =>
    onObject wing 4 fun w => underSetting s st (holdsFire st)
      (writeWingSetting s w .tSpread (fun r => r.tSpread) (fun r => { r with tSpread := spreadApplied v }) v
        (spreadApplied v))
  | .exitDelay wing v =>
    onObject wing 4 fun w => underSetting s st (holdsGuard s st w)
      (writeWingSetting s w .exitDelay (fun r => r.exitDelay) (fun r => { r with exitDelay := clamp 10 120 v }) v
        (clamp 10 120 v))
  | .vacancyPeriod zone v =>
    onSettingZone s zone fun z => underSetting s st (holdsGuard s st (s.wingOf z))
      (doneApplied
        (settingEntry (s.modZone z fun r => { r with vacancyPeriod := vacancyApplied v })
          (decide ((s.zone z).vacancyPeriod ≠ vacancyApplied v)) (.zone z) (some (s.wingOf z)) .vacancyPeriod)
        [v] [vacancyApplied v])
  | .activityClass zone source value =>
    onSettingZone s zone fun z => underSetting s st (holdsGuard s st (s.wingOf z))
      (onValue value fun x =>
        done (settingEntry (s.modZone z fun r => { r with classes := r.classes.put source x })
          (decide ((s.zone z).classes.of source ≠ x)) (.zone z) (some (s.wingOf z)) (.activityClass source)))

def execWriteSettingZoneWing (setting : ZoneWingSetting) (s : State) : Host.Outcome State Fault Refusal :=
  runCommand (.writeSettingZoneWing setting) (doWriteSettingZoneWing setting) s

/-- Whether the upper loop of a pair holds any address before its first END (R21). -/
def upperListHolds (s : State) (l : Fin 4) : Bool :=
  match s.slot (upperLoop (pairOf l)) 0 with
  | .address _ _ => true
  | .endMark => false

/-- The pending mode after a write of a mode in service (R21): none where it equals the current mode. -/
def pendingAfter (current m : LoopMode) : Option LoopMode := if m = current then none else some m

/-- SETTING_CHANGED of a loop: it names the loop and no wing (R21). -/
def loopSettingEntry (s : State) (changed : Bool) (l : Fin 4) (x : SettingName) : State :=
  settingEntry s changed (.loop l) none x

/-- A write of a loop's mode: directly in CONFIGURING (R19), as a pending mode in service (R21). MIRRORED for loop 2
or 3 is BAD_VALUE, also where the pair is MIRRORED already. (DEDUCED, log entry 42.) -/
def writeLoopMode (s : State) (l : Fin 4) (m : LoopMode) : Verdict :=
  need (decide (m = .independent) || decide (l.val < 2)) .badValue
    (if s.inService then
      need (!(decide (m = .mirrored) && decide ((s.loop l).mode = .independent) && upperListHolds s l)) .inUse
        (done (loopSettingEntry
          (writePairMode s l fun r => { r with pendingMode := pendingAfter r.mode m })
          (decide ((s.loop l).pendingMode ≠ pendingAfter (s.loop l).mode m)) l .loopMode))
    else
      done (loopSettingEntry (configureMode s l m) (decide ((s.loop l).mode ≠ m)) l .loopMode))

/-- WRITE SETTING for a loop setting (R21). -/
def doWriteSettingLoop (loop : Nat) (setting : LoopSetting) (st : Station) (s : State) : Verdict :=
  onObject loop 4 fun l => need (!s.inService || (s.loop l).inUse) .badObject
    (underSetting s st (servesLoop s st l)
      (match setting with
        | .scanInterval v =>
          doneApplied
            (loopSettingEntry (s.modLoop l fun r => { r with scanInterval := clamp 1 10 v })
              (decide ((s.loop l).scanInterval ≠ clamp 1 10 v)) l .scanInterval)
            [v] [clamp 1 10 v]
        | .settlePeriod v =>
          doneApplied
            (loopSettingEntry (s.modLoop l fun r => { r with settlePeriod := clamp 5 60 v })
              (decide ((s.loop l).settlePeriod ≠ clamp 5 60 v)) l .settlePeriod)
            [v] [clamp 5 60 v]
        | .mode m => onValue m fun m => writeLoopMode s l m))

def execWriteSettingLoop (loop : Nat) (setting : LoopSetting) (s : State) : Host.Outcome State Fault Refusal :=
  runCommand (.writeSettingLoop loop setting) (doWriteSettingLoop loop setting) s

/-- WRITE SETTING for a door setting (R96). The entry names the wing that the side A zone's record keeps, also where the
door or that zone is not configured. (DEDUCED, log entry 56.) -/
def doWriteSettingDoor (door : Nat) (setting : DoorSetting) (st : Station) (s : State) : Verdict :=
  onObject door 48 fun d => need (!s.inService || (s.door d).configured) .badObject
    (underSetting s st (holdsGuard s st (s.doorWing d))
      (match setting with
        | .tPass v =>
          doneApplied
            (settingEntry (s.modDoor d fun r => { r with tPass := clamp 3 30 v })
              (decide ((s.door d).tPass ≠ clamp 3 30 v)) (.door d) (some (s.doorWing d)) .tPass)
            [v] [clamp 3 30 v]
        | .tHeld v =>
          doneApplied
            (settingEntry (s.modDoor d fun r => { r with tHeld := clamp 10 600 v })
              (decide ((s.door d).tHeld ≠ clamp 10 600 v)) (.door d) (some (s.doorWing d)) .tHeld)
            [v] [clamp 10 600 v]))

def execWriteSettingDoor (door : Nat) (setting : DoorSetting) (s : State) : Host.Outcome State Fault Refusal :=
  runCommand (.writeSettingDoor door setting) (doWriteSettingDoor door setting) s

/-- A next desk after a new desk list: a position beyond its length becomes position 1 (R115). -/
def placeWithin (len : Nat) : Place → Place
  | .position k => if k ≤ len then .position k else .position 1
  | .evac => .evac

/-- A point's state after a new desk list (R115). -/
def PointState.relisted (len : Nat) : PointState → PointState
  | .active h => .active { h with next := placeWithin len h.next }
  | .idle => .idle
  | .latched => .latched

/-- A desk list is written; a change has its entry, and in service an offering round follows (R115). The entry names the
wing that the point's zone keeps, also where the point or that zone is not configured. (DEDUCED, log entry 56.) -/
def writeDeskList (s : State) (c : Fin 64) (desks : List (Fin 8)) : State :=
  if (s.point c).deskList = desks then s
  else
    let s1 := s.modPoint c fun p => { p with deskList := desks, state := p.state.relisted desks.length }
    let s2 := append s1 .settingChanged (.point c) (some (s.wingOf (s.point c).zone)) (.setting .deskList)
    if s.inService then offeringRound s2 else s2

/-- WRITE SETTING for a desk list (R115). -/
def doWriteSettingDeskList (point : Nat) (desks : List Nat) (st : Station) (s : State) : Verdict :=
  onObject point 64 fun c => need (!s.inService || (s.point c).configured) .badObject
    (onObjects desks 8 fun desks =>
      underSetting s st (holdsService s st (s.wingOf (s.point c).zone))
        (need (decide ((s.point c).kind = .help) && deskListFits .help desks) .badValue
          (done (writeDeskList s c desks))))

def execWriteSettingDeskList (point : Nat) (desks : List Nat) (s : State) : Host.Outcome State Fault Refusal :=
  runCommand (.writeSettingDeskList point desks) (doWriteSettingDeskList point desks) s

/-- WRITE SETTING for T_offer (R115). -/
def doWriteSettingTOffer (desk value : Nat) (st : Station) (s : State) : Verdict :=
  onObject desk 8 fun k => underSetting s st (holdsFire st || ownsDesk s st k)
    (doneApplied
      (settingEntry (s.modDesk k fun d => { d with tOffer := clamp 10 120 value })
        (decide ((s.desk k).tOffer ≠ clamp 10 120 value)) .none none .tOffer)
      [value] [clamp 10 120 value])

def execWriteSettingTOffer (desk value : Nat) (s : State) : Host.Outcome State Fault Refusal :=
  runCommand (.writeSettingTOffer desk value) (doWriteSettingTOffer desk value) s

/-- Whether a station may write a group's routing (R161). -/
def mayRoute (st : Station) (g : Group) : Bool :=
  match st with
  | .fire => true
  | .services => match g with
    | .fault | .output | .system => true
    | .fire | .security | .door | .call | .route => false
  | .guard => match g with
    | .security | .door | .call => true
    | .fire | .fault | .route | .output | .system => false

/-- The set applied to a group: FIRE and ROUTE keep the fire station (R161). -/
def routingApplied (g : Group) (x : StationSet) : StationSet :=
  match g with
  | .fire | .route => { x with fire := true }
  | .fault | .security | .door | .call | .output | .system => x

/-- The routing table with a group's set written, and for CALL its by-desk mark (R161). -/
def Routing.write (r : Routing) (g : Group) (x : StationSet) (byDesk : Bool) : Routing :=
  match g with
  | .fire => { r with fire := x }
  | .fault => { r with fault := x }
  | .security => { r with security := x }
  | .door => { r with door := x }
  | .call => { r with call := x, callByDesk := byDesk }
  | .route => { r with route := x }
  | .output => { r with output := x }
  | .system => { r with system := x }

/-- A group's routing is written; a change has its entry, routed by the new table (R161). -/
def writeRouting (s : State) (g : Group) (x : StationSet) (byDesk : Bool) : State :=
  let r := s.routing.write g (routingApplied g x) byDesk
  if s.routing = r then s else appendPart { s with routing := r } .settingChanged (.setting (.routing g))

/-- WRITE SETTING for a group's routing (R161). In CONFIGURING the station needs CONFIG authority first, and the
checks of service follow, the station's own groups among them. (DEDUCED, log entry 26: the authority in service
depends on the group, so a group outside the eight is BAD_VALUE for every station there.) -/
def doWriteSettingRouting (group : Option Group) (stations : Option StationSet) (byDesk : Bool) (st : Station)
    (s : State) : Verdict :=
  need (s.inService || holdsConfig st) .notPermitted
    (onValue group fun g => need (mayRoute st g) .notPermitted
      (onValue stations fun x =>
        if routingApplied g x = x then done (writeRouting s g x byDesk)
        else .taken (writeRouting s g x byDesk) .doneAdjusted (.appliedRouting (routingApplied g x))))

def execWriteSettingRouting (group : Option Group) (stations : Option StationSet) (byDesk : Bool) (s : State) :
    Host.Outcome State Fault Refusal :=
  runCommand (.writeSettingRouting group stations byDesk) (doWriteSettingRouting group stations byDesk) s

/-- The rights with one category granted or withdrawn (R170). -/
def Rights.write (r : Rights) (c : Category) (granted : Bool) : Rights :=
  match c with
  | .guard => { r with guard := granted }
  | .service => { r with service := granted }

/-- The authority map is written; a change has its entry, which names the wing (R170) and has it as its subject.
(DESIGN CHOICE, log entry 14.) -/
def writeAuthority (s : State) (x : Station) (w : Fin 4) (c : Category) (granted : Bool) : State :=
  let old := s.authority.of x w
  if old = old.write c granted then s
  else
    append { s with authority := s.authority.put x w (old.write c granted) } .settingChanged (.wing w) (some w)
      (.setting (.authority x c))

/-- WRITE SETTING for the authority map (R170): the fire station alone, in both part states. -/
def doWriteSettingAuthority (station : Option Station) (wing : Nat) (category : Option Category) (granted : Bool)
    (st : Station) (s : State) : Verdict :=
  onObject wing 4 fun w => need (holdsFire st) .notPermitted
    (onValue station fun x => onValue category fun c => done (writeAuthority s x w c granted))

def execWriteSettingAuthority (station : Option Station) (wing : Nat) (category : Option Category)
    (granted : Bool) (s : State) : Host.Outcome State Fault Refusal :=
  runCommand (.writeSettingAuthority station wing category granted)
    (doWriteSettingAuthority station wing category granted) s

end Sys2Proof.Machine
end

