-- ==== Sys2Proof/Machine/StationPort.lean ====
section
/-! DEFINITION. The station ports (11.1 to 11.3): the check of a frame, the hunt for the next frame in the bytes a
port holds, what a valid frame does, the end of a transmission, and the loss of a link. -/

set_option autoImplicit false

namespace Sys2Proof.Machine

/-! ### Frames (R165) -/

/-- One bit of the CRC-16 with polynomial 1021, unreflected (R165). -/
def crcBit (c : BitVec 16) : BitVec 16 := if c.msb then (c <<< 1) ^^^ 0x1021#16 else c <<< 1

/-- `n` bits of the CRC. -/
def crcBits : Nat → BitVec 16 → BitVec 16
  | 0, c => c
  | n + 1, c => crcBits n (crcBit c)

/-- One byte of the CRC. -/
def crcByte (c : BitVec 16) (b : Byte) : BitVec 16 := crcBits 8 (c ^^^ (b.zeroExtend 16 <<< 8))

/-- The check of a run of bytes: initial value FFFF, no final exclusive-or (R165). -/
def crc (bytes : List Byte) : BitVec 16 := bytes.foldl crcByte 0xFFFF#16

/-- The marker byte (11.6). -/
def frameMarker : Byte := 0xA5#8
/-- The kind of a COMMAND frame (11.6). -/
def commandKind : Byte := 0x01#8
/-- The kind of a QUERY frame (11.6). -/
def queryKind : Byte := 0x02#8

/-- A valid frame's kind, tag and body. -/
structure Frame where
  kind : Byte
  tag : Byte
  body : List Byte
  deriving DecidableEq, Repr

/-- A frame as the line carries it: marker, kind, tag, length, body and check, high byte first (11.6). -/
def Frame.bytes (f : Frame) : List Byte :=
  let checked := [f.kind, f.tag, BitVec.ofNat 8 f.body.length] ++ f.body
  let c := crc checked
  [frameMarker] ++ checked ++ [c.extractLsb' 8 8, c.extractLsb' 0 8]

/-- What the bytes after a marker are: a frame that is discarded, one that is not whole yet, or a valid frame
with the bytes behind it (R165). -/
inductive FrameCheck
  | discarded
  | incomplete
  | valid (frame : Frame) (rest : List Byte)
  deriving DecidableEq, Repr

/-- The check of the bytes after a marker (R165). -/
def checkFrame : List Byte → FrameCheck
  | kind :: tag :: length :: rest =>
    if Config.bodyMax < length.toNat then .discarded
    else
      let body := rest.take length.toNat
      match rest.drop length.toNat with
      | high :: low :: more =>
        if crc ([kind, tag, length] ++ body) = high ++ low then .valid { kind := kind, tag := tag, body := body } more
        else .discarded
      | _ => .incomplete
  | _ => .incomplete

/-- What a port finds in the bytes it holds: a valid frame, if any, and the bytes it goes on holding. -/
structure Heard where
  frame : Option Frame
  held : List Byte
  deriving DecidableEq, Repr

/-- The hunt for the first valid frame, starting anew at the byte after a discarded frame's marker (R165). -/
def hunt : List Byte → Heard
  | [] => { frame := none, held := [] }
  | b :: rest =>
    if b = frameMarker then
      match checkFrame rest with
      | .valid f more => { frame := some f, held := more }
      | .incomplete => { frame := none, held := b :: rest }
      | .discarded => hunt rest
    else hunt rest

/-! ### A valid frame (R165 to R167) -/

/-- The request a frame carries. -/
def Frame.request (f : Frame) : Request := { tag := f.tag, body := f.body }

/-- A valid frame joins its queue or is answered at once; none is taken past 16 pending replies (R165, R167). -/
def queueFrame (s : State) (st : Station) (f : Frame) : State :=
  let p := s.port st
  if Config.replyMax ≤ p.replies.length then s
  else if f.kind = commandKind then
    if p.commands.length < Config.commandQueueMax then
      s.modPort st fun p => { p with commands := p.commands ++ [f.request] }
    else addReply s st (replyTo f.request .full .none)
  else if f.kind = queryKind then
    if p.queries.length < Config.queryQueueMax then
      s.modPort st fun p => { p with queries := p.queries ++ [f.request] }
    else addReply s st (replyTo f.request .full .none)
  else addReply s st (replyTo f.request .badValue .none)

/-- A port is CONNECTED with a full link silence timer (R166). -/
def loadSilence (s : State) (st : Station) : State :=
  s.modPort st fun p => { p with link := .connected Config.linkSilenceSeconds }

/-- A port takes a valid frame (R165, R166). While the part is CONFIGURING no round is run (R130). -/
def takeFrame (s : State) (st : Station) (f : Frame) : State :=
  if (s.port st).up then queueFrame (loadSilence s st) st f
  else
    let s1 := append (loadSilence s st) .linkUp (.station st) none .none
    let s2 := queueFrame s1 st f
    if s2.inService then offeringRound s2 else s2

/-- The bytes a port holds of frames not yet taken. -/
def setReceived (s : State) (st : Station) (bytes : List Byte) : State :=
  s.modPort st fun p => { p with received := bytes }

/-- FRAME RECEIVED: bytes arrive at a port, and it takes the first valid frame they complete (R165, R166). Bytes
that complete no frame are held, and what is discarded has no other effect. (DESIGN CHOICE, log entry 10.) -/
def execFrameReceived (port : Station) (bytes : List Byte) (s : State) : Host.Outcome State Fault Refusal :=
  let h := hunt ((s.port port).received ++ bytes)
  let s1 := setReceived s port h.held
  .next (endEvent s (match h.frame with
    | some f => takeFrame s1 port f
    | none => s1))

/-! ### The end of a transmission (R167) -/

/-- The event in which a frame has left its list, with the frame that went out. -/
def sentOut (before s : State) (st : Station) (x : SentFrame) : Host.Outcome State Fault Refusal :=
  .next { endEvent before s with stationOut := [(st, x)] }

/-- TRANSMISSION END: the reply or notice whose transmission ends leaves its list (R167, R163). With nothing
being sent the event does not occur. -/
def execTransmissionEnd (port : Station) (s : State) : Host.Outcome State Fault Refusal :=
  let p := s.port port
  match p.sending with
  | none => .next s
  | some .reply =>
    match p.replies with
    | r :: rest => sentOut s (s.modPort port fun p => { p with replies := rest, sending := none }) port (.reply r)
    | [] => .next s
  | some .notice =>
    match p.notices with
    | n :: rest => sentOut s (s.modPort port fun p => { p with notices := rest, sending := none }) port (.notice n)
    | [] => .next s

/-! ### The loss of a link (R166) -/

/-- A port after the loss of its link: its queues, replies and notices discarded, and its gap marker set where a
notice was (R166, R163). -/
def Port.lost (p : Port) : Port :=
  { p with
    link := .disconnected, commands := [], queries := [], replies := [], notices := [], sending := none
    gap := p.gap || !p.notices.isEmpty }

/-- Whether a wing waits for the fire station, in ACK_WAIT or INVESTIGATE (R68). -/
def Stage.waits : Stage → Bool
  | .ackWait _ | .investigate _ => true
  | .standby | .evacuate => false

/-- The Fire Sequence Unit takes the loss of the fire port (R68). -/
def loseFirePort (s : State) : State :=
  ((List.finRange 4).filter fun w => (s.wing w).stage.waits).foldl
    (fun t w => enterEvacuate t w .linkLoss) s

/-- The loss of a station's link (R166, R68, R127). (DESIGN CHOICE, log entry 11.) -/
def loseLink (s : State) (st : Station) : State :=
  let s1 := append (s.modPort st Port.lost) .linkLost (.station st) none .none
  let s2 := if st = .fire then loseFirePort s1 else s1
  loseDesks s2 st

/-- LINK SILENCE EXPIRY (R166): it occurs when the timer has run out. -/
def execLinkSilenceExpiry (port : Station) (s : State) : Host.Outcome State Fault Refusal :=
  if (s.port port).link = .connected 0 then .next (endEvent s (loseLink s port)) else .next s

end Sys2Proof.Machine
end

