-- ==== Sys2Proof/Machine/Dispatch.lean ====
section
/-! DEFINITION. The meaning of every command: one arm for each row of the opcode table. -/

namespace Sys2Proof.Machine

def exec (i : Instr) (s : State) : Host.Outcome State Fault Refusal :=
  match i with
  | .powerOn => Sys2Proof.Machine.execPowerOn s
  | .frameReceived port bytes => Sys2Proof.Machine.execFrameReceived port bytes s
  | .transmissionEnd port => Sys2Proof.Machine.execTransmissionEnd port s
  | .linkSilenceExpiry port => Sys2Proof.Machine.execLinkSilenceExpiry port s
  | .acknowledgeWing wing => Sys2Proof.Machine.execAcknowledgeWing wing s
  | .evacuateWing wing => Sys2Proof.Machine.execEvacuateWing wing s
  | .silenceWing wing revision => Sys2Proof.Machine.execSilenceWing wing revision s
  | .resetZone zone revision => Sys2Proof.Machine.execResetZone zone revision s
  | .resetWing wing revision => Sys2Proof.Machine.execResetWing wing revision s
  | .manualAlarmZone zone => Sys2Proof.Machine.execManualAlarmZone zone s
  | .markExitBlocked exit => Sys2Proof.Machine.execMarkExitBlocked exit s
  | .markExitOpen exit => Sys2Proof.Machine.execMarkExitOpen exit s
  | .disableDetector detector => Sys2Proof.Machine.execDisableDetector detector s
  | .enableDetector detector => Sys2Proof.Machine.execEnableDetector detector s
  | .restartLoop loop => Sys2Proof.Machine.execRestartLoop loop s
  | .start => Sys2Proof.Machine.execStart s
  | .restart => Sys2Proof.Machine.execRestart s
  | .enterConfiguration => Sys2Proof.Machine.execEnterConfiguration s
  | .setWingMode wing mode => Sys2Proof.Machine.execSetWingMode wing mode s
  | .armZone zone => Sys2Proof.Machine.execArmZone zone s
  | .disarmZone zone => Sys2Proof.Machine.execDisarmZone zone s
  | .clearBreach zone revision => Sys2Proof.Machine.execClearBreach zone revision s
  | .passDoor door => Sys2Proof.Machine.execPassDoor door s
  | .lockdownWing wing => Sys2Proof.Machine.execLockdownWing wing s
  | .endLockdown wing => Sys2Proof.Machine.execEndLockdown wing s
  | .reportPatrol zone => Sys2Proof.Machine.execReportPatrol zone s
  | .testZoneOn zone => Sys2Proof.Machine.execTestZoneOn zone s
  | .testZoneOff zone => Sys2Proof.Machine.execTestZoneOff zone s
  | .holdChannels first count => Sys2Proof.Machine.execHoldChannels first count s
  | .freeChannels first count => Sys2Proof.Machine.execFreeChannels first count s
  | .releaseDrive first count => Sys2Proof.Machine.execReleaseDrive first count s
  | .restoreDrive first count => Sys2Proof.Machine.execRestoreDrive first count s
  | .acceptCall point desk => Sys2Proof.Machine.execAcceptCall point desk s
  | .clearCall point => Sys2Proof.Machine.execClearCall point s
  | .setDeskCapacity desk capacity => Sys2Proof.Machine.execSetDeskCapacity desk capacity s
  | .writeEntryZone zone fields => Sys2Proof.Machine.execWriteEntryZone zone fields s
  | .writeEntryWing wing fields => Sys2Proof.Machine.execWriteEntryWing wing fields s
  | .writeEntryClass cls fields => Sys2Proof.Machine.execWriteEntryClass cls fields s
  | .writeEntryDetector detector fields => Sys2Proof.Machine.execWriteEntryDetector detector fields s
  | .writeEntryLoop loop inUse mode => Sys2Proof.Machine.execWriteEntryLoop loop inUse mode s
  | .writeEntryScanList loop slot fields => Sys2Proof.Machine.execWriteEntryScanList loop slot fields s
  | .writeEntryDoor door fields => Sys2Proof.Machine.execWriteEntryDoor door fields s
  | .writeEntryCallPoint point fields => Sys2Proof.Machine.execWriteEntryCallPoint point fields s
  | .writeEntryDesk desk fields => Sys2Proof.Machine.execWriteEntryDesk desk fields s
  | .writeEntryExit exit fields => Sys2Proof.Machine.execWriteEntryExit exit fields s
  | .writeEntryDescriptor index fields => Sys2Proof.Machine.execWriteEntryDescriptor index fields s
  | .writeEntryRouteList zone routes => Sys2Proof.Machine.execWriteEntryRouteList zone routes s
  | .writeEntrySign sign zone => Sys2Proof.Machine.execWriteEntrySign sign zone s
  | .writeEntryChannel channel polarity => Sys2Proof.Machine.execWriteEntryChannel channel polarity s
  | .writeSettingZoneWing setting => Sys2Proof.Machine.execWriteSettingZoneWing setting s
  | .writeSettingLoop loop setting => Sys2Proof.Machine.execWriteSettingLoop loop setting s
  | .writeSettingDoor door setting => Sys2Proof.Machine.execWriteSettingDoor door setting s
  | .writeSettingDeskList point deskList => Sys2Proof.Machine.execWriteSettingDeskList point deskList s
  | .writeSettingTOffer desk value => Sys2Proof.Machine.execWriteSettingTOffer desk value s
  | .writeSettingRouting group stations byDesk => Sys2Proof.Machine.execWriteSettingRouting group stations byDesk s
  | .writeSettingAuthority station wing category granted => Sys2Proof.Machine.execWriteSettingAuthority station wing category granted s
  | .status => Sys2Proof.Machine.execStatus s
  | .readZone zone => Sys2Proof.Machine.execReadZone zone s
  | .readWing wing => Sys2Proof.Machine.execReadWing wing s
  | .readDetector detector => Sys2Proof.Machine.execReadDetector detector s
  | .readLoop loop => Sys2Proof.Machine.execReadLoop loop s
  | .readDoor door => Sys2Proof.Machine.execReadDoor door s
  | .readCallQueue => Sys2Proof.Machine.execReadCallQueue s
  | .readCallPoint point => Sys2Proof.Machine.execReadCallPoint point s
  | .readRoute zone => Sys2Proof.Machine.execReadRoute zone s
  | .readExit exit => Sys2Proof.Machine.execReadExit exit s
  | .readChannel channel => Sys2Proof.Machine.execReadChannel channel s
  | .readLog first count => Sys2Proof.Machine.execReadLog first count s
  | .intervalTimerExpiry loop => Sys2Proof.Machine.execIntervalTimerExpiry loop s
  | .pollComplete loop reply => Sys2Proof.Machine.execPollComplete loop reply s
  | .mirroredPollComplete pair endA endB => Sys2Proof.Machine.execMirroredPollComplete pair endA endB s
  | .powerOffExpiry loop => Sys2Proof.Machine.execPowerOffExpiry loop s
  | .settleExpiry loop => Sys2Proof.Machine.execSettleExpiry loop s
  | .verifyTimerExpiry detector => Sys2Proof.Machine.execVerifyTimerExpiry detector s
  | .testTimerExpiry zone => Sys2Proof.Machine.execTestTimerExpiry zone s
  | .stageTimerExpiry wing => Sys2Proof.Machine.execStageTimerExpiry wing s
  | .spreadTimerExpiry wing => Sys2Proof.Machine.execSpreadTimerExpiry wing s
  | .presenceInput zone => Sys2Proof.Machine.execPresenceInput zone s
  | .vacancyTimerExpiry zone => Sys2Proof.Machine.execVacancyTimerExpiry zone s
  | .exitDelayExpiry zone => Sys2Proof.Machine.execExitDelayExpiry zone s
  | .contactInput door report => Sys2Proof.Machine.execContactInput door report s
  | .heldTimerExpiry door => Sys2Proof.Machine.execHeldTimerExpiry door s
  | .notClosedTimerExpiry door => Sys2Proof.Machine.execNotClosedTimerExpiry door s
  | .rexPress door => Sys2Proof.Machine.execRexPress door s
  | .rexGrantExpiry door => Sys2Proof.Machine.execRexGrantExpiry door s
  | .passGrantExpiry door => Sys2Proof.Machine.execPassGrantExpiry door s
  | .callPointInput point input => Sys2Proof.Machine.execCallPointInput point input s
  | .offerTimerExpiry point => Sys2Proof.Machine.execOfferTimerExpiry point s
  | .selectionPassEnd => Sys2Proof.Machine.execSelectionPassEnd s
  | .channelLineReport channel report => Sys2Proof.Machine.execChannelLineReport channel report s

end Sys2Proof.Machine
end

