-- ==== Sys2Proof/Safety.lean ====
section
/-! DEFINITION. The terms in which claims about the part are stated: frames over the pieces of the state, what a
step logs, what taking a request does to the ports, and the invariants of a sound run. -/

set_option autoImplicit false

namespace Sys2Proof.Machine

/-! ### Frames -/

/-- The pieces of the state, for statements of what an event leaves unchanged. -/
inductive Piece
  | part | seconds | zones | wings | loops | scanLists | converters | classes | detectors | doors | points
  | callQueue | desks | exits | descriptors | routeLists | signs | engine | channels | log | routing | authority
  | ports | executor | queryServer | fieldOut | stationOut | pending
  deriving DecidableEq, Repr

/-- Whether two states hold a piece alike. -/
def Same (s t : State) : Piece → Prop
  | .part => t.part = s.part
  | .seconds => t.seconds = s.seconds
  | .zones => t.zones = s.zones
  | .wings => t.wings = s.wings
  | .loops => t.loops = s.loops
  | .scanLists => t.scanLists = s.scanLists
  | .converters => t.converterA = s.converterA ∧ t.converterB = s.converterB
  | .classes => t.classes = s.classes
  | .detectors => t.detectors = s.detectors
  | .doors => t.doors = s.doors
  | .points => t.points = s.points
  | .callQueue => t.callQueue = s.callQueue
  | .desks => t.desks = s.desks
  | .exits => t.exits = s.exits
  | .descriptors => t.descriptors = s.descriptors
  | .routeLists => t.routeLists = s.routeLists
  | .signs => t.signs = s.signs
  | .engine => t.engine = s.engine
  | .channels => t.channels = s.channels
  | .log => t.log = s.log ∧ t.nextSequence = s.nextSequence
  | .routing => t.routing = s.routing
  | .authority => t.authority = s.authority
  | .ports => t.ports = s.ports
  | .executor => t.rotation = s.rotation ∧ t.fireBurst = s.fireBurst
  | .queryServer => t.lastQuery = s.lastQuery
  | .fieldOut => t.fieldOut = s.fieldOut
  | .stationOut => t.stationOut = s.stationOut
  | .pending => t.pending = s.pending

/-- Every piece outside a list is unchanged from `s` to `t`. -/
def OnlyIn (ps : List Piece) (s t : State) : Prop := ∀ p, p ∉ ps → Same s t p

/-- The pieces that any event may change at its end: a port's transmitter starts, and the messages of the event
before are gone. -/
def outward : List Piece := [.ports, .fieldOut, .stationOut]

/-- The pieces that the scans of the loops, their restarts and the requests waiting on them may reach (R24 to R36). -/
def scanning : List Piece := [.zones, .wings, .loops, .scanLists, .converters, .detectors, .exits, .engine, .log]

/-- The pieces that a change of one door's contact, grants or faults may reach (R97 to R100). -/
def entering : List Piece := [.zones, .wings, .doors, .channels, .log]

/-- Every piece that a zone alarm may reach, its scan, its evacuation and its exits included (R61 to R71, R132). -/
def alarming : List Piece := scanning ++ [.doors, .points, .callQueue, .desks, .channels]

/-- The pieces in which the taking of a command is answered (R167, R168). -/
def answering : List Piece := [.executor] ++ outward

/-- The pieces that an event which changes the inputs of a door's precedence also reaches (R103, R105). -/
def doorward : List Piece := [.doors, .channels]

/-- A door record less what the end of an event may change of any door: its value and cause (R103), which of the
two closed statuses it has (R99), and its not-closed timer (R105). -/
def Door.kept (d : Door) : Door :=
  { d with
    value := .unlock, cause := .schedule, notClosedTimer := none
    status := if d.status.isClosed then .closedLocked else d.status }

/-- Every door keeps all that the end of an event does not write. -/
def DoorsKept (s t : State) : Prop := ∀ n : Fin 48, (t.door n).kept = (s.door n).kept

/-- A channel record less the values its owner writes and what follows from them. -/
def Channel.kept (c : Channel) : Channel := { c with source := .off, latched := .off, effective := .off }

/-- Outside the DOOR channels and a list of others every channel is unchanged, and no channel changes more than
its values. -/
def ChannelsKept (written : List (Fin 276)) (s t : State) : Prop :=
  ∀ n : Fin 276, (t.channel n).kept = (s.channel n).kept
    ∧ (48 ≤ n.val → n ∉ written → t.channel n = s.channel n)

/-- A selection-pass trigger has reached the Route Engine in the event from `s` to `t` (R137): an idle engine has started
a pass whose view is of the state that the event leaves, and a pass under way has its repeat flag. -/
def Triggered (s t : State) : Prop :=
  match s.engine with
  | .passing v _ => t.engine = .passing v true
  | .idle | .opening => t.engine = .passing (takeView t) false

/-! ### What an event logs -/

/-- An entry without its sequence and time. -/
structure LogItem where
  kind : EntryKind
  subject : Subject
  wing : Option (Fin 4)
  detail : Detail
  deriving DecidableEq, Repr

/-- The log and its next sequence. -/
structure LogState where
  entries : List Entry
  next : Nat
  deriving DecidableEq, Repr

/-- The log after one entry (R158, R159): above the last sequence it starts anew at 1. -/
def LogState.extend (time : Seconds) (l : LogState) (x : LogItem) : LogState :=
  let n := if l.next > Config.sequenceMax then 1 else l.next
  let held := if l.next > Config.sequenceMax then [] else l.entries
  let e : Entry :=
    { sequence := n, time := time, kind := x.kind, subject := x.subject, wing := x.wing, detail := x.detail }
  { entries := if held.length < Config.logMax then held ++ [e] else held.tail ++ [e], next := n + 1 }

/-- The log of `t` is that of `s` with the entries `xs` added at the time of `s`. -/
def Logged (s t : State) (xs : List LogItem) : Prop :=
  { entries := t.log, next := t.nextSequence : LogState }
    = xs.foldl (LogState.extend s.seconds) { entries := s.log, next := s.nextSequence }

/-- The log of `t` is that of `s` with `xs` and then perhaps further entries added. -/
def LoggedFirst (s t : State) (xs : List LogItem) : Prop := ∃ more : List LogItem, Logged s t (xs ++ more)

/-- The entries `xs` stand one behind the other among those that the log of `t` has more than that of `s`. -/
def LoggedRun (s t : State) (xs : List LogItem) : Prop :=
  ∃ before after : List LogItem, Logged s t (before ++ xs ++ after)

/-- The entry `x` is among those that the log of `t` has more than that of `s`. -/
def LoggedAmong (s t : State) (x : LogItem) : Prop := LoggedRun s t [x]

/-- The entries that one occurrence at a door appends (R111): one that names the door's owning wing, and where side B is
a zone of another wing the same one again, naming that wing. -/
def doorEntries (s : State) (n : Fin 48) (kind : EntryKind) (detail : Detail) : List LogItem :=
  let item (w : Fin 4) : LogItem := { kind := kind, subject := .door n, wing := some w, detail := detail }
  item (s.doorWing n)
    :: (((s.door n).sideB.toList.map s.wingOf).filter fun w => decide (w ≠ s.doorWing n)).map item

/-- The notices and the gap marker that the append of an entry leaves a port (R158, R162, R163). `wraps` tells that the
sequence wraps, which sets every marker before the notice is offered (log entry 48), and `sent` that the port's station is
one of the entry's: a CONNECTED port with room queues the notice, with GAP where the marker stood, and clears the marker;
a full or a DISCONNECTED one drops it and sets the marker. -/
def NoticeTaken (wraps sent : Bool) (n : Notice) (p q : Port) : Prop :=
  q.notices
      = p.notices
        ++ (if sent = true ∧ q.up = true ∧ p.notices.length < Config.noticeQueueMax then
            [{ n with gap := p.gap || wraps }] else [])
    ∧ q.gap
      = (if sent = true then !(q.up && decide (p.notices.length < Config.noticeQueueMax)) else p.gap || wraps)

/-- The entry that an append in `s` makes of an item: the next sequence, or 1 where it wraps, and the time (R158). -/
def LogItem.entryIn (x : LogItem) (s : State) : Entry :=
  { sequence := if Config.sequenceMax < s.nextSequence then 1 else s.nextSequence, time := s.seconds, kind := x.kind
    subject := x.subject, wing := x.wing, detail := x.detail }

/-- The one entry `x`, no CALL_OFFER, that the event from `s` to `t` has appended was offered as a notice to the ports of
the stations `sentTo`, and to no other (R162): with its sequence and time, and the revision it left to the wing it names. -/
def Noticed (s t : State) (x : LogItem) (sentTo : Station → Bool) : Prop :=
  ∀ st : Station,
    NoticeTaken (decide (Config.sequenceMax < s.nextSequence)) (sentTo st)
      { entry := x.entryIn s, revision := x.wing.map fun w => (t.wing w).revision, call := none, gap := false }
      (s.port st) (t.port st)

/-- No port has a notice more or less, or another gap marker. -/
def NoticesKept (s t : State) : Prop :=
  ∀ st : Station, (t.port st).notices = (s.port st).notices ∧ (t.port st).gap = (s.port st).gap

/-! ### What an event sends the field (R150) -/

/-- The value of a channel in wire sense (R150): on a DOOR or LIGHT channel ASSERTED for LOCK, HOLD and ON under NORMAL
and for the other values under INVERTED, and on every other channel the effective value itself. -/
def wireSense (n : Fin 276) (c : Channel) : WireValue :=
  if n.val < 48 ∨ 208 ≤ n.val ∧ n.val < 272 then
    if (c.effective = .lock ∨ c.effective = .hold ∨ c.effective = .on) ↔ c.polarity = .normal then .asserted
    else .negated
  else .plain c.effective

/-- The message of a channel: its number and drive, and its value while ENABLED (R150). -/
def fieldMessage (n : Fin 276) (c : Channel) : ChannelMessage :=
  { channel := n, drive := c.drive, value := if c.drive = .enabled then some (wireSense n c) else none }

/-- The event from `s` to `t` has sent the field one message of each channel whose drive it changed, or whose effective
value it changed while its drive is ENABLED, and of no other channel (R150). -/
def MessagesSent (s t : State) : Prop :=
  (t.fieldOut.map fun m => m.channel).Nodup
    ∧ (∀ n : Fin 276, n ∈ (t.fieldOut.map fun m => m.channel)
      ↔ (t.channel n).drive ≠ (s.channel n).drive
        ∨ (t.channel n).drive = .enabled ∧ (t.channel n).effective ≠ (s.channel n).effective)
    ∧ ∀ m ∈ t.fieldOut, m = fieldMessage m.channel (t.channel m.channel)

/-! ### Taking a command, answering a query -/

/-- The executor's next command spells `i`, and no selection pass is left half started. -/
def Ready (i : Instr) (s : State) (x : TakenRequest) : Prop :=
  s.engine ≠ .opening ∧ nextCommand s = some x ∧ decodeCommand x.request.body = .row i

/-- The query server's next query spells `i`, and no selection pass is left half started. -/
def Asked (i : Instr) (s : State) (x : TakenRequest) : Prop :=
  s.engine ≠ .opening ∧ nextQuery s = some x ∧ decodeQuery x.request.body = .row i

/-- The ports after the taking of a command: it has left its queue, its reply is the newest of its port, and the
links, the received bytes and the queries are as they were (R167). -/
def PortsAnswered (x : TakenRequest) (r : Reply) (s t : State) : Prop :=
  ∀ st : Station,
    (t.port st).link = (s.port st).link ∧ (t.port st).received = (s.port st).received
      ∧ (t.port st).queries = (s.port st).queries
      ∧ (t.port st).commands = (if st = x.port then (s.port st).commands.tail else (s.port st).commands)
      ∧ (t.port st).replies = (if st = x.port then (s.port st).replies ++ [r] else (s.port st).replies)

/-- The state `t` after the command of `x` was taken in `s` and answered with a code and data. -/
def TakenAs (x : TakenRequest) (code : ReplyCode) (data : ReplyData) (s t : State) : Prop :=
  PortsAnswered x (replyTo x.request code data) s t ∧ t.rotation = x.state.rotation ∧ t.fireBurst = x.state.fireBurst

/-- The command `i` completes in `s`: its event answers a code and data and leaves a state with `P`. -/
def Completes (i : Instr) (s : State) (x : TakenRequest) (code : ReplyCode) (data : ReplyData) (P : State → Prop) :
    Prop :=
  ∃ t, exec i s = .next t ∧ TakenAs x code data s t ∧ P t

/-- The command `i` is answered in `s` and does nothing else: no record, no entry and no output changes (R169). -/
def AnswersOnly (i : Instr) (s : State) (x : TakenRequest) (code : ReplyCode) : Prop :=
  Completes i s x code .none fun t => OnlyIn answering s t ∧ t.fieldOut = []

/-- The query of `x` was answered in `s` with a code and data, and nothing else changed (R167). -/
def AnsweredAs (x : TakenRequest) (code : ReplyCode) (data : ReplyData) (s t : State) : Prop :=
  (∀ st : Station,
      (t.port st).link = (s.port st).link ∧ (t.port st).received = (s.port st).received
        ∧ (t.port st).commands = (s.port st).commands ∧ (t.port st).notices = (s.port st).notices
        ∧ (t.port st).queries = (if st = x.port then (s.port st).queries.tail else (s.port st).queries)
        ∧ (t.port st).replies
          = (if st = x.port then (s.port st).replies ++ [replyTo x.request code data] else (s.port st).replies))
    ∧ t.lastQuery = x.port ∧ OnlyIn ([Piece.queryServer] ++ outward) s t ∧ t.fieldOut = []

/-- The query `i` is answered in `s` with a code and data. -/
def Answers (i : Instr) (s : State) (x : TakenRequest) (code : ReplyCode) (data : ReplyData) : Prop :=
  ∃ t, exec i s = .next t ∧ AnsweredAs x code data s t

/-- The commands that are refused while the part is CONFIGURING (R169, check 2). -/
def isRuntime : Instr → Bool
  | .acknowledgeWing _ | .evacuateWing _ | .silenceWing _ _ | .resetZone _ _ | .resetWing _ _ | .manualAlarmZone _
  | .markExitBlocked _ | .markExitOpen _ | .disableDetector _ | .enableDetector _ | .restartLoop _ | .restart
  | .enterConfiguration | .setWingMode _ _ | .armZone _ | .disarmZone _ | .clearBreach _ _ | .passDoor _
  | .lockdownWing _ | .endLockdown _ | .reportPatrol _ | .testZoneOn _ | .testZoneOff _ | .holdChannels _ _
  | .freeChannels _ _ | .releaseDrive _ _ | .restoreDrive _ _ | .acceptCall _ _ | .clearCall _
  | .setDeskCapacity _ _ => true
  | _ => false

/-- The commands that are refused while the part is IN_SERVICE (R169, check 2). -/
def isConfiguring : Instr → Bool
  | .start | .writeEntryZone _ _ | .writeEntryWing _ _ | .writeEntryClass _ _ | .writeEntryDetector _ _
  | .writeEntryLoop _ _ _ | .writeEntryScanList _ _ _ | .writeEntryDoor _ _ | .writeEntryCallPoint _ _
  | .writeEntryDesk _ _ | .writeEntryExit _ _ | .writeEntryDescriptor _ _ | .writeEntryRouteList _ _
  | .writeEntrySign _ _ | .writeEntryChannel _ _ => true
  | _ => false

/-- A number names no object of a table of `size` whose use a condition allows. -/
def namesNone {size : Nat} (n : Nat) (allowed : Fin size → Prop) : Prop := ∀ k : Fin size, k.val = n → ¬ allowed k

/-- The object that a runtime command names is outside its range, or its owner refuses it as unconfigured (R169,
check 3). The four maintenance commands of the output stage and the commands without an object name none here. -/
def NamesMissing (s : State) : Instr → Prop
  | .acknowledgeWing w | .evacuateWing w | .silenceWing w _ | .resetWing w _ | .setWingMode w _ | .lockdownWing w
  | .endLockdown w => 4 ≤ w
  | .resetZone z _ | .manualAlarmZone z | .armZone z | .disarmZone z | .clearBreach z _ | .reportPatrol z
  | .testZoneOn z | .testZoneOff z => namesNone z fun k : Fin 64 => (s.zone k).configured = true
  | .markExitBlocked e | .markExitOpen e => namesNone e fun k : Fin 16 => (s.exit k).configured = true
  | .disableDetector n | .enableDetector n => namesNone n fun k : Fin 192 => s.detector k ≠ none
  | .restartLoop l => namesNone l fun k : Fin 4 => (s.loop k).inUse = true
  | .passDoor n => namesNone n fun k : Fin 48 => (s.door k).configured = true
  | .acceptCall c k => namesNone c (fun k : Fin 64 => (s.point k).configured = true) ∨ 8 ≤ k
  | .clearCall c => namesNone c fun k : Fin 64 => (s.point k).configured = true
  | .setDeskCapacity k _ => 8 ≤ k
  | _ => False

/-- A station lacks the authority that a runtime command needs on the wing of its object, or is not the station it
is bound to (R169, check 4). CLEAR CALL and the maintenance of channels have statements of their own. -/
def Unauthorised (s : State) (st : Station) : Instr → Prop
  | .acknowledgeWing _ | .evacuateWing _ | .silenceWing _ _ | .resetZone _ _ | .resetWing _ _ | .manualAlarmZone _
  | .markExitBlocked _ | .markExitOpen _ | .restart | .enterConfiguration => st ≠ .fire
  | .setWingMode w _ | .lockdownWing w | .endLockdown w => namesNone w fun k : Fin 4 => holdsGuard s st k = true
  | .armZone z | .disarmZone z | .clearBreach z _ | .reportPatrol z =>
    namesNone z fun k : Fin 64 => holdsGuard s st (s.wingOf k) = true
  | .passDoor n => namesNone n fun k : Fin 48 => holdsGuard s st (s.doorWing k) = true
  | .testZoneOn z | .testZoneOff z => namesNone z fun k : Fin 64 => holdsService s st (s.wingOf k) = true
  | .disableDetector n | .enableDetector n =>
    st ≠ .fire ∧ namesNone n fun k : Fin 192 => ∃ d, s.detector k = some d ∧ holdsService s st (s.wingOf d.zone) = true
  | .restartLoop l => st ≠ .fire ∧ namesNone l fun k : Fin 4 => servesLoop s st k = true
  | .acceptCall _ k => namesNone k fun d : Fin 8 => (s.desk d).owner = some st
  | .setDeskCapacity k _ => st ≠ .fire ∧ namesNone k fun d : Fin 8 => (s.desk d).owner = some st
  | _ => False

/-- An event occurs in `s` and leaves a state with `P`. -/
def Occurs (i : Instr) (s : State) (P : State → Prop) : Prop := ∃ t, exec i s = .next t ∧ P t

/-- Every event that is no command's and no query's leaves the queues and the links of the ports as they were. -/
def PortsQuiet (s t : State) : Prop :=
  ∀ st : Station,
    (t.port st).link = (s.port st).link ∧ (t.port st).received = (s.port st).received
      ∧ (t.port st).commands = (s.port st).commands ∧ (t.port st).queries = (s.port st).queries
      ∧ (t.port st).replies = (s.port st).replies

/-- The expiries that are due in a state: a timer that stands at 0 has run out. A mirrored pair's are those of its
lower loop (R28). -/
def ExpiryDue (t : State) : Instr → Prop
  | .linkSilenceExpiry st => (t.port st).link = .connected 0
  | .powerOffExpiry l => isMirroredUpper t l = false ∧ (t.loop l).state = .restarting .powerOff 0
  | .settleExpiry l => isMirroredUpper t l = false ∧ (t.loop l).state = .restarting .settle 0
  | .intervalTimerExpiry l => isMirroredUpper t l = false ∧ (t.loop l).intervalTimer = some 0
  | .verifyTimerExpiry n => ∃ d, t.detector n = some d ∧ d.state = .verifying 0
  | .testTimerExpiry z => (t.zone z).testTimer = some 0
  | .vacancyTimerExpiry z => (t.zone z).vacancyTimer = some 0
  | .exitDelayExpiry z => (t.zone z).security = .exitDelay 0
  | .stageTimerExpiry w => (t.wing w).stage = .ackWait 0 ∨ (t.wing w).stage = .investigate 0
  | .spreadTimerExpiry w => (t.wing w).spreadTimer = some 0
  | .rexGrantExpiry n => (t.door n).rex = some (.counting 0)
  | .passGrantExpiry n => (t.door n).pass = some (.counting 0)
  | .heldTimerExpiry n => (t.door n).heldTimer = some 0
  | .notClosedTimerExpiry n => (t.door n).notClosedTimer = some 0
  | .offerTimerExpiry c => ∃ h k, t.call c = some h ∧ h.phase = .offered k 0
  | _ => False

/-! ### Invariants -/

/-- The alarm log: at most 512 entries, in strictly rising sequence, each at least 1 and below the next one
(R158, R159). -/
def LogOk (s : State) : Prop :=
  s.log.length ≤ Config.logMax ∧ 1 ≤ s.nextSequence ∧ s.nextSequence ≤ Config.sequenceMax + 1
    ∧ (s.log.map fun e => e.sequence).Pairwise (· < ·)
    ∧ ∀ e ∈ s.log, 1 ≤ e.sequence ∧ e.sequence < s.nextSequence

/-- A station port: no queue past its places, nothing waiting at a port that is DISCONNECTED, and a silence timer
of at most 10 s (R163, R166, R167). -/
def Port.ok (p : Port) : Prop :=
  p.commands.length ≤ Config.commandQueueMax ∧ p.queries.length ≤ Config.queryQueueMax
    ∧ p.replies.length ≤ Config.replyMax ∧ p.notices.length ≤ Config.noticeQueueMax
    ∧ (match p.link with
      | .connected n => n ≤ Config.linkSilenceSeconds
      | .disconnected =>
        p.commands = [] ∧ p.queries = [] ∧ p.replies = [] ∧ p.notices = [] ∧ p.sending = none)

/-- Every port is sound, and the fire burst count is 0 to 4 (R168). -/
def PortsOk (s : State) : Prop := (∀ st : Station, (s.port st).ok) ∧ s.fireBurst ≤ Config.fireBurstMax

/-- The law of the output stage (R149): the effective value is the latched value while ENABLED and the fail value
while RELEASED, and a channel that follows has its source value latched. -/
def Channel.lawful (c : Channel) : Prop :=
  c.effective = (match c.drive with | .enabled => c.latched | .released => c.failValue)
    ∧ (c.latch = .follow → c.latched = c.source)

/-- What the end of every event leaves: lawful channels (R149), and no selection pass half started (R137). -/
def Settled (s : State) : Prop := (∀ n : Fin 276, (s.channel n).lawful) ∧ s.engine ≠ .opening

/-- The order of the call queue (R121): the call of point `a` stands before that of `b` by its priority, then by its
first press time, and then by its point. -/
def CallStandsBefore (s : State) (a b : Fin 64) : Prop :=
  ∀ x, s.call a = some x → ∀ y, s.call b = some y →
    x.priority.rank < y.priority.rank
      ∨ x.priority = y.priority ∧ (x.firstPress < y.firstPress ∨ x.firstPress = y.firstPress ∧ a < b)

/-- The places of a call's cycle (R116). -/
def callPlaces (s : State) (c : Fin 64) (h : HelpCall) : List Place :=
  (if h.priority = .evacAssist then [.evac] else [])
    ++ (List.range (s.point c).deskList.length).map fun i => .position (i + 1)

/-- The desk that a place of a call's cycle names (R116). -/
def placeDesk (s : State) (c : Fin 64) : Place → Option (Fin 8)
  | .evac => (s.wing (s.wingOf (s.point c).zone)).evacDesk
  | .position i => (s.point c).deskList[i - 1]?

/-- The places of a call's cycle as a round tries them: each once, starting with its next desk (R122). -/
def placesTried (s : State) (c : Fin 64) (h : HelpCall) : List Place :=
  (callPlaces s c h).dropWhile (fun p => decide (p ≠ h.next)) ++ (callPlaces s c h).takeWhile fun p => decide (p ≠ h.next)

/-- The port of a desk's owning station is CONNECTED. -/
def deskReached (s : State) (k : Fin 8) : Bool := (s.desk k).owner.any fun st => (s.port st).up

/-- A place names a desk that qualifies for an offer: its station is CONNECTED, and it has room (R122). -/
def placeQualifies (s : State) (c : Fin 64) (p : Place) : Bool :=
  (placeDesk s c p).any fun k => deskReached s k && decide ((s.desk k).offered.length < (s.desk k).capacity)

/-- No call waits for a desk that would take it: no place of the cycle of a RAISED call qualifies. Every event that might
let a waiting call reach a desk ends with an offering round (R122). -/
def NoneWaits (s : State) : Prop :=
  ∀ c : Fin 64, ∀ h, s.call c = some h → h.phase = .raised → ∀ p ∈ callPlaces s c h, placeQualifies s c p = false

/-- The call queue holds each point once, exactly the points with a call, and in the order of their priorities, first
press times and points; the offered calls of a desk are exactly the calls OFFERED there, and no more than its capacity;
the next desk of a call is a place of its cycle; a HELP point has a desk list; no call waits for a desk that would take
it; and while the part is CONFIGURING there is no call (R114, R116, R121, R122, R130). -/
def CallsOk (s : State) : Prop :=
  s.callQueue.Nodup ∧ (∀ c : Fin 64, c ∈ s.callQueue ↔ (s.call c).isSome) ∧ s.callQueue.Pairwise (CallStandsBefore s)
    ∧ (∀ k : Fin 8, (s.desk k).offered.Nodup ∧ (s.desk k).offered.length ≤ (s.desk k).capacity
      ∧ ∀ c : Fin 64, c ∈ (s.desk k).offered ↔ ∃ h, s.call c = some h ∧ ∃ n, h.phase = .offered k n)
    ∧ (∀ c : Fin 64, ∀ h, s.call c = some h → h.next ∈ callPlaces s c h ∧ (s.point c).deskList ≠ [])
    ∧ (∀ c : Fin 64, (s.point c).configured = true → (s.point c).kind = .help → (s.point c).deskList ≠ [])
    ∧ NoneWaits s
    ∧ (s.part = .configuring → s.callQueue = [] ∧ ∀ k : Fin 8, (s.desk k).offered = [])

/-! ### Offers (R122) -/

/-- The place of a call's cycle after the one that it holds (R116). -/
def placeFollowing (s : State) (c : Fin 64) (h : HelpCall) : Place := ((placesTried s c h).tail.head?).getD h.next

/-- The place at which a round offers a waiting call: the first one tried that qualifies, and the desk it names. -/
def FirstCandidate (s : State) (c : Fin 64) (h : HelpCall) (p : Place) (k : Fin 8) : Prop :=
  (placesTried s c h).find? (placeQualifies s c) = some p ∧ placeDesk s c p = some k

/-- The call `h` of a point has been offered to desk `k` at a place of its cycle: it is OFFERED there with the desk's
T_offer on its timer and that place as its next desk, it is one of the desk's offered calls, and CALL_OFFER is appended. -/
def OfferMade (s t : State) (c : Fin 64) (h : HelpCall) (p : Place) (k : Fin 8) : Prop :=
  t.call c = some { h with next := p, phase := .offered k (s.desk k).tOffer } ∧ c ∈ (t.desk k).offered
    ∧ LoggedAmong s t
      { kind := .callOffer, subject := .point c, wing := some (s.wingOf (s.point c).zone), detail := .desk k }

/-- A call is RAISED and a place of its cycle names desk `k`. -/
def waitsFor (s : State) (k : Fin 8) (c : Fin 64) : Bool :=
  (s.call c).any fun h => decide (h.phase = .raised) && (callPlaces s c h).any fun p => decide (placeDesk s c p = some k)

/-- The first call of the queue that waits for desk `k` is offered there, at the first place tried that names it. -/
def FirstWaitingOffered (k : Fin 8) (s t : State) : Prop :=
  ∀ d : Fin 64, s.callQueue.find? (waitsFor s k) = some d → ∀ h, s.call d = some h → ∀ p : Place,
    (placesTried s d h).find? (fun q => decide (placeDesk s d q = some k)) = some p → OfferMade s t d h p k

/-- The call of point `c` has left the offered calls of desk `k`, and the round that follows has given its place to the
first call that waits for the desk, where the desk's station is CONNECTED. -/
def PlacePassedOn (k : Fin 8) (c : Fin 64) (s t : State) : Prop :=
  (t.desk k).offered
      = (s.desk k).offered.filter (fun d => decide (d ≠ c))
        ++ (if deskReached s k then (s.callQueue.find? (waitsFor s k)).toList else [])
    ∧ (deskReached s k = true → FirstWaitingOffered k s t) ∧ ∀ j, j ≠ k → t.desk j = s.desk j

/-- The detector count and the impaired count of every zone are those of the detector table (R3, R15). -/
def CountsOk (s : State) : Prop :=
  ∀ z : Fin 64, (s.zone z).detectorCount = (s.detectorsOf z fun _ => true).length
    ∧ (s.zone z).impairedCount = (s.detectorsOf z fun d => d.state.impaired).length

/-- Every live setting lies in its range, and the fire station is in the sets of FIRE and ROUTE (R5, R21, R96,
R114, R161). -/
def SettingsOk (s : State) : Prop :=
  (∀ w : Fin 4, 5 ≤ (s.wing w).tAck ∧ (s.wing w).tAck ≤ 30 ∧ 30 ≤ (s.wing w).tInv ∧ (s.wing w).tInv ≤ 300
      ∧ ((s.wing w).tSpread = 0 ∨ 60 ≤ (s.wing w).tSpread ∧ (s.wing w).tSpread ≤ 900)
      ∧ 10 ≤ (s.wing w).exitDelay ∧ (s.wing w).exitDelay ≤ 120)
    ∧ (∀ z : Fin 64, (s.zone z).vacancyPeriod ∈ vacancySteps)
    ∧ (∀ l : Fin 4, 1 ≤ (s.loop l).scanInterval ∧ (s.loop l).scanInterval ≤ 10 ∧ 5 ≤ (s.loop l).settlePeriod
      ∧ (s.loop l).settlePeriod ≤ 60)
    ∧ (∀ n : Fin 48, 3 ≤ (s.door n).tPass ∧ (s.door n).tPass ≤ 30 ∧ 10 ≤ (s.door n).tHeld
      ∧ (s.door n).tHeld ≤ 600)
    ∧ (∀ k : Fin 8, 1 ≤ (s.desk k).capacity ∧ (s.desk k).capacity ≤ 4 ∧ 10 ≤ (s.desk k).tOffer
      ∧ (s.desk k).tOffer ≤ 120)
    ∧ s.routing.fire.fire = true ∧ s.routing.route.fire = true

/-- A wing with no evacuation (R80). -/
def Wing.quiet (r : Wing) : Prop := r.stage = .standby ∧ r.spreadTimer = none ∧ r.alerted = false ∧ r.lockdown = false

/-- A zone with no alarm, egress, test, arming or count of vacancy (R17). -/
def Zone.quiet (r : Zone) : Prop :=
  r.fire = .normal ∧ r.egress = false ∧ r.testTimer = none ∧ r.security = .disarmed ∧ r.vacancyTimer = none

/-- A loop that is off (R37). -/
def Loop.quiet (r : Loop) : Prop :=
  r.state = .off ∧ r.power = false ∧ r.scan = none ∧ r.due = false ∧ r.intervalTimer = none ∧ r.pendingMode = none
    ∧ r.lastStart = none ∧ r.breakPosition = none

/-- A door with no grant and no timer (R112). -/
def Door.quiet (d : Door) : Prop :=
  d.rex = none ∧ d.pass = none ∧ d.heldTimer = none ∧ d.notClosedTimer = none ∧ d.claims = 0

/-- While the part is CONFIGURING every runtime block stands at its configuring values: no fire sequence, no
activity, no call, no scan and no pass, and every channel FOLLOW and RELEASED (section 11.5). -/
def QuietWhileConfiguring (s : State) : Prop :=
  s.part = .configuring →
    (∀ w : Fin 4, (s.wing w).quiet) ∧ (∀ z : Fin 64, (s.zone z).quiet) ∧ (∀ l : Fin 4, (s.loop l).quiet)
      ∧ (∀ n : Fin 192, ∀ d, s.detector n = some d → d.state = .unmonitored ∨ d.state = .disabled)
      ∧ (∀ n : Fin 48, (s.door n).quiet) ∧ (∀ c : Fin 64, (s.point c).state = .idle) ∧ s.callQueue = []
      ∧ s.engine = .idle
      ∧ (∀ n : Fin 276, (s.channel n).latch = .follow ∧ (s.channel n).drive = .released)

/-- The egress flag of every configured zone is set exactly while its wing is in EVACUATE (R71, R72). -/
def EgressOk (s : State) : Prop :=
  QuietWhileConfiguring s
    ∧ ∀ z : Fin 64, (s.zone z).configured = true → ((s.zone z).egress = true ↔ s.evacuating (s.wingOf z) = true)

/-- A line of a door's precedence: whether it matches, and the value and the cause it gives. -/
structure PrecedenceLine where
  isMet : Bool
  value : ChannelValue
  cause : DoorCause
  deriving DecidableEq, Repr

/-- The lines of a configured door's precedence in their order: of a lockable door (R102), and of a FIRE_HOLD door
(R104). -/
def precedence (s : State) (d : Door) : List PrecedenceLine :=
  let w := s.wing (s.wingOf d.sideA)
  match d.kind with
  | .fireHold =>
    [ { isMet := d.sides.any fun z => (s.zone z).fire.inAlarm, value := .close, cause := .fire }
    , { isMet := decide (w.stage = .evacuate), value := .close, cause := .evacuate }
    , { isMet := decide (w.mode = .night), value := .close, cause := .night }
    , { isMet := true, value := .hold, cause := .schedule } ]
  | .secureEgress | .store =>
    [ { isMet := egressLine s d, value := .unlock, cause := .egress }
    , { isMet := d.rex.isSome, value := .unlock, cause := .rex }
    , { isMet := w.lockdown, value := .lock, cause := .lockdown }
    , { isMet := d.sides.any fun z => decide ((s.zone z).security = .armed), value := .lock, cause := .armed }
    , { isMet := d.pass.isSome, value := .unlock, cause := .pass }
    , { isMet := decide (w.mode = .openHours) && d.freeInOpenHours, value := .unlock, cause := .schedule }
    , { isMet := true, value := .lock, cause := .schedule } ]

/-- Every configured door has the value and the cause of the first line that matches, an unconfigured one gives its
channel UNLOCK, the channel has the door's value as its source, and a closed door has the status that matches the
channel's effective value (R95, R99, R102 to R104). -/
def DoorsOk (s : State) : Prop :=
  ∀ n : Fin 48,
    ((s.door n).configured = true →
      ((precedence s (s.door n)).find? fun x => x.isMet).map (fun x => (x.value, x.cause))
        = some ((s.door n).value, (s.door n).cause))
    ∧ ((s.door n).configured = false → (s.door n).value = .unlock)
    ∧ (s.channel (doorChannel n)).source = (s.door n).value
    ∧ ((s.door n).configured = true → (s.door n).status.isClosed = true →
      (s.door n).status = closedStatus (s.door n).kind (s.channel (doorChannel n)).effective)

/-- The pair a converter is held by, or kept for (R23). -/
def Holder.pairOf : Holder → Option (Fin 2)
  | .pair p => some p
  | .kept p => some p
  | .free => none
  | .loop _ => none

/-- The two loops of a pair hold one mode and one pending mode, which differs from the mode; a mirrored pair is in
use and holds one state, one scan, one due flag, one last scan start time and one break position, and its upper loop runs
no interval timer (R19, R21, R28); a converter is held by, or kept for, mirrored
pairs alone (R23); and while the part is CONFIGURING loops are off and converters free (R37). -/
def LoopPairsOk (s : State) : Prop :=
  (∀ p : Fin 2, s.converterA.pairOf = some p ∨ s.converterB.pairOf = some p →
      (s.loop (lowerLoop p)).mode = .mirrored)
    ∧ (s.part = .configuring → s.converterA = .free ∧ s.converterB = .free)
    ∧ ∀ l : Fin 4,
    (s.loop (partnerOf l)).mode = (s.loop l).mode
      ∧ (s.loop (partnerOf l)).pendingMode = (s.loop l).pendingMode
      ∧ (s.loop l).pendingMode ≠ some (s.loop l).mode
      ∧ (s.part = .configuring → (s.loop l).quiet)
      ∧ ((s.loop l).mode = .mirrored →
        (s.loop l).inUse = true ∧ (s.loop (partnerOf l)).state = (s.loop l).state
          ∧ (s.loop (partnerOf l)).power = (s.loop l).power ∧ (s.loop (partnerOf l)).scan = (s.loop l).scan
          ∧ (s.loop (partnerOf l)).due = (s.loop l).due ∧ (s.loop (partnerOf l)).lastStart = (s.loop l).lastStart
          ∧ (s.loop (partnerOf l)).breakPosition = (s.loop l).breakPosition
          ∧ (2 ≤ l.val → (s.loop l).intervalTimer = none))

/-! ### Arbitration and scan starts (R22 to R24, R36) -/

/-- A loop contends for its converter in an event that ends the scans of the loops `ended`: it is in use, does not
scan any more, and is due, or becomes due because its interval or its settle period has run out (R22, R23, R26, R34).
A mirrored pair contends as its lower loop. -/
def Contends (s : State) (ended : List (Fin 4)) (l : Fin 4) : Prop :=
  (s.loop l).inUse = true ∧ ((s.loop l).scan = none ∨ l ∈ ended)
    ∧ ((s.loop l).state = .restarting .settle 0
      ∨ (s.loop l).state.scans = true ∧ ((s.loop l).due = true ∨ (s.loop l).intervalTimer = some 0))

/-- A loop stands before another by its last scan start, none first, and then by its number (R23). The raw 32-bit values are
compared, also across a wrap of the seconds counter. (DESIGN CHOICE, log entry 57.) -/
def StartsBefore (s : State) (a b : Fin 4) : Prop :=
  match (s.loop a).lastStart, (s.loop b).lastStart with
  | none, none => a < b
  | none, some _ => True
  | some _, none => False
  | some x, some y => x < y ∨ x = y ∧ a < b

/-- What the arbiters have done in an event from `s` to `t` that ends the scans of the loops `ended`; `free` tells the
converters they may hand out (R23). A started scan has taken its loop's due flag away. No free converter is left with a
contender. Of two independent loops of a free converter the one that stands before starts first, and so do a pair and
a loop, and two pairs; a pair that stands before keeps the converter it has won. A pair that already keeps the other
converter is given the free one. -/
def HandedOut (s t : State) (ended : List (Fin 4)) (free : Converter → Bool) : Prop :=
  (∀ c, t.converter c = .free → contenders t c = [])
    ∧ (∀ a b : Fin 4, (s.loop a).mode = .independent → (s.loop b).mode = .independent → a ≠ b →
      converterOf a = converterOf b → free (converterOf a) = true → Contends s ended a → Contends s ended b →
      StartsBefore s a b → (t.loop b).due = false → (t.loop a).due = false)
    ∧ (∀ (p : Fin 2) (b : Fin 4), (s.loop (lowerLoop p)).mode = .mirrored → (s.loop b).mode = .independent →
      free (converterOf b) = true → s.converter (converterOf b).other ≠ .kept p →
      Contends s ended (lowerLoop p) → Contends s ended b →
      (StartsBefore s (lowerLoop p) b →
        ((t.loop (lowerLoop p)).due = false ∨ t.converter (converterOf b) = .kept p)
          ∧ ((t.loop b).due = false → (t.loop (lowerLoop p)).due = false))
      ∧ (StartsBefore s b (lowerLoop p) → (t.loop (lowerLoop p)).due = false → (t.loop b).due = false))
    ∧ (∀ p q : Fin 2, p ≠ q → (s.loop (lowerLoop p)).mode = .mirrored → (s.loop (lowerLoop q)).mode = .mirrored →
      free .a = true → free .b = true → Contends s ended (lowerLoop p) → Contends s ended (lowerLoop q) →
      StartsBefore s (lowerLoop p) (lowerLoop q) → (t.loop (lowerLoop q)).due = false →
      (t.loop (lowerLoop p)).due = false)
    ∧ (∀ (p : Fin 2) (c : Converter), lowerLoop p ∉ ended → free c = true → s.converter c.other = .kept p →
      (t.loop (lowerLoop p)).lastStart = some s.seconds)

/-- The waiting request of a detector has been applied: it is gone, and one that asks for another mark than the
detector's has changed the mark of its slot and its state, with its entry (R36, R56). -/
def RequestApplied (n : Fin 192) (d : Detector) (s t : State) : Prop :=
  (d.waiting = some .disable → markedEnabled s d = true →
      t.detector n = some { d with
          state := .disabled, level := none, riseRun := 0, missed := 0, validRun := 0, testArmed := none
          waiting := none }
        ∧ (∀ k, slotOf s d.loop d.address = some k → t.slot d.loop k = .address d.address false)
        ∧ LoggedAmong s t
          { kind := .detectorDisabled, subject := .detector n, wing := some (s.wingOf d.zone), detail := .none })
    ∧ (d.waiting = some .enable → markedEnabled s d = false →
      t.detector n = some { d with state := .unmonitored, waiting := none }
        ∧ (∀ k, slotOf s d.loop d.address = some k → t.slot d.loop k = .address d.address true)
        ∧ LoggedAmong s t
          { kind := .detectorEnabled, subject := .detector n, wing := some (s.wingOf d.zone), detail := .none })
    ∧ (d.waiting = none ∨ d.waiting = some .disable ∧ markedEnabled s d = false
        ∨ d.waiting = some .enable ∧ markedEnabled s d = true →
      t.detector n = some { d with waiting := none })

/-- The scan of a unit has started in an event from `s` to `t` (R24): the waiting requests of its detectors are
applied, and it polls the first enabled slot of the list they leave, or has ended without a poll. Of the detectors
those are meant that share their loop and address with no other, as START requires. -/
def ScanStarted (u : ScanUnit) (s t : State) : Prop :=
  (∀ l ∈ u.loops, (t.loop l).due = false ∧ (t.loop l).lastStart = some s.seconds
      ∧ (t.loop l).scan = (enabledSlot (t.scanLists.get u.head) 0).map fun k => { slot := k, polls := [] })
    ∧ (t.loop u.head).intervalTimer = some (s.loop u.head).scanInterval
    ∧ (∀ (n : Fin 192) d, s.detector n = some d → d.loop ∈ u.loops →
      (∀ (m : Fin 192) e, s.detector m = some e → m ≠ n → e.loop = d.loop → e.address ≠ d.address) →
      RequestApplied n d s t)

/-- Every contender whose due flag the event has taken away has started its scan. -/
def StartedScans (s t : State) (ended : List (Fin 4)) : Prop :=
  ∀ l : Fin 4, l = (unitOf s l).head → Contends s ended l → (t.loop l).due = false → ScanStarted (unitOf s l) s t

/-! ### The end of a mirrored scan (R31) -/

/-- The break that the polls of a mirrored scan give (R31): the tail is the run of polls at the end in which end A gave
NO_REPLY, and the break stands at the first slot of it at which end B gave a valid reply. -/
def BreakAt (polls : List PollNote) (k : Fin 48) : Prop :=
  ∃ (front mid rest : List PollNote) (q : PollNote), polls = front ++ mid ++ q :: rest
    ∧ (∀ x, front.getLast? = some x → x.endA ≠ .noReply)
    ∧ (∀ x ∈ mid, x.endA = .noReply ∧ replyKind x.endB ≠ .valid)
    ∧ q.endA = .noReply ∧ replyKind q.endB = .valid ∧ (∀ x ∈ rest, x.endA = .noReply) ∧ q.slot = k

/-- Neither end answered anywhere in a scan (R27). -/
def SilentScan (polls : List PollNote) : Prop := ∀ x ∈ polls, x.endA = .noReply ∧ x.endB = .noReply

/-- What the break judgment leaves of a recorded break position, with its entries (R31). -/
def BreakJudged (l : Fin 4) (polls : List PollNote) (s t : State) : Prop :=
  (∀ k, BreakAt polls k →
      (t.loop l).breakPosition = some k
        ∧ ((s.loop l).breakPosition ≠ some k →
          LoggedAmong s t { kind := .loopBreak, subject := .loop l, wing := none, detail := .number k.val }))
    ∧ ((∀ k, ¬ BreakAt polls k) →
      ((¬ SilentScan polls ∧ ∀ x ∈ polls, replyKind x.endB = .valid → replyKind x.endA = .valid) →
        (t.loop l).breakPosition = none
          ∧ ((s.loop l).breakPosition ≠ none →
            LoggedAmong s t { kind := .loopBreakCleared, subject := .loop l, wing := none, detail := .none }))
      ∧ ((SilentScan polls ∨ ∃ x ∈ polls, replyKind x.endB = .valid ∧ replyKind x.endA ≠ .valid) →
        (t.loop l).breakPosition = (s.loop l).breakPosition))

/-- What the line-fault judgment and the valid replies of a scan's last poll leave of a loop's state, with the entry
(R27). -/
def LineJudged (l : Fin 4) (polls : List PollNote) (valid : Bool) (s t : State) : Prop :=
  ((s.loop l).state = .running → SilentScan polls →
      (t.loop l).state = .lineFault
        ∧ LoggedAmong s t { kind := .loopLineFault, subject := .loop l, wing := none, detail := .none })
    ∧ ((s.loop l).state = .running → ¬ SilentScan polls → (t.loop l).state = .running)
    ∧ ((s.loop l).state = .lineFault → valid = true →
      LoggedAmong s t { kind := .loopLineFaultCleared, subject := .loop l, wing := none, detail := .none })
    ∧ ((s.loop l).state = .lineFault → valid = true → ¬ SilentScan polls → (t.loop l).state = .running)
    ∧ ((s.loop l).state = .lineFault → valid = false → (t.loop l).state = .lineFault)

/-! ### Readings (R42 to R51, R61 to R64) -/

/-- The level of a valid raw value at a detector (R44). -/
def readLevel (d : Detector) (v : Nat) : Nat := min (v - d.baseline / 16) 2047

/-- The rise run of a reading with a level, from the level and the run in the record (R45). -/
def readRun (c : DetectorClass) (d : Detector) (level : Nat) : Nat :=
  match d.level with
  | none => 0
  | some p => if p + c.riseStep ≤ level then min (d.riseRun + 1) 15 else if p < level then d.riseRun else 0

/-- Whether a reading's rise is below the class's rise step; without a level before it the rise is 0 (R45, R51). -/
def risesSlowly (c : DetectorClass) (d : Detector) (level : Nat) : Bool :=
  match d.level with
  | none => decide (0 < c.riseStep)
  | some p => decide (level < p + c.riseStep)

/-- The alarm condition of a reading: the level alarm, or a rise alarm (R45, R46). -/
def alarmMet (s : State) (d : Detector) (level run : Nat) : Bool :=
  (s.thresholdsFor d).levelAlarm level
    || decide (0 < (s.cls d.cls).riseCount) && decide ((s.cls d.cls).riseCount ≤ run)

/-- The state of a detector after a reading in a zone whose test is off: the table of R47, with R48 and R49. -/
def tableState (s : State) (d : Detector) (level run : Nat) : DetectorState :=
  let raised : DetectorState := if (s.cls d.cls).window = 0 then .alarm else .verifying (s.cls d.cls).window
  match d.state with
  | .normal =>
    if alarmMet s d level run then raised
    else if (s.thresholdsFor d).pre ≤ level then .preAlarm else .normal
  | .preAlarm =>
    if alarmMet s d level run then raised
    else if level + 16 < (s.thresholdsFor d).pre ∨ level = 0 ∧ (s.thresholdsFor d).pre = 16 then .normal
    else .preAlarm
  | .verifying k => if alarmMet s d level run then .alarm else .verifying k
  | x => x

/-- The entry of that table and of R48, by the state before and the state after. -/
def tableEntry (s : State) (n : Fin 192) (d : Detector) (level run : Nat) : List LogItem :=
  let item (kind : EntryKind) (detail : Detail) : List LogItem :=
    [{ kind := kind, subject := .detector n, wing := some (s.wingOf d.zone), detail := detail }]
  match d.state, tableState s d level run with
  | .normal, .alarm | .preAlarm, .alarm =>
    item .detectorAlarm (.alarmCause (if (s.thresholdsFor d).levelAlarm level then .level else .rise))
  | .verifying _, .alarm => item .detectorAlarm (.alarmCause .confirmed)
  | .normal, .verifying _ | .preAlarm, .verifying _ => item .verifyStarted (.number level)
  | .normal, .preAlarm => item .detectorPreAlarm (.number level)
  | .preAlarm, .normal => item .detectorNormal (.number level)
  | _, _ => []

/-- The entry of a detector's return from FAULT (R43). -/
def faultClearedEntry (s : State) (n : Fin 192) (d : Detector) : List LogItem :=
  match d.state with
  | .fault _ => [{ kind := .faultCleared, subject := .detector n, wing := some (s.wingOf d.zone), detail := .none }]
  | _ => []

/-- The entries of a detector that enters FAULT, the end of its verification first (R42, R48). -/
def faultEntries (s : State) (n : Fin 192) (d : Detector) (f : FaultKind) : List LogItem :=
  let item (kind : EntryKind) (detail : Detail) : LogItem :=
    { kind := kind, subject := .detector n, wing := some (s.wingOf d.zone), detail := detail }
  if d.state.isVerifying then [item .verifyAborted (.abortCause .fault), item .detectorFault (.faultKind f)]
  else [item .detectorFault (.faultKind f)]

/-- The entry of an alarm condition that finds a detector of a zone under test armed (R54). -/
def activationEntry (s : State) (n : Fin 192) (d : Detector) (level : Nat) (activated : Bool) : List LogItem :=
  if activated then
    [{ kind := .testActivation, subject := .detector n, wing := some (s.wingOf d.zone), detail := .number level }]
  else []

/-- The entry of a loop's return from LINE_FAULT at a valid reply (R27). -/
def lineClearedEntry (s : State) (l : Fin 4) : List LogItem :=
  match (s.loop l).state with
  | .lineFault => [{ kind := .loopLineFaultCleared, subject := .loop l, wing := none, detail := .none }]
  | _ => []

/-- The entry of a compensation-limit flag that sets, from the flag before and after (R52). -/
def compLimitEntry (s : State) (n : Fin 192) (d : Detector) (after : Bool) : List LogItem :=
  if after && !d.compLimit then
    [{ kind := .compLimit, subject := .detector n, wing := some (s.wingOf d.zone), detail := .number (s.cls d.cls).bmax }]
  else []

/-- A detector as the first step of a valid reading leaves it: one that was UNMONITORED or in FAULT goes on from
NORMAL without a level (R43). -/
def Detector.taken (d : Detector) : Detector :=
  match d.state with
  | .unmonitored => { d with missed := 0, state := .normal, level := none }
  | .fault _ => { d with missed := 0, validRun := 0, state := .normal, level := none }
  | _ => { d with missed := 0 }

/-! ### Suspension and restoration (R91, R92) -/

/-- The security state of a zone that is suspended (R91). -/
def suspendedSecurity : Security → Security
  | .armed => .suspended .armed
  | .exitDelay _ => .suspended .exitDelay
  | x => x

/-- The entry of a zone's suspension (R91). -/
def suspendEntry (s : State) (z : Fin 64) (cause : SuspendCause) : List LogItem :=
  let item (x : SuspendedFrom) : List LogItem :=
    [{ kind := .armSuspended, subject := .zone z, wing := some (s.wingOf z), detail := .suspension x cause }]
  match (s.zone z).security with
  | .armed => item .armed
  | .exitDelay _ => item .exitDelay
  | _ => []

/-- The security state of a zone that is restored where it is SUSPENDED (R92). -/
def restoredSecurity (r : Zone) : Security :=
  match r.security with
  | .suspended _ => if r.occupancy = .vacant then .armed else .disarmed
  | x => x

/-- The entry of a zone's restoration (R92). -/
def restoreEntry (s : State) (z : Fin 64) : List LogItem :=
  match (s.zone z).security with
  | .suspended x =>
    [{ kind := if (s.zone z).occupancy = .vacant then .armRestored else .armLost, subject := .zone z
       wing := some (s.wingOf z), detail := .suspendedFrom x }]
  | _ => []

/-! ### Stage changes of a wing (R70 to R73) -/

/-- A wing has left STANDBY (R55, R70, R73, R91, R109, R155): its lockdown and its alert are over, its channels follow
and are ENABLED, its armed zones are SUSPENDED and its tests have ended, each with its entry. -/
def LeavesStandby (w : Fin 4) (s t : State) : Prop :=
  (t.wing w).lockdown = false ∧ (t.wing w).alerted = false
    ∧ ((s.wing w).lockdown = true →
      LoggedAmong s t { kind := .lockdownEnded, subject := .wing w, wing := some w, detail := .lockdownCause .stage })
    ∧ (∀ z ∈ s.zonesOf w, (t.zone z).security = suspendedSecurity (s.zone z).security ∧ (t.zone z).testTimer = none
      ∧ (∀ x ∈ suspendEntry s z .stage, LoggedAmong s t x)
      ∧ ((s.zone z).testTimer ≠ none →
        LoggedAmong s t { kind := .testEnded, subject := .zone z, wing := some w, detail := .testEnd .stage }))
    ∧ (∀ n, (s.channel n).wing = some w → (t.channel n).latch = .follow ∧ (t.channel n).drive = .enabled)

/-- A help call of a wing that has entered EVACUATE (R126): it is EVAC_ASSIST, with its entry; an accepted one stays with
its desk, one offered to the evacuation desk keeps its offer, and one offered elsewhere is withdrawn. -/
def CallEvacuated (w : Fin 4) (c : Fin 64) (h : HelpCall) (s t : State) : Prop :=
  (∃ g, t.call c = some g ∧ g.priority = .evacAssist ∧ g.presses = h.presses ∧ g.firstPress = h.firstPress
      ∧ (∀ k, h.phase = .accepted k → g.phase = .accepted k)
      ∧ (∀ k n, h.phase = .offered k n → (s.wing w).evacDesk = some k → g.phase = .offered k n ∧ g.next = .evac))
    ∧ LoggedAmong s t
      { kind := .callPriority, subject := .point c, wing := some w, detail := .priorityCause .evacAssist .evacuation }
    ∧ (∀ k n, h.phase = .offered k n → (s.wing w).evacDesk ≠ some k →
      LoggedAmong s t { kind := .callWithdrawn, subject := .point c, wing := some w, detail := .desk k })

/-- A wing has entered EVACUATE (R69 to R71, R73, R75, R126, R137, R155): its stage, flags and timers, what leaving
STANDBY brings where it was there, the egress of its configured zones with the selection pass it triggers, its sounder,
the alerting of its spread list, and its help calls. The stages of other wings are unchanged. -/
def EntersEvacuate (w : Fin 4) (s t : State) : Prop :=
  (t.wing w).stage = .evacuate ∧ (t.wing w).silenced = false
    ∧ (t.wing w).spreadTimer
      = (if 0 < (s.wing w).tSpread then some (s.wing w).tSpread else (s.wing w).spreadTimer)
    ∧ (s.atStandby w = true → LeavesStandby w s t)
    ∧ (∀ z ∈ s.zonesOf w, (t.zone z).egress = true
      ∧ (s.atStandby w = false →
        (t.zone z).security = (s.zone z).security ∧ (t.zone z).testTimer = (s.zone z).testTimer))
    ∧ (s.inService = true → (∃ z ∈ s.zonesOf w, (s.zone z).egress = false) → Triggered s t)
    ∧ (t.channel (sounderChannel w)).source = .evacuate
    ∧ (∀ v, v ≠ w → (t.wing v).stage = (s.wing v).stage)
    ∧ (∀ v ∈ (s.wing w).spreadList, v ≠ w → s.atStandby v = true →
      (t.wing v).alerted = true
        ∧ ((s.wing v).alerted = false →
          LoggedAmong s t { kind := .wingAlerted, subject := .wing v, wing := some v, detail := .wing w }))
    ∧ (∀ c ∈ s.callQueue, s.wingOf (s.point c).zone = w → ∀ h, s.call c = some h → CallEvacuated w c h s t)
    ∧ DoorsKept s t

/-- Of every zone's record an event in which the wing `w` alone enters EVACUATE changes the fire state, and of its
configured zones the egress flag and what leaving STANDBY brings. -/
def ZonesEvacuated (w : Fin 4) (s t : State) : Prop :=
  ∀ z : Fin 64, t.zone z =
    { s.zone z with
      fire := (t.zone z).fire, egress := (s.zone z).egress || decide (z ∈ s.zonesOf w)
      security := if z ∈ s.zonesOf w ∧ s.atStandby w = true then suspendedSecurity (s.zone z).security
        else (s.zone z).security
      testTimer := if z ∈ s.zonesOf w ∧ s.atStandby w = true then none else (s.zone z).testTimer }

/-- What a wing's change of stage by an alarm brings with it: leaving STANDBY, and entering EVACUATE. -/
def StageFollowed (w : Fin 4) (s t : State) : Prop :=
  (s.atStandby w = true → t.atStandby w = false → LeavesStandby w s t)
    ∧ ((s.wing w).stage ≠ .evacuate → (t.wing w).stage = .evacuate → EntersEvacuate w s t)

/-- A help call of a wing that has returned to STANDBY (R126). -/
def HelpCall.stoodDown (h : HelpCall) : HelpCall :=
  match h.priority with
  | .evacAssist => { h with priority := .urgent, next := if h.next = .evac then .position 1 else h.next }
  | .normal | .urgent => h

/-- A wing has returned to STANDBY (R72, R73, R75, R92, R126, R137): its flags and timers, the egress and the suspended
arming of its configured zones, the selection pass, its alert and those of its spread list, its sounder and its help calls.
The stages of other wings are unchanged. -/
def ReturnsToStandby (w : Fin 4) (s t : State) : Prop :=
  (t.wing w).stage = .standby ∧ (t.wing w).silenced = false ∧ (t.wing w).spreadTimer = none
    ∧ (∀ z ∈ s.zonesOf w, (t.zone z).egress = false
      ∧ (t.zone z).security = (if (s.zone z).transit = 0 then restoredSecurity (s.zone z) else (s.zone z).security)
      ∧ ((s.zone z).transit = 0 → ∀ x ∈ restoreEntry s z, LoggedAmong s t x))
    ∧ ((∃ z ∈ s.zonesOf w, (s.zone z).egress = true) → Triggered s t)
    ∧ ((s.wing w).alerted = false →
      ((t.wing w).alerted = true ↔ ∃ v, (t.wing v).stage = .evacuate ∧ w ∈ (t.wing v).spreadList))
    ∧ ((s.wing w).stage = .evacuate → ∀ v ∈ (s.wing w).spreadList, v ≠ w → (s.wing v).alerted = true →
      (∀ u, u ≠ w → (s.wing u).stage = .evacuate → v ∉ (s.wing u).spreadList) →
      (t.wing v).alerted = false
        ∧ LoggedAmong s t { kind := .alertEnded, subject := .wing v, wing := some v, detail := .wing w })
    ∧ (t.channel (sounderChannel w)).source = (if (t.wing w).alerted then .alert else .off)
    ∧ (∀ v, v ≠ w → (t.wing v).stage = (s.wing v).stage)
    ∧ (∀ c ∈ s.callQueue, s.wingOf (s.point c).zone = w → ∀ h, s.call c = some h →
      t.call c = some h.stoodDown
        ∧ (h.priority = .evacAssist → LoggedAmong s t
          { kind := .callPriority, subject := .point c, wing := some w, detail := .priorityCause .urgent .standby }))

/-- What an alarm of a zone does to the silencing of its evacuating wing (R76): the alarm of a zone that was not in ALARM
resounds a silenced wing, with WING_RESOUNDED behind the ZONE_ALARM; otherwise the flag and the sounder stay. -/
def SilenceTaken (z : Fin 64) (origin : AlarmOrigin) (s t : State) : Prop :=
  let w := s.wingOf z
  (s.wing w).stage = .evacuate →
    if (s.zone z).fire.inAlarm = false ∧ (s.wing w).silenced = true then
      (t.wing w).silenced = false ∧ (t.channel (sounderChannel w)).source = .evacuate
        ∧ LoggedRun s t
          [ { kind := .zoneAlarm, subject := .zone z, wing := some w, detail := .origin origin }
          , { kind := .wingResounded, subject := .wing w, wing := some w, detail := .zone z } ]
    else
      (t.wing w).silenced = (s.wing w).silenced
        ∧ (t.channel (sounderChannel w)).source = (s.channel (sounderChannel w)).source

/-- A zone has taken a detector's alarm, the only one of the event (R61), and so has its wing (R63, R64): it waits for
the fire station where it was in STANDBY, OPEN, with the staged sequence permitted and the fire port CONNECTED, and
evacuates otherwise. What the change of stage brings follows (R70, R71), and an evacuating wing resounds (R76). -/
def AlarmTaken (n : Fin 192) (z : Fin 64) (s t : State) : Prop :=
  (t.zone z).fire = (if (s.zone z).fire.inAlarm then (s.zone z).fire else .alarm (.detector n) s.seconds)
    ∧ ((s.zone z).fire.inAlarm = false →
      LoggedAmong s t
        { kind := .zoneAlarm, subject := .zone z, wing := some (s.wingOf z), detail := .origin (.detector n) })
    ∧ ((s.zone z).fire.inAlarm = false → s.atStandby (s.wingOf z) = true →
      (t.wing (s.wingOf z)).stage
        = (if (s.wing (s.wingOf z)).mode = .openHours ∧ (s.wing (s.wingOf z)).staged = true ∧ s.ports.fire.up = true then
            .ackWait (s.wing (s.wingOf z)).tAck
          else .evacuate))
    ∧ (s.atStandby (s.wingOf z) = false → (t.wing (s.wingOf z)).stage = .evacuate)
    ∧ StageFollowed (s.wingOf z) s t ∧ SilenceTaken z (.detector n) s t

/-- A detector keeps its record, or loses its armed flag alone where the test of its zone has ended (R55). -/
def DetectorKept (n : Fin 192) (s t : State) : Prop :=
  t.detector n = s.detector n
    ∨ ∃ d, s.detector n = some d ∧ (s.zone d.zone).testTimer ≠ none ∧ t.detector n = some { d with testArmed := none }

/-- A valid reading of detector `n`, polled on loop `l` in a zone whose test is off, has been taken where no other detector
of the zone is VERIFYING (R43 to R52, R61 to R64): the level and the run, the state and entry of the table, the tracked
baseline with the compensation-limit flag and its entry, and an alarm handed to the zone. -/
def ReadingTaken (l : Fin 4) (n : Fin 192) (d : Detector) (v level run : Nat) (s t : State) : Prop :=
  (∃ e, t.detector n = some e
    ∧ e = { d.taken with
        state := tableState s d.taken level run, level := some level, riseRun := run
        baseline := e.baseline, compLimit := e.compLimit }
    ∧ (if (s.cls d.cls).tracking = true ∧ e.state = .normal ∧ level < (s.thresholdsFor d).pre
          ∧ risesSlowly (s.cls d.cls) d.taken level = true then
        e.baseline
            = clamp (16 * (s.cls d.cls).bmin) (16 * (s.cls d.cls).bmax)
              ((d.baseline : Int) + max (-8) (min 8 (Int.tdiv (16 * (v : Int) - (d.baseline : Int)) 64))).toNat
          ∧ e.compLimit
            = (if e.baseline = 16 * (s.cls d.cls).bmax then true
              else if e.baseline + 16 ≤ 16 * (s.cls d.cls).bmax then false else d.compLimit)
      else e.baseline = d.baseline ∧ e.compLimit = d.compLimit)
    ∧ ∀ x ∈ compLimitEntry s n d e.compLimit, LoggedAmong s t x)
    ∧ (∀ m, m ≠ n → DetectorKept m s t)
    ∧ LoggedFirst s t
      (faultClearedEntry s n d ++ tableEntry s n d.taken level run)
    ∧ (tableState s d.taken level run = .alarm → d.state ≠ .alarm → AlarmTaken n d.zone s t)
    ∧ (tableState s d.taken level run ≠ .alarm →
      (∀ m, m ≠ n → t.detector m = s.detector m)
        ∧ Logged s t
          (faultClearedEntry s n d ++ tableEntry s n d.taken level run
            ++ compLimitEntry s n d ((t.detector n).any fun e => e.compLimit) ++ lineClearedEntry s l)
        ∧ OnlyIn ([Piece.zones, .wings, .loops, .detectors, .exits, .engine, .log] ++ outward) s t)
    ∧ OnlyIn (alarming ++ outward) s t

/-- A valid reading that brings detector `n` into PRE_ALARM, VERIFYING or ALARM has been taken where another detector of
its zone is VERIFYING (R50): every VERIFYING detector of the zone is in ALARM, and the zone with it, the lowest of them its
origin. -/
def CoincidenceTaken (n : Fin 192) (d : Detector) (level run : Nat) (s t : State) : Prop :=
  (∃ e, t.detector n = some e ∧ e.level = some level ∧ e.riseRun = run
    ∧ e.state
      = (if (tableState s d.taken level run).isVerifying then .alarm else tableState s d.taken level run))
    ∧ (∀ m, m ≠ n → ∀ e, s.detector m = some e → e.zone = d.zone → e.state.isVerifying = true →
      t.detector m = some { e with state := .alarm }
        ∧ LoggedAmong s t
          { kind := .detectorAlarm, subject := .detector m, wing := some (s.wingOf d.zone)
            detail := .alarmCause .coincidence })
    ∧ (∀ m, m ≠ n → ∀ e, s.detector m = some e → (e.zone ≠ d.zone ∨ e.state.isVerifying = false) →
      DetectorKept m s t)
    ∧ (t.zone d.zone).fire.inAlarm = true
    ∧ ((s.zone d.zone).fire.inAlarm = true → (t.zone d.zone).fire = (s.zone d.zone).fire)
    ∧ (∀ m, ∀ e, s.detector m = some e → e.zone = d.zone →
      (e.state.isVerifying = true ∨ m = n ∧ tableState s d.taken level run ≠ .preAlarm) →
      (∀ q, q < m → ∀ f, s.detector q = some f → f.zone = d.zone →
        f.state.isVerifying = false ∧ (q = n → tableState s d.taken level run = .preAlarm)) →
      ((s.zone d.zone).fire.inAlarm = false → (t.zone d.zone).fire = .alarm (.detector m) s.seconds)
        ∧ SilenceTaken d.zone (.detector m) s t)
    ∧ (t.wing (s.wingOf d.zone)).stage ≠ .standby ∧ StageFollowed (s.wingOf d.zone) s t
    ∧ (tableState s d.taken level run ≠ .preAlarm → (t.wing (s.wingOf d.zone)).stage = .evacuate)
    ∧ OnlyIn (alarming ++ outward) s t

/-! ### Signs (R142) -/

/-- A selected route claims a sign, by the last of its steps that names it: the arrow of that step, and how many steps
follow it (R142). -/
def ClaimsSign (r : Selection) (g : Fin 96) (a : Arrow) (remaining : Nat) : Prop :=
  ∃ (front rest : List Descriptor) (d : Descriptor), r.steps = front ++ d :: rest
    ∧ d.sign = some { sign := g, arrow := a } ∧ rest.length = remaining
    ∧ ∀ x ∈ rest, ∀ y, x.sign = some y → y.sign ≠ g

/-- A configured sign has been settled from the selected routes of a pass (R142): the claim with the fewest remaining
steps wins, and of equals the one of the lower zone; without a claim the sign shows NO_EXIT where its home zone has
egress and no route, and EXIT_STEADY otherwise. -/
def SignSettled (sel : List Selection) (noExit : Bool) (g : Fin 96) (t : State) : Prop :=
  (t.sign g).claims = sel.countP (fun r => r.steps.any fun d => decide ((d.sign.map fun y => y.sign) = some g))
    ∧ (∀ r ∈ sel, ∀ a n, ClaimsSign r g a n →
      (∀ q ∈ sel, ∀ b m, ClaimsSign q g b m → n < m ∨ n = m ∧ r.zone ≤ q.zone) →
      (t.sign g).aspect = .arrow a ∧ (t.sign g).winner = some r.zone)
    ∧ ((∀ r ∈ sel, ∀ a n, ¬ ClaimsSign r g a n) →
      (t.sign g).aspect = (if noExit then .noExit else .exitSteady) ∧ (t.sign g).winner = none)
    ∧ (t.channel (signChannel g)).source = (t.sign g).aspect

/-- A zone has taken the route that its graded routes give (R136): the first CLEAR one, else the first PASSABLE one, else
none. -/
def RouteSelected (routes : List Selection) (r : Zone) : Prop :=
  (∀ (i : Fin 4) x, routes[i.val]? = some x → x.grade = .clear →
      (∀ (j : Nat) y, j < i.val → routes[j]? = some y → y.grade ≠ .clear) →
      r.selected = some i ∧ r.grade = some .clear ∧ r.noRoute = false)
    ∧ (∀ (i : Fin 4) x, routes[i.val]? = some x → x.grade = .passable → (∀ y ∈ routes, y.grade ≠ .clear) →
      (∀ (j : Nat) y, j < i.val → routes[j]? = some y → y.grade ≠ .passable) →
      r.selected = some i ∧ r.grade = some .passable ∧ r.noRoute = false)
    ∧ ((∀ y ∈ routes, y.grade = .blocked) → r.selected = none ∧ r.grade = none ∧ r.noRoute = true)

/-! ### The resets of the part -/

/-- No break-glass point stands pressed, so that START and RESTART take no fire call (R130). -/
def NoneBroken (s : State) : Prop :=
  ∀ c : Fin 64, (s.point c).configured = true → (s.point c).kind = .fire → (s.point c).input = .restored

/-- A zone's fields that START, RESTART and ENTER CONFIGURATION leave (R17); `vacancy` is its vacancy timer. -/
def Zone.afterReset (detectors : Nat) (vacancy : Option Nat) (r : Zone) : Zone :=
  { r with
    detectorCount := detectors, impairedCount := detectors, testTimer := none, fire := .normal, egress := false
    transit := 0, selected := none, grade := none, noRoute := false, routeGrades := [], occupancy := .occupied
    vacancyTimer := vacancy, lastPrimary := none, lastSecondary := none, security := .disarmed, activeCalls := 0 }

/-- A wing's fields that START, RESTART and ENTER CONFIGURATION leave (R18). -/
def Wing.afterReset (mode : Mode) (r : Wing) : Wing :=
  { r with
    mode := mode, stage := .standby, silenced := false, spreadTimer := none, alerted := false, lockdown := false }

/-- A loop's fields that the resets leave (R37, R38): a pending mode is taken, and a MIRRORED one puts it in use. -/
def Loop.afterReset (r : Loop) : Loop :=
  { r with
    mode := r.pendingMode.getD r.mode, pendingMode := none
    inUse := r.inUse || decide (r.pendingMode = some .mirrored)
    state := .off, power := false, scan := none, due := false, intervalTimer := none, lastStart := none
    breakPosition := none }

/-- A detector's fields that the resets leave, but for its state, its baseline and its compensation-limit flag (R59). -/
def Detector.afterReset (d : Detector) : Detector :=
  { d with
    missed := 0, validRun := 0, level := none, riseRun := 0, testArmed := none, mismatch := false, waiting := none }

/-- What the three resets leave alike: no converter held, no call, no offer, no grant, no claim, no report of a fault
and no arrow (R37, R38, R112, R113, R130, R146), and every channel following with its polarity and its line fault flag
kept (R157). -/
def ClearedByReset (drive : Drive) (s t : State) : Prop :=
  t.converterA = .free ∧ t.converterB = .free ∧ t.callQueue = [] ∧ (∀ k : Fin 8, t.desk k = { s.desk k with offered := [] })
    ∧ (∀ n : Fin 48,
      (t.door n).rex = none ∧ (t.door n).pass = none ∧ (t.door n).claims = 0 ∧ (t.door n).faultReported = false
        ∧ (t.door n).notClosedReported = false ∧ (t.door n).contact = (s.door n).contact
        ∧ ((s.door n).configured = true →
          (t.door n).status
            = (if (s.door n).contact = .lineFault ∨ (s.channel (doorChannel n)).lineFault = true then .fault
              else if (s.door n).contact = .opened then .openAuthorised
              else closedStatus (s.door n).kind (t.channel (doorChannel n)).effective)))
    ∧ (∀ g : Fin 96, t.sign g = { s.sign g with aspect := .exitSteady, claims := 0, winner := none })
    ∧ (∀ n : Fin 276,
      (t.channel n).latch = .follow ∧ (t.channel n).drive = drive ∧ (t.channel n).polarity = (s.channel n).polarity
        ∧ (t.channel n).lineFault = (s.channel n).lineFault ∧ (t.channel n).lawful)

/-- What the resets leave of points, exits, signs, lights, sounders and lamps where no fire call is taken (R130, R146,
R157). -/
def RestingOutputs (s t : State) : Prop :=
  t.engine = .idle ∧ (∀ c : Fin 64, t.point c = { s.point c with state := .idle, lamp := .off })
    ∧ (∀ e : Fin 16, t.exit e = { s.exit e with stationBlocked := false, state := .available })
    ∧ (∀ g : Fin 96, (t.channel (signChannel g)).source = .exitSteady)
    ∧ (∀ c : Fin 64, (t.channel (lampChannel c)).source = .off)
    ∧ (∀ z : Fin 64, (t.channel (lightChannel z)).source = .off)
    ∧ (∀ w : Fin 4, (t.channel (sounderChannel w)).source = .off)

/-- The part has come into service by START or RESTART (R17, R18, R38, R59, R94, R113, R130, R146, R157), with its
entry and a message of every channel, which is the model's choice for the drives that stay (log entry 13), by rising
channel number (log entry 47). Baselines
are stated apart. Where a break-glass point stands pressed, its fire call follows the entry (R130). -/
def ComesIntoService (kind : EntryKind) (s t : State) : Prop :=
  t.part = .inService ∧ ClearedByReset .enabled s t
    ∧ (∀ l : Fin 4,
      t.loop l = { (s.loop l).afterReset with
        state := if (s.loop l).afterReset.inUse then .restarting .powerOff 1 else .off })
    ∧ (∀ (n : Fin 192) d, s.detector n = some d → ∃ e, t.detector n = some e
      ∧ e = { d.afterReset with state := e.state, baseline := e.baseline, compLimit := e.compLimit }
      ∧ e.state
        = (if (slotOf t d.loop d.address).map (fun k => t.slot d.loop k) = some (.address d.address false) then .disabled
          else .unmonitored))
    ∧ (∀ n : Fin 192, s.detector n = none → t.detector n = none)
    ∧ (∀ n : Fin 276, (t.channel n).wing = objectWing s n ∧ (t.channel n).failValue = failValueOf s n)
    ∧ t.fieldOut = ((List.finRange 276).map fun n => messageOf n (t.channel n))
    ∧ (∀ n : Fin 48, (s.door n).configured = true →
      (t.door n).heldTimer
          = (if (t.door n).status = .openAuthorised ∧ (s.door n).kind ≠ .fireHold then some (s.door n).tHeld else none)
        ∧ (t.door n).notClosedTimer
          = (if (s.door n).kind = .fireHold ∧ (t.door n).value = .close ∧ (s.door n).contact = .opened then some 30
            else none))
    ∧ LoggedFirst s t [{ kind := kind, subject := .none, wing := none, detail := .none }]
    ∧ (NoneBroken s →
      (∀ z : Fin 64, t.zone z = (s.zone z).afterReset (s.detectorsOf z fun _ => true).length
          (if (s.zone z).configured then some (s.zone z).vacancyPeriod else none))
        ∧ (∀ w : Fin 4, t.wing w = (s.wing w).afterReset (s.wing w).initialMode)
        ∧ RestingOutputs s t ∧ Logged s t [{ kind := kind, subject := .none, wing := none, detail := .none }])
    ∧ (∀ z : Fin 64, t.zone z
      = { (s.zone z).afterReset (s.detectorsOf z fun _ => true).length
            (if (s.zone z).configured then some (s.zone z).vacancyPeriod else none) with
          fire := (t.zone z).fire, egress := (t.zone z).egress })
    ∧ (∀ w : Fin 4, (t.wing w).mode = (s.wing w).initialMode ∧ (t.wing w).lockdown = false
      ∧ ((t.wing w).stage = .standby ∨ (t.wing w).stage = .evacuate))
    ∧ (∀ c : Fin 64,
      ((s.point c).configured = false ∨ (s.point c).kind = .help ∨ (s.point c).input = .restored) →
      t.point c = { s.point c with state := .idle, lamp := .off })
    ∧ (∀ e : Fin 16, (t.exit e).stationBlocked = false)
    ∧ (∀ c : Fin 64,
      (s.point c).configured = true → (s.point c).kind = .fire → (s.point c).input = .pressed →
      (t.point c).state = .latched ∧ (t.point c).lamp = .steady ∧ (t.zone (s.point c).zone).fire.inAlarm = true
        ∧ (t.wing (s.wingOf (s.point c).zone)).stage = .evacuate)

/-- The part has entered CONFIGURING (R17, R18, R37, R59, R94, R112, R130, R146, R157). -/
def EntersConfiguring (s t : State) : Prop :=
  t.part = .configuring ∧ ClearedByReset .released s t ∧ RestingOutputs s t
    ∧ (∀ l : Fin 4, t.loop l = (s.loop l).afterReset)
    ∧ (∀ (n : Fin 192) d, s.detector n = some d →
      t.detector n = some { d.afterReset with state := if d.state = .disabled then .disabled else .unmonitored })
    ∧ (∀ n : Fin 192, s.detector n = none → t.detector n = none)
    ∧ (∀ z : Fin 64, t.zone z = (s.zone z).afterReset (s.zone z).detectorCount none)
    ∧ (∀ w : Fin 4, t.wing w = (s.wing w).afterReset (s.wing w).mode)
    ∧ (∀ n : Fin 48, (t.door n).heldTimer = none ∧ (t.door n).notClosedTimer = none)
    ∧ (∀ n : Fin 276,
      (t.channel n).wing = (s.channel n).wing ∧ (t.channel n).failValue = (s.channel n).failValue
        ∧ (t.channel n).effective = (s.channel n).failValue)
    ∧ Logged s t [{ kind := .configEntered, subject := .none, wing := none, detail := .none }]

/-! ### What single events leave -/

/-- A valid frame is taken at a port `p`, which becomes `q` but for its notices and its transmitter (R165 to
R167). -/
def FrameQueued (f : Frame) (rest : List Byte) (p q : Port) : Prop :=
  q.link = .connected Config.linkSilenceSeconds ∧ q.received = rest
    ∧ (if Config.replyMax ≤ p.replies.length then
        q.commands = p.commands ∧ q.queries = p.queries ∧ q.replies = p.replies
      else if f.kind = commandKind then
        if p.commands.length < Config.commandQueueMax then
          q.commands = p.commands ++ [f.request] ∧ q.queries = p.queries ∧ q.replies = p.replies
        else
          q.commands = p.commands ∧ q.queries = p.queries
            ∧ q.replies = p.replies ++ [replyTo f.request .full .none]
      else if f.kind = queryKind then
        if p.queries.length < Config.queryQueueMax then
          q.commands = p.commands ∧ q.queries = p.queries ++ [f.request] ∧ q.replies = p.replies
        else
          q.commands = p.commands ∧ q.queries = p.queries
            ∧ q.replies = p.replies ++ [replyTo f.request .full .none]
      else
        q.commands = p.commands ∧ q.queries = p.queries
          ∧ q.replies = p.replies ++ [replyTo f.request .badValue .none])

/-- The ports but one hold the same requests, replies and links. -/
def OtherPortsQuiet (st : Station) (s t : State) : Prop :=
  ∀ x : Station, x ≠ st →
    (t.port x).link = (s.port x).link ∧ (t.port x).received = (s.port x).received
      ∧ (t.port x).commands = (s.port x).commands ∧ (t.port x).queries = (s.port x).queries
      ∧ (t.port x).replies = (s.port x).replies

/-- What a contact report of a door leaves alone: every piece it does not reach, and of the other doors all that the
end of an event does not write. -/
def ContactFrame (n : Fin 48) (s t : State) : Prop :=
  OnlyIn (entering ++ outward) s t ∧ (∀ m, m ≠ n → (t.door m).kept = (s.door m).kept)
    ∧ (t.door n).configured = (s.door n).configured ∧ (t.door n).tHeld = (s.door n).tHeld
    ∧ (t.door n).tPass = (s.door n).tPass ∧ (t.door n).claims = (s.door n).claims ∧ ChannelsKept [] s t

/-- The not-closed timer of a door whose contact has become OPEN: loaded with 30 s where the value is CLOSE and the door has
not been reported, and otherwise as it was (R105; DEDUCED for a contact that became OPEN without an opening, log entry 58). -/
def NotClosedLoaded (n : Fin 48) (s t : State) : Prop :=
  (t.door n).notClosedTimer
    = if (s.door n).kind = .fireHold ∧ (t.door n).value = .close ∧ (s.door n).notClosedReported = false then some 30
      else (s.door n).notClosedTimer

/-- The grants of a door stay as they were. -/
def GrantsKept (n : Fin 48) (s t : State) : Prop :=
  (t.door n).rex = (s.door n).rex ∧ (t.door n).pass = (s.door n).pass

/-- The pieces that an entry of a wing into EVACUATE may reach (R70, R71). -/
def evacuating : List Piece :=
  [.zones, .wings, .detectors, .doors, .points, .callQueue, .desks, .engine, .channels, .log]

/-- The requirements of START (R172), as its table gives them. -/
def StartChecksHold (s : State) : Prop :=
  (∀ n d, s.detector n = some d →
      (s.zone d.zone).configured = true ∧ (s.cls d.cls).configured = true ∧ (s.loop d.loop).inUse = true)
    ∧ (∀ z : Fin 64, (s.detectorsOf z fun _ => true).length ≤ Config.zoneDetectorsMax)
    ∧ (∀ n m d e, s.detector n = some d → s.detector m = some e → d.loop = e.loop → d.address = e.address → n = m)
    ∧ (∀ l j k a x y, s.slot l j = .address a x → s.slot l k = .address a y → j = k)
    ∧ (∀ l k a x, s.slot l k = .address a x → ∃ n d, s.detector n = some d ∧ d.loop = l ∧ d.address = a)
    ∧ (∀ l : Fin 4, 2 ≤ l.val → (s.loop l).mode = .mirrored → s.slot l 0 = .endMark)
    ∧ (∀ n d, s.detector n = some d →
      (s.cls d.cls).preAlarm + 16 ≤ (s.cls d.cls).alarm ∧ (s.cls d.cls).bmin < (s.cls d.cls).bmax
        ∧ (s.cls d.cls).bmin ≤ (s.cls d.cls).fixedBaseline ∧ (s.cls d.cls).fixedBaseline ≤ (s.cls d.cls).bmax)
    ∧ (∀ n, (s.door n).configured = true → ∀ z ∈ (s.door n).sides, (s.zone z).configured = true)
    ∧ (∀ c, (s.point c).configured = true → (s.zone (s.point c).zone).configured = true)
    ∧ (∀ k, (s.desk k).owner ≠ none) ∧ (∀ w, (s.wing w).evacDesk ≠ none)
    ∧ (∀ e, (s.exit e).configured = true →
      (s.zone (s.exit e).zone).configured = true
        ∧ ∀ n, (s.exit e).door = some n → (s.door n).configured = true ∧ (s.door n).kind = .secureEgress)
    ∧ (∀ g, (s.sign g).configured = true → (s.zone (s.sign g).home).configured = true)
    ∧ (∀ z, (s.zone z).configured = true → ∀ r ∈ s.routeLists.get z,
      ∃ steps, walkPath s.descriptors Config.pathMax r.head.val = some steps
        ∧ (steps.head?.map fun d => d.zone) = some z
        ∧ (steps.getLast?.map fun d => d.zone) = some (s.exit r.exit).zone
        ∧ (s.exit r.exit).configured = true
        ∧ ∀ d ∈ steps, (s.zone d.zone).configured = true
          ∧ ∀ x, d.sign = some x → (s.sign x.sign).configured = true)

end Sys2Proof.Machine
end

