-- ==== Sys2Proof/WellFormed.lean ====
section
/-! DEFINITION. Well-formed commands: every operand fits the width that section 11.6 gives it on the wire, a
body is at most 240 bytes long (R165), and a raw value is one that a poll can give (R25). -/

set_option autoImplicit false

namespace Sys2Proof

/-- A one-byte operand (11.6). -/
def fitsByte (n : Nat) : Bool := decide (n < 256)
/-- A two-byte operand (11.6). -/
def fitsWide (n : Nat) : Bool := decide (n < 65536)

/-- A one-byte operand that may be absent; all ones is the absent one (11.6). -/
def fitsOption : Option Nat → Bool
  | none => true
  | some n => decide (n < 255)

/-- A two-byte operand that may be absent. -/
def fitsWideOption : Option Nat → Bool
  | none => true
  | some n => decide (n < 65535)

/-- A run of one-byte operands, of at most `most`. -/
def fitsBytes (xs : List Nat) (most : Nat) : Bool := decide (xs.length ≤ most) && xs.all fitsByte

/-- Side B of a door. -/
def fitsSide : SideFields → Bool
  | .zone z => fitsByte z
  | .outside | .other => true

/-- The reply of a poll: a raw value from 0 to 4095, or NO_REPLY (R25). -/
def fitsReading : Reading → Bool
  | .raw v => decide (v < 4096)
  | .noReply => true

/-- Whether a command is well formed. (DEDUCED, log entry 30.) -/
def Instr.wf : Instr → Bool
  | .acknowledgeWing a => fitsByte a
  | .evacuateWing a => fitsByte a
  | .manualAlarmZone a => fitsByte a
  | .markExitBlocked a => fitsByte a
  | .markExitOpen a => fitsByte a
  | .disableDetector a => fitsByte a
  | .enableDetector a => fitsByte a
  | .restartLoop a => fitsByte a
  | .armZone a => fitsByte a
  | .disarmZone a => fitsByte a
  | .passDoor a => fitsByte a
  | .lockdownWing a => fitsByte a
  | .endLockdown a => fitsByte a
  | .reportPatrol a => fitsByte a
  | .testZoneOn a => fitsByte a
  | .testZoneOff a => fitsByte a
  | .clearCall a => fitsByte a
  | .readZone a => fitsByte a
  | .readWing a => fitsByte a
  | .readDetector a => fitsByte a
  | .readLoop a => fitsByte a
  | .readDoor a => fitsByte a
  | .readCallPoint a => fitsByte a
  | .readRoute a => fitsByte a
  | .readExit a => fitsByte a
  | .silenceWing a _ => fitsByte a
  | .resetZone a _ => fitsByte a
  | .resetWing a _ => fitsByte a
  | .clearBreach a _ => fitsByte a
  | .setWingMode a _ => fitsByte a
  | .holdChannels f c => fitsWide f && fitsWide c
  | .freeChannels f c => fitsWide f && fitsWide c
  | .releaseDrive f c => fitsWide f && fitsWide c
  | .restoreDrive f c => fitsWide f && fitsWide c
  | .acceptCall p d => fitsByte p && fitsByte d
  | .setDeskCapacity d c => fitsByte d && fitsWide c
  | .writeEntryZone z .unconfigured => fitsByte z
  | .writeEntryZone z (.configured w) => fitsByte z && fitsByte w
  | .writeEntryWing w f => fitsByte w && fitsOption f.evacDesk && fitsBytes f.spreadList 234
  | .writeEntryClass c f => fitsByte c && fitsWide f.preAlarm && fitsWide f.alarm && fitsWide f.riseStep && fitsWide f.riseCount
      && fitsWide f.night && fitsWide f.bmin && fitsWide f.bmax && fitsWide f.fixedBaseline && fitsWideOption f.window
  | .writeEntryDetector d .removed => fitsByte d
  | .writeEntryDetector d (.placed l a z c) => fitsByte d && fitsByte l && fitsByte a && fitsByte z && fitsByte c
  | .writeEntryLoop l _ _ => fitsByte l
  | .writeEntryScanList l k .endMark => fitsByte l && fitsByte k
  | .writeEntryScanList l k (.address a _) => fitsByte l && fitsByte k && fitsByte a
  | .writeEntryDoor d .unconfigured => fitsByte d
  | .writeEntryDoor d (.configured a b _ _ _ _) => fitsByte d && fitsByte a && fitsSide b
  | .writeEntryCallPoint c .unconfigured => fitsByte c
  | .writeEntryCallPoint c (.configured z _ desks) => fitsByte c && fitsByte z && fitsBytes desks 234
  | .writeEntryDesk d f => fitsByte d && fitsWide f.capacity && fitsWide f.tOffer
  | .writeEntryExit e .unconfigured => fitsByte e
  | .writeEntryExit e (.configured z d) => fitsByte e && fitsByte z && fitsOption d
  | .writeEntryDescriptor i f => fitsWide i && fitsByte f.zone && fitsOption f.sign
  | .writeEntryRouteList z routes => fitsByte z && decide (routes.length ≤ 79) && routes.all fun r => fitsWide r.head && fitsByte r.exit
  | .writeEntrySign g z => fitsByte g && fitsByte z
  | .writeEntryChannel c _ => fitsWide c
  | .writeSettingZoneWing (.tAck n v) => fitsByte n && fitsWide v
  | .writeSettingZoneWing (.tInv n v) => fitsByte n && fitsWide v
  | .writeSettingZoneWing (.tSpread n v) => fitsByte n && fitsWide v
  | .writeSettingZoneWing (.exitDelay n v) => fitsByte n && fitsWide v
  | .writeSettingZoneWing (.vacancyPeriod n v) => fitsByte n && fitsWide v
  | .writeSettingZoneWing (.activityClass n _ _) => fitsByte n
  | .writeSettingLoop l (.scanInterval v) => fitsByte l && fitsWide v
  | .writeSettingLoop l (.settlePeriod v) => fitsByte l && fitsWide v
  | .writeSettingLoop l (.mode _) => fitsByte l
  | .writeSettingDoor d (.tPass v) => fitsByte d && fitsWide v
  | .writeSettingDoor d (.tHeld v) => fitsByte d && fitsWide v
  | .writeSettingDeskList c desks => fitsByte c && fitsBytes desks 236
  | .writeSettingTOffer d v => fitsByte d && fitsWide v
  | .writeSettingRouting _ _ _ => true
  | .writeSettingAuthority _ w _ _ => fitsByte w
  | .readChannel c => fitsWide c
  | .readLog f c => decide (f < 4294967296) && fitsWide c
  | .pollComplete _ r => fitsReading r
  | .mirroredPollComplete _ a b => fitsReading a && fitsReading b
  | .start | .restart | .enterConfiguration | .status
  | .readCallQueue | .powerOn | .frameReceived _ _ | .transmissionEnd _
  | .linkSilenceExpiry _ | .intervalTimerExpiry _ | .powerOffExpiry _ | .settleExpiry _
  | .verifyTimerExpiry _ | .testTimerExpiry _ | .stageTimerExpiry _ | .spreadTimerExpiry _
  | .presenceInput _ | .vacancyTimerExpiry _ | .exitDelayExpiry _ | .contactInput _ _
  | .heldTimerExpiry _ | .notClosedTimerExpiry _ | .rexPress _ | .rexGrantExpiry _
  | .passGrantExpiry _ | .callPointInput _ _ | .offerTimerExpiry _ | .selectionPassEnd
  | .channelLineReport _ _ => true

/-- Whether a command is a command of a station, taken by the executor (11.6). -/
def Instr.isCommand (i : Instr) : Bool :=
  match i with
  | .acknowledgeWing _ | .evacuateWing _ | .silenceWing _ _ | .resetZone _ _
  | .resetWing _ _ | .manualAlarmZone _ | .markExitBlocked _ | .markExitOpen _
  | .disableDetector _ | .enableDetector _ | .restartLoop _ | .start
  | .restart | .enterConfiguration | .setWingMode _ _ | .armZone _
  | .disarmZone _ | .clearBreach _ _ | .passDoor _ | .lockdownWing _
  | .endLockdown _ | .reportPatrol _ | .testZoneOn _ | .testZoneOff _
  | .holdChannels _ _ | .freeChannels _ _ | .releaseDrive _ _ | .restoreDrive _ _
  | .acceptCall _ _ | .clearCall _ | .setDeskCapacity _ _ | .writeEntryZone _ _
  | .writeEntryWing _ _ | .writeEntryClass _ _ | .writeEntryDetector _ _ | .writeEntryLoop _ _ _
  | .writeEntryScanList _ _ _ | .writeEntryDoor _ _ | .writeEntryCallPoint _ _ | .writeEntryDesk _ _
  | .writeEntryExit _ _ | .writeEntryDescriptor _ _ | .writeEntryRouteList _ _ | .writeEntrySign _ _
  | .writeEntryChannel _ _ | .writeSettingZoneWing _ | .writeSettingLoop _ _ | .writeSettingDoor _ _
  | .writeSettingDeskList _ _ | .writeSettingTOffer _ _ | .writeSettingRouting _ _ _ | .writeSettingAuthority _ _ _ _ => true
  | .status | .readZone _ | .readWing _ | .readDetector _
  | .readLoop _ | .readDoor _ | .readCallQueue | .readCallPoint _
  | .readRoute _ | .readExit _ | .readChannel _ | .readLog _ _ => false
  | .powerOn | .frameReceived _ _ | .transmissionEnd _ | .linkSilenceExpiry _
  | .intervalTimerExpiry _ | .powerOffExpiry _ | .settleExpiry _ | .verifyTimerExpiry _
  | .testTimerExpiry _ | .stageTimerExpiry _ | .spreadTimerExpiry _ | .presenceInput _
  | .vacancyTimerExpiry _ | .exitDelayExpiry _ | .contactInput _ _ | .heldTimerExpiry _
  | .notClosedTimerExpiry _ | .rexPress _ | .rexGrantExpiry _ | .passGrantExpiry _
  | .callPointInput _ _ | .offerTimerExpiry _ | .selectionPassEnd | .channelLineReport _ _
  | .pollComplete _ _ | .mirroredPollComplete _ _ _ => false

/-- Whether a command is a query, answered by the query server (11.6). -/
def Instr.isQuery (i : Instr) : Bool :=
  match i with
  | .acknowledgeWing _ | .evacuateWing _ | .silenceWing _ _ | .resetZone _ _
  | .resetWing _ _ | .manualAlarmZone _ | .markExitBlocked _ | .markExitOpen _
  | .disableDetector _ | .enableDetector _ | .restartLoop _ | .start
  | .restart | .enterConfiguration | .setWingMode _ _ | .armZone _
  | .disarmZone _ | .clearBreach _ _ | .passDoor _ | .lockdownWing _
  | .endLockdown _ | .reportPatrol _ | .testZoneOn _ | .testZoneOff _
  | .holdChannels _ _ | .freeChannels _ _ | .releaseDrive _ _ | .restoreDrive _ _
  | .acceptCall _ _ | .clearCall _ | .setDeskCapacity _ _ | .writeEntryZone _ _
  | .writeEntryWing _ _ | .writeEntryClass _ _ | .writeEntryDetector _ _ | .writeEntryLoop _ _ _
  | .writeEntryScanList _ _ _ | .writeEntryDoor _ _ | .writeEntryCallPoint _ _ | .writeEntryDesk _ _
  | .writeEntryExit _ _ | .writeEntryDescriptor _ _ | .writeEntryRouteList _ _ | .writeEntrySign _ _
  | .writeEntryChannel _ _ | .writeSettingZoneWing _ | .writeSettingLoop _ _ | .writeSettingDoor _ _
  | .writeSettingDeskList _ _ | .writeSettingTOffer _ _ | .writeSettingRouting _ _ _ | .writeSettingAuthority _ _ _ _ => false
  | .status | .readZone _ | .readWing _ | .readDetector _
  | .readLoop _ | .readDoor _ | .readCallQueue | .readCallPoint _
  | .readRoute _ | .readExit _ | .readChannel _ | .readLog _ _ => true
  | .powerOn | .frameReceived _ _ | .transmissionEnd _ | .linkSilenceExpiry _
  | .intervalTimerExpiry _ | .powerOffExpiry _ | .settleExpiry _ | .verifyTimerExpiry _
  | .testTimerExpiry _ | .stageTimerExpiry _ | .spreadTimerExpiry _ | .presenceInput _
  | .vacancyTimerExpiry _ | .exitDelayExpiry _ | .contactInput _ _ | .heldTimerExpiry _
  | .notClosedTimerExpiry _ | .rexPress _ | .rexGrantExpiry _ | .passGrantExpiry _
  | .callPointInput _ _ | .offerTimerExpiry _ | .selectionPassEnd | .channelLineReport _ _
  | .pollComplete _ _ | .mirroredPollComplete _ _ _ => false

end Sys2Proof
end

