-- ==== Sys2Proof/Certificates/Slice0/Obligations.lean ====
section
/-! DEFINITION. The statements for the provers. A command completes when the executor's next command spells it
(`Ready`); `s` is the state before the event and `t` the state after it. -/

set_option autoImplicit false

open Sys2Proof Sys2Proof.Machine

/-! ### The step and the queue of waiting commands -/

/-- A step with a command in front runs exactly that command, on the state with the queue's rest. -/
def Obligations.StepTakesFrontCommand : Prop :=
  ∀ (s : State) (c : Instr) (rest : List Instr), s.pending = c :: rest →
    step s = exec c { s with pending := rest }

/-- With no command waiting a step is one tick of the seconds counter, which is the model's choice (log entry 2):
the counter rises by one, every running timer of every record falls by one, and exactly the expiries that are then due
join the queue. -/
def Obligations.IdleStepIsATick : Prop :=
  ∀ s : State, s.pending = [] →
    ∃ t, step s = .next t ∧ t.seconds = s.seconds + 1
      ∧ (∀ z : Fin 64, t.zone z = { s.zone z with
          testTimer := (s.zone z).testTimer.map (· - 1), vacancyTimer := (s.zone z).vacancyTimer.map (· - 1)
          security := match (s.zone z).security with | .exitDelay n => .exitDelay (n - 1) | x => x })
      ∧ (∀ w : Fin 4, t.wing w = { s.wing w with
          spreadTimer := (s.wing w).spreadTimer.map (· - 1)
          stage := match (s.wing w).stage with
            | .ackWait n => .ackWait (n - 1)
            | .investigate n => .investigate (n - 1)
            | x => x })
      ∧ (∀ l : Fin 4, t.loop l = { s.loop l with
          intervalTimer := (s.loop l).intervalTimer.map (· - 1)
          state := match (s.loop l).state with | .restarting p n => .restarting p (n - 1) | x => x })
      ∧ (∀ n : Fin 192, t.detector n = (s.detector n).map fun d => { d with
          state := match d.state with | .verifying k => .verifying (k - 1) | x => x })
      ∧ (∀ n : Fin 48, t.door n = { s.door n with
          heldTimer := (s.door n).heldTimer.map (· - 1), notClosedTimer := (s.door n).notClosedTimer.map (· - 1)
          rex := (s.door n).rex.map fun g => match g with | .counting k => .counting (k - 1) | .opened => .opened
          pass := (s.door n).pass.map fun g => match g with | .counting k => .counting (k - 1) | .opened => .opened })
      ∧ (∀ c : Fin 64, t.point c = { s.point c with
          state := match (s.point c).state with
            | .active h => .active { h with
                phase := match h.phase with | .offered k n => .offered k (n - 1) | x => x }
            | x => x })
      ∧ (∀ st : Station, t.port st = { s.port st with
          link := match (s.port st).link with | .connected n => .connected (n - 1) | .disconnected => .disconnected })
      ∧ (∀ i : Instr, i ∈ t.pending ↔ ExpiryDue t i)
      ∧ OnlyIn [Piece.seconds, .zones, .wings, .loops, .detectors, .doors, .points, .ports, .fieldOut, .stationOut, .pending] s t

/-- No command stops the part: each has a next state in every state, and leaves the waiting commands alone. -/
def Obligations.EveryCommandTakesANextState : Prop :=
  ∀ (i : Instr) (s : State), ∃ t, exec i s = .next t ∧ t.pending = s.pending

/-- The power-on reset input gives the whole part its power-on state, whatever state it finds. That it sends a message of
every channel that it takes from ENABLED to RELEASED is the model's reading (log entry 13), and that these stand by rising
channel number its choice (log entry 47). The commands that wait are the model's own queue and stay (log entry 29). -/
def Obligations.PowerOnResets : Prop :=
  ∀ s : State, ∃ t, exec .powerOn s = .next t
    ∧ t = { State.reset with pending := s.pending, fieldOut := t.fieldOut }
    ∧ t.fieldOut = ((List.finRange 276).filter fun n => decide ((s.channel n).drive = .enabled)).map
        (fun n => { channel := n, drive := .released, value := none })
    ∧ t.part = .configuring ∧ t.log = [] ∧ t.rotation = .fire ∧ t.fireBurst = 0 ∧ t.lastQuery = .services
    ∧ ∀ st : Station, (t.port st).link = .disconnected ∧ (t.port st).commands = [] ∧ (t.port st).queries = []
      ∧ (t.port st).replies = [] ∧ (t.port st).notices = [] ∧ (t.port st).gap = false

/-! ### Invariants -/

/-- The state right after reset meets every invariant below. -/
def Obligations.ResetMeetsInvariants : Prop :=
  LogOk State.reset ∧ PortsOk State.reset ∧ Settled State.reset ∧ CallsOk State.reset ∧ CountsOk State.reset
    ∧ SettingsOk State.reset ∧ QuietWhileConfiguring State.reset ∧ EgressOk State.reset ∧ LoopPairsOk State.reset
    ∧ DoorsOk State.reset

/-- Every step keeps the alarm log in bounds and in rising sequence. -/
def Obligations.LogInvariantKept : Prop := ∀ s t : State, LogOk s → step s = .next t → LogOk t

/-- Every step keeps the queues of the ports in bounds, and a DISCONNECTED port empty. That nothing is being sent at a
DISCONNECTED port is the model's choice (log entry 11). -/
def Obligations.PortInvariantKept : Prop := ∀ s t : State, PortsOk s → step s = .next t → PortsOk t

/-- Every step leaves each channel's effective value by the law of the output stage, and no pass half started; and it
sends the field one message of exactly the channels whose drive it changed, or whose effective value it changed while
ENABLED. An event that does not occur leaves the state as it was. That START and RESTART may send a message of every
channel is the model's reading (log entry 13), and the order of these its choice (log entry 47). -/
def Obligations.EventsEndSettled : Prop :=
  ∀ s t : State, Settled s → step s = .next t →
    Settled t
      ∧ (t = { s with pending := t.pending } ∨ MessagesSent s t
        ∨ (∃ rest, s.pending = .start :: rest ∨ s.pending = .restart :: rest)
          ∧ t.fieldOut = (List.finRange 276).map fun n => fieldMessage n (t.channel n))

/-- Every step keeps the call queue exact and in its order, the offered calls of the desks exact and within their
capacities, and every next desk a place of its call's cycle; and it leaves no call waiting for a desk that would take it.
That the earlier of two first press times is the smaller value of the seconds counter, also across its wrap, is the model's
choice (log entry 53). -/
def Obligations.CallInvariantKept : Prop := ∀ s t : State, CallsOk s → step s = .next t → CallsOk t

/-- Every step keeps the detector count and the impaired count of every zone exact. -/
def Obligations.CountInvariantKept : Prop := ∀ s t : State, CountsOk s → step s = .next t → CountsOk t

/-- Every step keeps every live setting in its range. -/
def Obligations.SettingsInvariantKept : Prop := ∀ s t : State, SettingsOk s → step s = .next t → SettingsOk t

/-- Every step keeps the egress flag of a configured zone set exactly while its wing is in EVACUATE. -/
def Obligations.EgressFollowsStage : Prop := ∀ s t : State, EgressOk s → step s = .next t → EgressOk t

/-- Every step leaves each door the value and the cause of the first matching line of its precedence, its channel that
source value, and a closed door the status of its channel's effective value. That it holds in CONFIGURING too is the
model's reading (log entry 23), as is the status that a closing takes (log entry 21); the value that an unconfigured
record holds is its choice (log entry 22). -/
def Obligations.DoorsFollowPrecedence : Prop := ∀ s t : State, DoorsOk s → step s = .next t → DoorsOk t

/-- Every step keeps the two loops of a pair in agreement, in the fields that a mirrored pair has in common too. That the
interval timer of a mirrored pair runs in the lower loop's record alone is the model's reading (log entry 20). -/
def Obligations.LoopPairsAgree : Prop := ∀ s t : State, LoopPairsOk s → step s = .next t → LoopPairsOk t

/-! ### Requests and frames -/

/-- The body written for a well-formed command or query spells it again, and fits a frame. An empty body, and one whose
code is none of section 11.6, spell no command and no query. The numbers of the enumerations and tables in a body are the
model's choice (log entry 3), and so are the bytes of a set of stations (log entry 55); that an evacuation desk left unset is
the byte FF is its reading (log entry 49). -/
def Obligations.RequestRoundTrip : Prop :=
  (∀ i : Instr, i.wf = true →
    (i.isCommand = true → decodeCommand (encodeRequest i) = .row i)
      ∧ (i.isQuery = true → decodeQuery (encodeRequest i) = .row i)
      ∧ ((i.isCommand || i.isQuery) = true → (encodeRequest i).length ≤ Config.bodyMax))
  ∧ decodeCommand [] = .unknown ∧ decodeQuery [] = .unknown
  ∧ ∀ (code : Byte) (operands : List Byte),
    (¬ (0x10#8 ≤ code ∧ code ≤ 0x1D#8 ∨ 0x20#8 ≤ code ∧ code ≤ 0x2C#8 ∨ 0x30#8 ≤ code ∧ code ≤ 0x34#8) →
      decodeCommand (code :: operands) = .unknown)
    ∧ (¬ (0x40#8 ≤ code ∧ code ≤ 0x4B#8) → decodeQuery (code :: operands) = .unknown)

/-- The hunt for a frame finds a frame written at the front of the bytes, and leaves the bytes behind it. It passes over a
byte that is no marker; where the length is above 240 or the check fails it starts anew at the byte behind the discarded
frame's marker; and it holds the bytes of a frame that is not whole. That the bytes behind a frame, and those of a frame that
is not whole, are held for the next hunt is the model's choice (log entry 10). -/
def Obligations.FrameRoundTrip : Prop :=
  (∀ (f : Frame) (rest : List Byte), f.body.length ≤ Config.bodyMax →
    hunt (f.bytes ++ rest) = { frame := some f, held := rest })
  ∧ (∀ (b : Byte) (rest : List Byte), b ≠ 0xA5#8 → hunt (b :: rest) = hunt rest)
  ∧ (∀ (kind tag length : Byte) (rest : List Byte), 240 < length.toNat →
    hunt (0xA5#8 :: kind :: tag :: length :: rest) = hunt (kind :: tag :: length :: rest))
  ∧ (∀ (kind tag length high low : Byte) (body rest : List Byte), length.toNat ≤ 240 → body.length = length.toNat →
    crc ([kind, tag, length] ++ body) ≠ high ++ low →
    hunt (0xA5#8 :: kind :: tag :: length :: (body ++ high :: low :: rest))
      = hunt (kind :: tag :: length :: (body ++ high :: low :: rest)))
  ∧ (∀ bytes : List Byte,
    (bytes.length < 3 ∨ ∃ kind tag length rest, bytes = kind :: tag :: length :: rest ∧ length.toNat ≤ 240
      ∧ rest.length < length.toNat + 2) →
    hunt (0xA5#8 :: bytes) = { frame := none, held := 0xA5#8 :: bytes })

/-- The executor's choice of a port: the fire port while the burst count is below 4, else the first in the cycle
from the rotation pointer, the fire port passed over at burst 4; the command it takes is the oldest of that port. The query
server takes the oldest query of the next port in the cycle, after the one last served, that holds one. That at burst 4 no
command is taken where the fire port alone holds one is the model's reading (log entry 8). -/
def Obligations.ExecutorChoosesPort : Prop :=
  ∀ s : State,
    ((s.port .fire).holdsCommand = true → s.fireBurst < 4 →
      choosePort s = some { port := .fire, rotation := s.rotation
                            burst := if (s.port .guard).holdsCommand || (s.port .services).holdsCommand then s.fireBurst + 1
                              else 0 })
    ∧ (((s.port .fire).holdsCommand = false ∨ 4 ≤ s.fireBurst) →
      ∀ st : Station, (s.port st).holdsCommand = true → (st = .fire → s.fireBurst ≠ 4) →
        (∀ y : Station, (y = s.rotation ∨ (y = s.rotation.after ∧ st ≠ s.rotation)) → y ≠ st →
          (s.port y).holdsCommand = false ∨ (y = .fire ∧ s.fireBurst = 4)) →
        choosePort s = some { port := st, rotation := st.after, burst := 0 })
    ∧ (choosePort s = none → ∀ st : Station,
      (s.port st).commands = [] ∨ Config.replyMax ≤ (s.port st).replies.length ∨ (st = .fire ∧ 4 ≤ s.fireBurst))
    ∧ (∀ c, choosePort s = some c → ∃ x, nextCommand s = some x ∧ x.port = c.port ∧ x.state.rotation = c.rotation
      ∧ x.state.fireBurst = c.burst ∧ (s.port c.port).commands.head? = some x.request
      ∧ (x.state.port c.port).commands = (s.port c.port).commands.tail)
    ∧ (∀ st : Station, (s.port st).holdsQuery = true →
      (∀ y : Station, y ≠ st → (y = s.lastQuery.after ∨ st = s.lastQuery) → (s.port y).holdsQuery = false) →
      ∃ x, nextQuery s = some x ∧ x.port = st ∧ x.state.lastQuery = st
        ∧ (s.port st).queries.head? = some x.request ∧ (x.state.port st).queries = (s.port st).queries.tail)
    ∧ (nextQuery s = none ↔ ∀ st : Station,
      (s.port st).queries = [] ∨ Config.replyMax ≤ (s.port st).replies.length)

/-- The executor's checks in their order. In CONFIGURING a runtime command is answered NOT_IN_SERVICE, and in service
WRITE ENTRY and START are answered WRONG_STATE. In service a runtime command that names a missing object is answered
BAD_OBJECT, and one whose object stands, from a station without its authority, NOT_PERMITTED. In CONFIGURING the
guard station writes no entry. A body that spells no command is answered BAD_VALUE, and a body in the query queue that spells
no query too; so are a WRITE ENTRY of a table outside the fourteen and a TEST ZONE whose switch is neither on nor off, where
the part state, the object and the authority let them pass. None of these changes anything else. That a body that spells no
command is taken in the event of whatever command or query row stands in front, and where the unknown table and switch are
judged, is the model's reading (log entry 7). -/
def Obligations.CommandsJudgedInOrder : Prop :=
  (∀ (i : Instr) (s : State) (x : TakenRequest), Ready i s x →
    (s.part = .configuring → isRuntime i = true → AnswersOnly i s x .notInService)
      ∧ (s.part = .inService → isConfiguring i = true → AnswersOnly i s x .wrongState)
      ∧ (s.part = .inService → NamesMissing s i → AnswersOnly i s x .badObject)
      ∧ (s.part = .inService → ¬ NamesMissing s i → Unauthorised s x.port i → AnswersOnly i s x .notPermitted)
      ∧ (s.part = .configuring → isConfiguring i = true → i ≠ .start → x.port = .guard →
        AnswersOnly i s x .badObject ∨ AnswersOnly i s x .notPermitted))
  ∧ ∀ (i : Instr) (s : State) (x : TakenRequest), s.engine ≠ .opening →
    (i.isCommand = true → nextCommand s = some x →
      (decodeCommand x.request.body = .unknown → AnswersOnly i s x .badValue)
      ∧ (∀ (table : Byte) (rest : List Byte), x.request.body = 0x33#8 :: table :: rest → 14 ≤ table.toNat →
        (s.part = .inService → AnswersOnly i s x .wrongState)
          ∧ (s.part = .configuring → x.port = .guard → AnswersOnly i s x .notPermitted)
          ∧ (s.part = .configuring → x.port ≠ .guard → AnswersOnly i s x .badValue))
      ∧ (∀ zone switch : Byte, x.request.body = [0x28#8, zone, switch] → 2 ≤ switch.toNat →
        (s.part = .configuring → AnswersOnly i s x .notInService)
          ∧ (s.part = .inService → namesNone zone.toNat (fun k : Fin 64 => (s.zone k).configured = true) →
            AnswersOnly i s x .badObject)
          ∧ (∀ z : Fin 64, zone.toNat = z.val → s.part = .inService → (s.zone z).configured = true →
            AnswersOnly i s x (if holdsService s x.port (s.wingOf z) then .badValue else .notPermitted))))
    ∧ (i.isQuery = true → nextQuery s = some x → decodeQuery x.request.body = .unknown →
      Answers i s x .badValue .none)

/-- FRAME RECEIVED: a valid frame reloads or makes the connection and joins its queue, or is answered at once. Bytes that
complete no valid frame are held as the hunt leaves them, and do nothing else. At a DISCONNECTED port LINK_UP is appended
first; where no call waits, or the part is CONFIGURING, it is the only entry, and is offered as a notice to the stations
of the group SYSTEM. That the bytes behind the frame are held is the model's choice (log entry 10), that no offering round
runs for a connection made in CONFIGURING its reading of R130 (log entry 11), and that the wrap of the sequence sets the
gap markers before the notice is offered its choice (log entry 48). -/
def Obligations.FrameReceivedIsQueued : Prop :=
  (∀ (s : State) (st : Station) (bytes rest : List Byte), s.engine ≠ .opening →
    hunt ((s.port st).received ++ bytes) = { frame := none, held := rest } →
      Occurs (.frameReceived st bytes) s fun t =>
        t.port st = { s.port st with received := rest, sending := (t.port st).sending }
          ∧ ((s.port st).sending ≠ none → (t.port st).sending = (s.port st).sending)
          ∧ OtherPortsQuiet st s t ∧ NoticesKept s t ∧ OnlyIn outward s t ∧ t.fieldOut = [])
  ∧ ∀ (s : State) (st : Station) (bytes rest : List Byte) (f : Frame), s.engine ≠ .opening →
    hunt ((s.port st).received ++ bytes) = { frame := some f, held := rest } →
    (∀ n, (s.port st).link = .connected n →
      Occurs (.frameReceived st bytes) s fun t =>
        FrameQueued f rest (s.port st) (t.port st) ∧ OtherPortsQuiet st s t ∧ NoticesKept s t
          ∧ OnlyIn outward s t)
    ∧ ((s.port st).link = .disconnected →
      Occurs (.frameReceived st bytes) s fun t =>
        FrameQueued f rest (s.port st) (t.port st) ∧ OtherPortsQuiet st s t
          ∧ LoggedFirst s t [{ kind := .linkUp, subject := .station st, wing := none, detail := .none }]
          ∧ (s.inService = false ∨ s.callQueue = [] →
            Logged s t [{ kind := .linkUp, subject := .station st, wing := none, detail := .none }]
              ∧ Noticed s t { kind := .linkUp, subject := .station st, wing := none, detail := .none }
                s.routing.system.has)
          ∧ OnlyIn ([Piece.wings, .points, .desks, .log] ++ outward) s t)

/-- TRANSMISSION END: the reply or notice being sent leaves its list and goes out, and the transmitter takes the
oldest pending reply, or else the head of the notice queue. That a TRANSMISSION END with nothing being sent leaves the
state as it was is the model's reading (log entry 4). -/
def Obligations.TransmissionEndSends : Prop :=
  ∀ (s : State) (st : Station), s.engine ≠ .opening →
    (∀ r rest, (s.port st).sending = some .reply → (s.port st).replies = r :: rest →
      Occurs (.transmissionEnd st) s fun t =>
        t.stationOut = [(st, .reply r)]
          ∧ t.port st = { s.port st with
              replies := rest
              sending := if rest ≠ [] then some .reply else if (s.port st).notices ≠ [] then some .notice else none }
          ∧ OnlyIn outward s t)
    ∧ (∀ n rest, (s.port st).sending = some .notice → (s.port st).notices = n :: rest →
      Occurs (.transmissionEnd st) s fun t =>
        t.stationOut = [(st, .notice n)]
          ∧ t.port st = { s.port st with
              notices := rest
              sending := if (s.port st).replies ≠ [] then some .reply else if rest ≠ [] then some .notice else none }
          ∧ OnlyIn outward s t)
    ∧ ((s.port st).sending = none → exec (.transmissionEnd st) s = .next s)

/-- LINK SILENCE EXPIRY: the port loses its link, its queues and its replies, and its gap marker sets where a notice was
discarded or LINK_LOST is routed to it; LINK_LOST is appended, a lost fire port evacuates every wing in ACK_WAIT or
INVESTIGATE, and no desk of the station keeps a queued call. That the transmission under way is cut is the model's choice
(log entry 11), and so is the order in which the calls are taken (log entry 38). -/
def Obligations.LinkSilenceLosesPort : Prop :=
  ∀ (s : State) (st : Station), (s.port st).link = .connected 0 →
    Occurs (.linkSilenceExpiry st) s fun t =>
      (t.port st).link = .disconnected ∧ (t.port st).commands = [] ∧ (t.port st).queries = []
        ∧ (t.port st).replies = [] ∧ (t.port st).notices = [] ∧ (t.port st).sending = none
        ∧ (((s.port st).gap = true ∨ (s.port st).notices ≠ [] ∨ s.routing.system.has st = true) →
          (t.port st).gap = true)
        ∧ OtherPortsQuiet st s t
        ∧ LoggedFirst s t [{ kind := .linkLost, subject := .station st, wing := none, detail := .none }]
        ∧ (∀ w : Fin 4, st = .fire → (s.wing w).stage.waits = true →
          (t.wing w).stage = .evacuate ∧ (t.wing w).silenced = false ∧ (∀ z ∈ s.zonesOf w, (t.zone z).egress = true)
            ∧ LoggedAmong s t
              { kind := .stageChange, subject := .wing w, wing := some w, detail := .stage .evacuate .linkLoss })
        ∧ (∀ w : Fin 4, st ≠ .fire ∨ (s.wing w).stage.waits = false → (t.wing w).stage = (s.wing w).stage)
        ∧ (∀ c ∈ s.callQueue, ∀ h, t.call c = some h → ∀ k, (s.desk k).owner = some st →
          h.phase ≠ .accepted k ∧ ∀ n, h.phase ≠ .offered k n)
        ∧ OnlyIn (evacuating ++ outward) s t ∧ DoorsKept s t

/-! ### The commands of the fire station -/

/-- ACKNOWLEDGE WING: from the fire station in ACK_WAIT the wing enters INVESTIGATE with T_inv, and its STAGE_CHANGE is
offered as a notice to the stations of the group FIRE; in every other stage the command is refused with WRONG_STATE, and
from another station with NOT_PERMITTED. That the wrap of the sequence sets the gap markers before the notice is offered is
the model's choice (log entry 48). -/
def Obligations.AcknowledgeWing : Prop :=
  ∀ (s : State) (x : TakenRequest) (w : Fin 4), Ready (.acknowledgeWing w.val) s x → s.inService = true →
    (∀ k, x.port = .fire → (s.wing w).stage = .ackWait k →
      Completes (.acknowledgeWing w.val) s x .done .none fun t =>
        t.wing w = { s.wing w with
            stage := .investigate (s.wing w).tInv, revision := (s.wing w).revision + 1 }
          ∧ (∀ v, v ≠ w → t.wing v = s.wing v)
          ∧ Logged s t
            [{ kind := .stageChange, subject := .wing w, wing := some w, detail := .stage .investigate .acknowledge }]
          ∧ Noticed s t
            { kind := .stageChange, subject := .wing w, wing := some w, detail := .stage .investigate .acknowledge }
            s.routing.fire.has
          ∧ (t.channel (sounderChannel w)).source = .off
          ∧ (∀ n, n ≠ sounderChannel w → t.channel n = s.channel n)
          ∧ OnlyIn ([Piece.wings, .channels, .log] ++ answering) s t)
    ∧ (x.port = .fire → (∀ k, (s.wing w).stage ≠ .ackWait k) → AnswersOnly (.acknowledgeWing w.val) s x .wrongState)
    ∧ (x.port ≠ .fire → AnswersOnly (.acknowledgeWing w.val) s x .notPermitted)

/-- EVACUATE WING: from the fire station a wing in STANDBY, ACK_WAIT or INVESTIGATE enters EVACUATE with cause
COMMAND, with all that this brings: egress, and out of STANDBY the suspension of its armed zones among it; in EVACUATE the
command is answered DONE and changes nothing; from another station it is refused. -/
def Obligations.EvacuateWing : Prop :=
  ∀ (s : State) (x : TakenRequest) (w : Fin 4), Ready (.evacuateWing w.val) s x → s.inService = true →
    (x.port = .fire → (s.wing w).stage ≠ .evacuate →
      Completes (.evacuateWing w.val) s x .done .none fun t =>
        EntersEvacuate w s t ∧ ZonesEvacuated w s t ∧ (∀ z, (t.zone z).fire = (s.zone z).fire)
          ∧ LoggedFirst s t
            [{ kind := .stageChange, subject := .wing w, wing := some w, detail := .stage .evacuate .command }]
          ∧ OnlyIn (evacuating ++ answering) s t)
    ∧ (x.port = .fire → (s.wing w).stage = .evacuate → AnswersOnly (.evacuateWing w.val) s x .done)
    ∧ (x.port ≠ .fire → AnswersOnly (.evacuateWing w.val) s x .notPermitted)

/-- SILENCE WING: in EVACUATE with the wing's revision the silenced flag sets and the sounder becomes OFF. -/
def Obligations.SilenceWing : Prop :=
  ∀ (s : State) (x : TakenRequest) (w : Fin 4) (r : Revision), Ready (.silenceWing w.val r) s x →
    s.inService = true →
    (x.port = .fire → r = (s.wing w).revision → (s.wing w).stage = .evacuate → (s.wing w).silenced = false →
      Completes (.silenceWing w.val r) s x .done .none fun t =>
        t.wing w = { s.wing w with silenced := true, revision := (s.wing w).revision + 1 }
          ∧ (∀ v, v ≠ w → t.wing v = s.wing v)
          ∧ Logged s t [{ kind := .wingSilenced, subject := .wing w, wing := some w, detail := .none }]
          ∧ (t.channel (sounderChannel w)).source = .off
          ∧ (∀ n, n ≠ sounderChannel w → t.channel n = s.channel n)
          ∧ OnlyIn ([Piece.wings, .channels, .log] ++ answering) s t)
    ∧ (x.port = .fire → r = (s.wing w).revision → (s.wing w).stage = .evacuate → (s.wing w).silenced = true →
      AnswersOnly (.silenceWing w.val r) s x .done)
    ∧ (x.port = .fire → r ≠ (s.wing w).revision → AnswersOnly (.silenceWing w.val r) s x .staleView)
    ∧ (x.port = .fire → r = (s.wing w).revision → (s.wing w).stage ≠ .evacuate →
      AnswersOnly (.silenceWing w.val r) s x .wrongState)
    ∧ (x.port ≠ .fire → AnswersOnly (.silenceWing w.val r) s x .notPermitted)

/-- RESET ZONE: a zone in ALARM that passes the zone-reset test takes its derived fire state with ZONE_RESET, its
detectors in ALARM return to NORMAL and its latched fire call points to IDLE, and a wing in ACK_WAIT or INVESTIGATE
with no other zone in ALARM returns to STANDBY, with all that this brings, STAGE_CHANGE behind ZONE_RESET; a stale view, a
zone not in ALARM and a zone still active are refused. That STAGE_CHANGE stands before the entries of the return's effects is
the model's choice (log entry 24). -/
def Obligations.ResetZone : Prop :=
  ∀ (s : State) (x : TakenRequest) (z : Fin 64) (r : Revision), Ready (.resetZone z.val r) s x →
    s.inService = true → (s.zone z).configured = true → x.port = .fire →
    (r = (s.wing (s.wingOf z)).revision → (s.zone z).fire.inAlarm = true → passesReset s z = true →
      Completes (.resetZone z.val r) s x .done .none fun t =>
        (t.zone z).fire = derivedFire s z
          ∧ (∀ y, y ≠ z → (t.zone y).fire = (s.zone y).fire)
          ∧ (∀ n d, s.detector n = some d →
            t.detector n = some (if d.zone = z ∧ d.state = .alarm then { d with state := .normal, riseRun := 0 } else d))
          ∧ (∀ c, (s.point c).configured = true → (s.point c).zone = z → (s.point c).state = .latched →
            (t.point c).state = .idle ∧ (t.point c).lamp = .off ∧ (t.channel (lampChannel c)).source = .off)
          ∧ LoggedFirst s t
            [{ kind := .zoneReset, subject := .zone z, wing := some (s.wingOf z)
               detail := .fireState (derivedFire s z).name }]
          ∧ (t.wing (s.wingOf z)).stage
            = (if (s.wing (s.wingOf z)).stage.waits = true
                ∧ (∀ y ∈ s.zonesOf (s.wingOf z), y ≠ z → (s.zone y).fire.inAlarm = false) then .standby
              else (s.wing (s.wingOf z)).stage)
          ∧ (∀ v, v ≠ s.wingOf z → (t.wing v).stage = (s.wing v).stage) ∧ Triggered s t
          ∧ ((t.wing (s.wingOf z)).stage = (s.wing (s.wingOf z)).stage →
            t.zone z = { s.zone z with fire := derivedFire s z } ∧ (∀ y, y ≠ z → t.zone y = s.zone y)
              ∧ t.wing (s.wingOf z)
                = { s.wing (s.wingOf z) with revision := (s.wing (s.wingOf z)).revision + 1 })
          ∧ ((t.wing (s.wingOf z)).stage ≠ (s.wing (s.wingOf z)).stage →
            ReturnsToStandby (s.wingOf z) s t
              ∧ LoggedFirst s t
                [ { kind := .zoneReset, subject := .zone z, wing := some (s.wingOf z)
                    detail := .fireState (derivedFire s z).name }
                , { kind := .stageChange, subject := .wing (s.wingOf z), wing := some (s.wingOf z)
                    detail := .stage .standby .zoneReset } ])
          ∧ OnlyIn ([Piece.zones, .wings, .detectors, .doors, .points, .callQueue, .exits, .engine, .channels, .log]
            ++ answering) s t)
    ∧ (r ≠ (s.wing (s.wingOf z)).revision → AnswersOnly (.resetZone z.val r) s x .staleView)
    ∧ (r = (s.wing (s.wingOf z)).revision → (s.zone z).fire.inAlarm = false →
      AnswersOnly (.resetZone z.val r) s x .wrongState)
    ∧ (r = (s.wing (s.wingOf z)).revision → (s.zone z).fire.inAlarm = true → passesReset s z = false →
      AnswersOnly (.resetZone z.val r) s x .stillActive)

/-- RESET WING: the wing's zones in ALARM are reset, each with its ZONE_RESET entry by rising number, its detectors in
ALARM back in NORMAL and its latched fire call points IDLE; then the wing returns to STANDBY with WING_RESET and all that the
return brings, the restoration of suspended zones among it. One zone that fails the zone-reset test holds the whole reset
back. That WING_RESET stands before the entries of the return's effects is the model's choice (log entry 24). -/
def Obligations.ResetWing : Prop :=
  ∀ (s : State) (x : TakenRequest) (w : Fin 4) (r : Revision), Ready (.resetWing w.val r) s x →
    s.inService = true → x.port = .fire →
    (r = (s.wing w).revision → (s.wing w).stage ≠ .standby →
      (∀ z ∈ s.zonesOf w, (s.zone z).fire.inAlarm = true → passesReset s z = true) →
      Completes (.resetWing w.val r) s x .done .none fun t =>
        ReturnsToStandby w s t
          ∧ (∀ z, t.zone z = (if z ∈ s.zonesOf w then
              { s.zone z with
                fire := if (s.zone z).fire.inAlarm then derivedFire s z else (s.zone z).fire
                egress := false, security := (t.zone z).security }
            else s.zone z))
          ∧ (∀ n d, s.detector n = some d →
            t.detector n = some (if d.zone ∈ s.zonesOf w ∧ (s.zone d.zone).fire.inAlarm = true ∧ d.state = .alarm then
              { d with state := .normal, riseRun := 0 } else d))
          ∧ (∀ c, (s.point c).configured = true → (s.point c).zone ∈ s.zonesOf w →
            (s.zone (s.point c).zone).fire.inAlarm = true → (s.point c).state = .latched →
            t.point c = { s.point c with state := .idle, lamp := .off }
              ∧ (t.channel (lampChannel c)).source = .off)
          ∧ (∀ c, s.wingOf (s.point c).zone ≠ w → t.point c = s.point c)
          ∧ ((∃ z ∈ s.zonesOf w, (s.zone z).fire.inAlarm = true) → Triggered s t)
          ∧ LoggedFirst s t
            (((s.zonesOf w).filter fun z => (s.zone z).fire.inAlarm).map (fun z =>
                { kind := .zoneReset, subject := .zone z, wing := some w
                  detail := .fireState (derivedFire s z).name : LogItem })
              ++ [{ kind := .wingReset, subject := .wing w, wing := some w
                    detail := .stageLeft (s.wing w).stage.name }])
          ∧ OnlyIn ([Piece.zones, .wings, .detectors, .doors, .points, .callQueue, .exits, .engine, .channels, .log]
            ++ answering) s t)
    ∧ (r ≠ (s.wing w).revision → AnswersOnly (.resetWing w.val r) s x .staleView)
    ∧ (r = (s.wing w).revision → (s.wing w).stage = .standby → AnswersOnly (.resetWing w.val r) s x .wrongState)
    ∧ (∀ z, r = (s.wing w).revision → (s.wing w).stage ≠ .standby → z ∈ s.zonesOf w →
      (s.zone z).fire.inAlarm = true → passesReset s z = false → AnswersOnly (.resetWing w.val r) s x .stillActive)

/-- MANUAL ALARM ZONE: the zone enters ALARM with origin STATION unless it is there, and its wing evacuates, with all
that this brings; a silenced wing in EVACUATE resounds where the zone was not in ALARM, and not otherwise. -/
def Obligations.ManualAlarmZone : Prop :=
  ∀ (s : State) (x : TakenRequest) (z : Fin 64), Ready (.manualAlarmZone z.val) s x → s.inService = true →
    (s.zone z).configured = true → x.port = .fire →
    Completes (.manualAlarmZone z.val) s x .done .none fun t =>
      (t.zone z).fire = (if (s.zone z).fire.inAlarm then (s.zone z).fire else .alarm .station s.seconds)
        ∧ (t.wing (s.wingOf z)).stage = .evacuate
        ∧ (∀ y, y ≠ z → (t.zone y).fire = (s.zone y).fire)
        ∧ (∀ v, v ≠ s.wingOf z → (t.wing v).stage = (s.wing v).stage)
        ∧ LoggedFirst s t
          ({ kind := .manualAlarm, subject := .zone z, wing := some (s.wingOf z), detail := .none } ::
            (if (s.zone z).fire.inAlarm then [] else
              [{ kind := .zoneAlarm, subject := .zone z, wing := some (s.wingOf z), detail := .origin .station }]))
        ∧ ((s.wing (s.wingOf z)).stage ≠ .evacuate →
          EntersEvacuate (s.wingOf z) s t ∧ ZonesEvacuated (s.wingOf z) s t)
        ∧ SilenceTaken z .station s t
        ∧ ((s.wing (s.wingOf z)).stage = .evacuate →
          t.zone z = { s.zone z with fire := (t.zone z).fire } ∧ (∀ y, y ≠ z → t.zone y = s.zone y)
            ∧ (((s.zone z).fire.inAlarm = true ∨ (s.wing (s.wingOf z)).silenced = false) →
              Logged s t
                ({ kind := .manualAlarm, subject := .zone z, wing := some (s.wingOf z), detail := .none } ::
                  (if (s.zone z).fire.inAlarm then [] else
                    [{ kind := .zoneAlarm, subject := .zone z, wing := some (s.wingOf z)
                       detail := .origin .station }]))))
        ∧ ((s.zone z).fire.inAlarm = false → Triggered s t)
        ∧ OnlyIn ([Piece.exits] ++ evacuating ++ answering) s t ∧ DoorsKept s t

/-- MARK EXIT BLOCKED and MARK EXIT OPEN: the station-blocked flag is written, the exit's state follows, and the
change is logged and handed to the Route Engine; a mark that stands already changes nothing. -/
def Obligations.MarkExit : Prop :=
  ∀ (s : State) (x : TakenRequest) (e : Fin 16) (i : Instr) (blocked : Bool),
    (i = .markExitBlocked e.val ∧ blocked = true ∨ i = .markExitOpen e.val ∧ blocked = false) → Ready i s x →
    s.inService = true → (s.exit e).configured = true →
    (x.port = .fire → (s.exit e).stationBlocked ≠ blocked →
      Completes i s x .done .none fun t =>
        t.exit e = { s.exit e with
            stationBlocked := blocked
            state := if (s.zone (s.exit e).zone).fire.inAlarm || blocked then .blocked else .available }
          ∧ (∀ y, y ≠ e → t.exit y = s.exit y)
          ∧ Logged s t
            [{ kind := .exitMarked, subject := .exit e, wing := some (s.wingOf (s.exit e).zone)
               detail := .exitMark (if blocked then .blocked else .available) }]
          ∧ Triggered s t
          ∧ (∀ v, (t.wing v).stage = (s.wing v).stage)
          ∧ OnlyIn ([Piece.exits, .wings, .engine, .log] ++ answering) s t)
    ∧ (x.port = .fire → (s.exit e).stationBlocked = blocked → AnswersOnly i s x .done)
    ∧ (x.port ≠ .fire → AnswersOnly i s x .notPermitted)

/-- DISABLE DETECTOR and ENABLE DETECTOR: the request waits on the detector's loop, and nothing else changes. -/
def Obligations.DetectorRequests : Prop :=
  ∀ (s : State) (x : TakenRequest) (n : Fin 192) (d : Detector) (i : Instr) (r : WaitingRequest),
    (i = .disableDetector n.val ∧ r = .disable ∨ i = .enableDetector n.val ∧ r = .enable) → Ready i s x →
    s.inService = true → s.detector n = some d →
    ((x.port = .fire ∨ holdsService s x.port (s.wingOf d.zone) = true) →
      Completes i s x .done .none fun t =>
        t.detector n = some { d with waiting := some r } ∧ (∀ m, m ≠ n → t.detector m = s.detector m)
          ∧ OnlyIn ([Piece.detectors] ++ answering) s t)
    ∧ (x.port ≠ .fire → holdsService s x.port (s.wingOf d.zone) = false → AnswersOnly i s x .notPermitted)

/-- RESTART LOOP: every loop it reaches enters RESTARTING in phase POWER_OFF with its power off, its scan abandoned
and a pending mode taken, and every detector of it that is not DISABLED is UNMONITORED. A pair that is mirrored now has the
last scan start time of its lower loop, and a restart keeps that time: both are the model's readings (log entries 20 and
41). -/
def Obligations.RestartLoop : Prop :=
  ∀ (s : State) (x : TakenRequest) (l : Fin 4), LoopPairsOk s → Ready (.restartLoop l.val) s x →
    s.inService = true → (s.loop l).inUse = true → (x.port = .fire ∨ servesLoop s x.port l = true) →
    ((∀ k ∈ restartReach s l, (s.loop k).state.isRestarting = false) →
      Completes (.restartLoop l.val) s x .done .none fun t =>
        (∀ k ∈ restartReach s l,
          (t.loop k).state = .restarting .powerOff 1 ∧ (t.loop k).power = false ∧ (t.loop k).scan = none
            ∧ (t.loop k).due = false ∧ (t.loop k).intervalTimer = none ∧ (t.loop k).pendingMode = none
            ∧ (t.loop k).mode = (s.loop k).pendingMode.getD (s.loop k).mode
            ∧ (t.loop k).lastStart
              = (s.loop (if (t.loop k).mode = .mirrored then lowerLoop (pairOf k) else k)).lastStart
            ∧ ((s.loop k).pendingMode = some .mirrored → (t.loop k).inUse = true)
            ∧ ((s.loop k).mode = .mirrored → (s.loop k).pendingMode = some .independent →
              (t.loop k).breakPosition = none)
            ∧ LoggedAmong s t
              { kind := .loopRestart, subject := .loop k, wing := none
                detail := .loopMode ((s.loop k).pendingMode.getD (s.loop k).mode) })
          ∧ (∀ n d, s.detector n = some d → d.loop ∈ restartReach s l →
            ∃ e, t.detector n = some e ∧ e.mismatch = false ∧ e.baseline = d.baseline
              ∧ e.state = (if d.state = .disabled then .disabled else .unmonitored))
          ∧ (∀ v, (t.wing v).stage = (s.wing v).stage) ∧ OnlyIn (scanning ++ answering) s t)
    ∧ (∀ k ∈ restartReach s l, (s.loop k).state.isRestarting = true →
      AnswersOnly (.restartLoop l.val) s x .wrongState)

/-- START: from the fire station in CONFIGURING, with every check passed, the part comes into service with the START
values of every record, a baseline within its class, and a message of every channel, which is the model's reading (log entry
13), by rising channel number, which is its choice (log entry 47); the fire call of each break-glass point that stands
pressed is taken; a failed check is answered CONFIG_ERROR and changes nothing. Which object CONFIG_ERROR names is in part the
model's reading (log entry 40), and so is the slot from which a detector's state at START is taken, which may stand behind an
END (log entry 15); the state AVAILABLE that the record of an unconfigured exit holds is its choice (log entry 22). -/
def Obligations.StartBringsInService : Prop :=
  ∀ (s : State) (x : TakenRequest), Ready .start s x → s.part = .configuring →
    (x.port = .fire → startCheck s = none →
      Completes .start s x .done .none fun t =>
        ComesIntoService .partStarted s t
          ∧ (∀ (n : Fin 192) d, s.detector n = some d → ∃ e, t.detector n = some e
            ∧ e.baseline
              = (if (s.cls d.cls).tracking then clamp (16 * (s.cls d.cls).bmin) (16 * (s.cls d.cls).bmax) d.baseline
                else 16 * (s.cls d.cls).fixedBaseline)
            ∧ e.compLimit = decide (e.baseline = 16 * (s.cls d.cls).bmax))
          ∧ OnlyIn ([Piece.part, .zones, .wings, .loops, .converters, .detectors, .doors, .points, .callQueue, .desks
            , .exits, .signs, .engine, .channels, .log] ++ answering) s t)
    ∧ (∀ n o, x.port = .fire → startCheck s = some (n, o) →
      Completes .start s x .configError (.configError n o) fun t => OnlyIn answering s t ∧ t.fieldOut = [])
    ∧ (x.port ≠ .fire → AnswersOnly .start s x .notPermitted)

/-- The checks that START runs pass exactly on the configurations that its table requires. That the addresses behind the
first END of a list are checked with the others is the model's reading (log entry 15). -/
def Obligations.StartChecksRequire : Prop := ∀ s : State, startCheck s = none ↔ StartChecksHold s

/-- RESTART and ENTER CONFIGURATION: from the fire station with every wing in STANDBY the runtime state of every record
is cleared to its reset values and the tables are kept; RESTART keeps the baselines, and takes the fire call of each
break-glass point that stands pressed. A RESTART with a help call active is refused with IN_USE, and both are refused
with EVAC_ACTIVE out of STANDBY. That a RESTART sends a message of every channel, also where the drive stays, is the model's
reading (log entry 13), and the order of these its choice (log entry 47). The slot from which a detector's state at RESTART
is taken may stand behind an END, which is its reading (log entry 15), and the state AVAILABLE that the record of an
unconfigured exit holds is its choice (log entry 22). -/
def Obligations.RestartAndEnterConfiguration : Prop :=
  ∀ (s : State) (x : TakenRequest), s.part = .inService → x.port = .fire →
    (Ready .restart s x → (∀ w, (s.wing w).stage = .standby) → (∀ c h, (s.point c).state ≠ .active h) →
      Completes .restart s x .done .none fun t =>
        ComesIntoService .partRestarted s t
          ∧ (∀ (n : Fin 192) d, s.detector n = some d → ∃ e, t.detector n = some e
            ∧ e.baseline = d.baseline ∧ e.compLimit = d.compLimit)
          ∧ OnlyIn ([Piece.zones, .wings, .loops, .converters, .detectors, .doors, .points, .callQueue, .desks, .exits
            , .signs, .engine, .channels, .log] ++ answering) s t)
    ∧ (Ready .restart s x → (∀ w, (s.wing w).stage = .standby) → (∃ c h, (s.point c).state = .active h) →
      AnswersOnly .restart s x .inUse)
    ∧ (Ready .enterConfiguration s x → (∀ w, (s.wing w).stage = .standby) →
      Completes .enterConfiguration s x .done .none fun t =>
        EntersConfiguring s t
          ∧ OnlyIn ([Piece.part, .zones, .wings, .loops, .converters, .detectors, .doors, .points, .callQueue, .desks
            , .exits, .signs, .engine, .channels, .log] ++ answering) s t)
    ∧ (∀ i w, i = .restart ∨ i = .enterConfiguration → Ready i s x → (s.wing w).stage ≠ .standby →
      AnswersOnly i s x .evacActive)

/-! ### The commands under GUARD authority -/

/-- ARM ZONE: with every condition of its table met the zone enters EXIT_DELAY; else the first that fails answers. -/
def Obligations.ArmZone : Prop :=
  ∀ (s : State) (x : TakenRequest) (z : Fin 64), Ready (.armZone z.val) s x → s.inService = true →
    (s.zone z).configured = true → holdsGuard s x.port (s.wingOf z) = true →
    ((s.zone z).security = .disarmed → s.atStandby (s.wingOf z) = true → (s.zone z).transit = 0 →
      (s.zone z).occupancy = .vacant → (s.zone z).activeCalls = 0 → borderOpen s z = false →
      Completes (.armZone z.val) s x .done .none fun t =>
        t.zone z = { s.zone z with security := .exitDelay (s.wing (s.wingOf z)).exitDelay }
          ∧ (∀ y, y ≠ z → t.zone y = s.zone y)
          ∧ Logged s t
            [{ kind := .armStarted, subject := .zone z, wing := some (s.wingOf z)
               detail := .number (s.wing (s.wingOf z)).exitDelay }]
          ∧ OnlyIn ([Piece.zones, .wings, .log] ++ answering) s t)
    ∧ ((s.zone z).security ≠ .disarmed → AnswersOnly (.armZone z.val) s x .wrongState)
    ∧ ((s.zone z).security = .disarmed → s.atStandby (s.wingOf z) = false →
      AnswersOnly (.armZone z.val) s x .evacActive)
    ∧ ((s.zone z).security = .disarmed → s.atStandby (s.wingOf z) = true → (s.zone z).transit = 0 →
      (s.zone z).occupancy = .occupied → AnswersOnly (.armZone z.val) s x .notVacant)
    ∧ ((s.zone z).security = .disarmed → s.atStandby (s.wingOf z) = true →
      ((s.zone z).transit ≠ 0 ∨ (s.zone z).occupancy = .vacant ∧ ((s.zone z).activeCalls ≠ 0 ∨ borderOpen s z = true)) →
      AnswersOnly (.armZone z.val) s x .inUse)

/-- DISARM ZONE and CLEAR BREACH: the zone becomes DISARMED with its entry; a breach cannot be disarmed away; an
unconfigured zone is BAD_OBJECT, and a station without GUARD on the zone's wing is NOT_PERMITTED. -/
def Obligations.DisarmAndClearBreach : Prop :=
  ∀ (s : State) (x : TakenRequest) (z : Fin 64), s.inService = true →
    (∀ i r, i = .disarmZone z.val ∨ i = .clearBreach z.val r → Ready i s x →
      ((s.zone z).configured = false → AnswersOnly i s x .badObject)
      ∧ ((s.zone z).configured = true → holdsGuard s x.port (s.wingOf z) = false → AnswersOnly i s x .notPermitted))
    ∧ ((s.zone z).configured = true → holdsGuard s x.port (s.wingOf z) = true →
    (Ready (.disarmZone z.val) s x → (s.zone z).security ≠ .disarmed → (s.zone z).security ≠ .breach →
      Completes (.disarmZone z.val) s x .done .none fun t =>
        t.zone z = { s.zone z with security := .disarmed } ∧ (∀ y, y ≠ z → t.zone y = s.zone y)
          ∧ Logged s t
            [{ kind := .zoneDisarmed, subject := .zone z, wing := some (s.wingOf z)
               detail := .securityLeft (s.zone z).security.name }]
          ∧ OnlyIn ([Piece.zones, .wings, .log] ++ doorward ++ answering) s t ∧ DoorsKept s t ∧ ChannelsKept [] s t)
    ∧ (Ready (.disarmZone z.val) s x → (s.zone z).security = .disarmed → AnswersOnly (.disarmZone z.val) s x .done)
    ∧ (Ready (.disarmZone z.val) s x → (s.zone z).security = .breach →
      AnswersOnly (.disarmZone z.val) s x .wrongState)
    ∧ (∀ r, Ready (.clearBreach z.val r) s x → r = (s.wing (s.wingOf z)).revision → (s.zone z).security = .breach →
      Completes (.clearBreach z.val r) s x .done .none fun t =>
        t.zone z = { s.zone z with security := .disarmed } ∧ (∀ y, y ≠ z → t.zone y = s.zone y)
          ∧ Logged s t
            [{ kind := .breachCleared, subject := .zone z, wing := some (s.wingOf z), detail := .none }]
          ∧ OnlyIn ([Piece.zones, .wings, .log] ++ answering) s t)
    ∧ (∀ r, Ready (.clearBreach z.val r) s x → r ≠ (s.wing (s.wingOf z)).revision →
      AnswersOnly (.clearBreach z.val r) s x .staleView)
    ∧ (∀ r, Ready (.clearBreach z.val r) s x → r = (s.wing (s.wingOf z)).revision → (s.zone z).security ≠ .breach →
      AnswersOnly (.clearBreach z.val r) s x .wrongState))

/-- PASS DOOR: the pass grant of a lockable door is loaded with T_pass, or is OPENED at once when the door stands
open; a FIRE_HOLD door and a door of an ARMED zone are refused with WRONG_STATE. That a grant already OPENED stays
OPENED whatever the contact is the model's reading (log entry 21). -/
def Obligations.PassDoor : Prop :=
  ∀ (s : State) (x : TakenRequest) (n : Fin 48), Ready (.passDoor n.val) s x → s.inService = true →
    (s.door n).configured = true → holdsGuard s x.port (s.doorWing n) = true →
    ((s.door n).kind ≠ .fireHold → (∀ z ∈ (s.door n).sides, (s.zone z).security ≠ .armed) →
      Completes (.passDoor n.val) s x .done .none fun t =>
        (t.door n).pass
            = (if (s.door n).contact = .opened ∨ (s.door n).pass = some .opened then some .opened
              else some (.counting (s.door n).tPass))
          ∧ (t.door n).rex = (s.door n).rex ∧ (t.door n).contact = (s.door n).contact
          ∧ (∀ m, m ≠ n → t.door m = s.door m)
          ∧ LoggedFirst s t
            (doorEntries s n .passGranted (.number (s.door n).tPass))
          ∧ OnlyIn ([Piece.wings, .log] ++ doorward ++ answering) s t ∧ ChannelsKept [] s t)
    ∧ (((s.door n).kind = .fireHold ∨ ∃ z ∈ (s.door n).sides, (s.zone z).security = .armed) →
      AnswersOnly (.passDoor n.val) s x .wrongState)

/-- SET WING MODE, LOCKDOWN WING and END LOCKDOWN: the new mode is written with a WING_MODE entry, and the lockdown
flag with its entry; a mode or a flag that stands changes nothing, and a wing not in STANDBY is not locked down. -/
def Obligations.WingModeAndLockdown : Prop :=
  (∀ (s : State) (x : TakenRequest) (w : Fin 4) (m : Option Mode), Ready (.setWingMode w.val m) s x →
    s.inService = true →
    (∀ new, holdsGuard s x.port w = true → m = some new → (s.wing w).mode ≠ new →
      Completes (.setWingMode w.val m) s x .done .none fun t =>
        t.wing w = { s.wing w with mode := new, revision := (s.wing w).revision + 1 }
          ∧ (∀ v, v ≠ w → t.wing v = s.wing v)
          ∧ Logged s t
            [{ kind := .wingMode, subject := .wing w, wing := some w, detail := .modes (s.wing w).mode new }]
          ∧ OnlyIn ([Piece.wings, .log] ++ doorward ++ answering) s t ∧ DoorsKept s t ∧ ChannelsKept [] s t)
    ∧ (∀ new, holdsGuard s x.port w = true → m = some new → (s.wing w).mode = new →
      AnswersOnly (.setWingMode w.val m) s x .done)
    ∧ (holdsGuard s x.port w = true → m = none → AnswersOnly (.setWingMode w.val m) s x .badValue)
    ∧ (holdsGuard s x.port w = false → AnswersOnly (.setWingMode w.val m) s x .notPermitted))
  ∧ ∀ (s : State) (x : TakenRequest) (w : Fin 4), s.inService = true →
    (Ready (.lockdownWing w.val) s x → holdsGuard s x.port w = true → (s.wing w).stage = .standby →
      (s.wing w).lockdown = false →
      Completes (.lockdownWing w.val) s x .done .none fun t =>
        t.wing w = { s.wing w with lockdown := true, revision := (s.wing w).revision + 1 }
          ∧ (∀ v, v ≠ w → t.wing v = s.wing v)
          ∧ Logged s t [{ kind := .lockdownStarted, subject := .wing w, wing := some w, detail := .none }]
          ∧ OnlyIn ([Piece.wings, .log] ++ doorward ++ answering) s t ∧ DoorsKept s t ∧ ChannelsKept [] s t)
    ∧ (Ready (.lockdownWing w.val) s x → holdsGuard s x.port w = true → (s.wing w).stage = .standby →
      (s.wing w).lockdown = true → AnswersOnly (.lockdownWing w.val) s x .done)
    ∧ (Ready (.lockdownWing w.val) s x → holdsGuard s x.port w = true → (s.wing w).stage ≠ .standby →
      AnswersOnly (.lockdownWing w.val) s x .evacActive)
    ∧ (Ready (.endLockdown w.val) s x → holdsGuard s x.port w = true → (s.wing w).lockdown = true →
      Completes (.endLockdown w.val) s x .done .none fun t =>
        t.wing w = { s.wing w with lockdown := false, revision := (s.wing w).revision + 1 }
          ∧ (∀ v, v ≠ w → t.wing v = s.wing v)
          ∧ Logged s t
            [{ kind := .lockdownEnded, subject := .wing w, wing := some w, detail := .lockdownCause .command }]
          ∧ OnlyIn ([Piece.wings, .log] ++ doorward ++ answering) s t ∧ DoorsKept s t ∧ ChannelsKept [] s t)
    ∧ (Ready (.endLockdown w.val) s x → holdsGuard s x.port w = true → (s.wing w).lockdown = false →
      AnswersOnly (.endLockdown w.val) s x .done)
    ∧ (∀ i, i = .lockdownWing w.val ∨ i = .endLockdown w.val → Ready i s x → holdsGuard s x.port w = false →
      AnswersOnly i s x .notPermitted)

/-- REPORT PATROL: PATROL_REPORTED is appended and the zone takes a PATROL activity by its class, which breaches an
ARMED zone unless the class is IGNORED; an unconfigured zone is BAD_OBJECT. -/
def Obligations.ReportPatrol : Prop :=
  ∀ (s : State) (x : TakenRequest) (z : Fin 64), Ready (.reportPatrol z.val) s x → s.inService = true →
    ((s.zone z).configured = true → holdsGuard s x.port (s.wingOf z) = true →
      Completes (.reportPatrol z.val) s x .done .none fun t =>
        LoggedFirst s t
            [{ kind := .patrolReported, subject := .zone z, wing := some (s.wingOf z), detail := .none }]
          ∧ (t.zone z).security
            = (if (s.zone z).security = .armed ∧ (s.zone z).classes.patrol ≠ .ignored then .breach
              else (s.zone z).security)
          ∧ (t.zone z).lastSecondary
            = (if (s.zone z).classes.patrol = .secondary then some { source := .patrol, time := s.seconds }
              else (s.zone z).lastSecondary)
          ∧ (t.zone z).lastPrimary
            = (if (s.zone z).classes.patrol = .primary then some { source := .patrol, time := s.seconds }
              else (s.zone z).lastPrimary)
          ∧ (t.zone z).vacancyTimer
            = (if (s.zone z).classes.patrol = .primary then some (s.zone z).vacancyPeriod
              else (s.zone z).vacancyTimer)
          ∧ (t.zone z).occupancy
            = (if (s.zone z).classes.patrol = .primary then .occupied else (s.zone z).occupancy)
          ∧ (∀ y, y ≠ z → t.zone y = s.zone y)
          ∧ OnlyIn ([Piece.zones, .wings, .log] ++ doorward ++ answering) s t ∧ DoorsKept s t ∧ ChannelsKept [] s t)
    ∧ ((s.zone z).configured = false → AnswersOnly (.reportPatrol z.val) s x .badObject)
    ∧ ((s.zone z).configured = true → holdsGuard s x.port (s.wingOf z) = false →
      AnswersOnly (.reportPatrol z.val) s x .notPermitted)

/-! ### The commands under SERVICE authority, and of the desks -/

/-- TEST ZONE ON and TEST ZONE OFF: in a STANDBY wing the test starts or is reloaded with 3600 s, or ends; out of
STANDBY both are refused with EVAC_ACTIVE. -/
def Obligations.TestZone : Prop :=
  ∀ (s : State) (x : TakenRequest) (z : Fin 64), s.inService = true → (s.zone z).configured = true →
    holdsService s x.port (s.wingOf z) = true →
    (Ready (.testZoneOn z.val) s x → s.atStandby (s.wingOf z) = true →
      Completes (.testZoneOn z.val) s x .done .none fun t =>
        (t.zone z).testTimer = some 3600 ∧ (∀ y, y ≠ z → t.zone y = s.zone y)
          ∧ (∀ n d, s.detector n = some d → d.zone = z → ∃ e, t.detector n = some e ∧ e.level = d.level
            ∧ e.riseRun = d.riseRun ∧ e.baseline = d.baseline
            ∧ e.state = (if d.state.raised then .normal else d.state)
            ∧ (d.state.raised = true ∨ d.state = .normal → e.testArmed = some true))
          ∧ (∀ n d, s.detector n = some d → d.zone ≠ z → t.detector n = some d)
          ∧ LoggedAmong s t
            { kind := .testStarted, subject := .zone z, wing := some (s.wingOf z), detail := .none }
          ∧ OnlyIn ([Piece.zones, .wings, .detectors, .exits, .engine, .log] ++ doorward ++ answering) s t)
    ∧ (∀ n, Ready (.testZoneOff z.val) s x → s.atStandby (s.wingOf z) = true → (s.zone z).testTimer = some n →
      Completes (.testZoneOff z.val) s x .done .none fun t =>
        t.zone z = { s.zone z with testTimer := none } ∧ (∀ y, y ≠ z → t.zone y = s.zone y)
          ∧ (∀ n d, s.detector n = some d →
            t.detector n = some (if d.zone = z then { d with testArmed := none } else d))
          ∧ Logged s t
            [{ kind := .testEnded, subject := .zone z, wing := some (s.wingOf z), detail := .testEnd .off }]
          ∧ OnlyIn ([Piece.zones, .wings, .detectors, .engine, .log] ++ answering) s t)
    ∧ (Ready (.testZoneOff z.val) s x → s.atStandby (s.wingOf z) = true → (s.zone z).testTimer = none →
      AnswersOnly (.testZoneOff z.val) s x .done)
    ∧ (∀ i, i = .testZoneOn z.val ∨ i = .testZoneOff z.val → Ready i s x → s.atStandby (s.wingOf z) = false →
      AnswersOnly i s x .evacActive)

/-- HOLD CHANNELS, FREE CHANNELS, RELEASE DRIVE and RESTORE DRIVE over a range of channels: a count outside 1 to 276 is
BAD_VALUE and a range past the last channel BAD_OBJECT; with SERVICE on the range's wings and every one of them in
STANDBY, each channel that stands otherwise changes, with one entry for each owning wing and a message of exactly the
channels whose drive or enabled effective value changed; else NOT_PERMITTED or EVAC_ACTIVE. That the subject of an entry is
its owning wing is the model's choice (log entry 14). -/
def Obligations.MaintenanceOfChannels : Prop :=
  ∀ (s : State) (x : TakenRequest) (first count : Nat) (i : Instr) (f : Channel → Channel) (stands : Channel → Bool)
    (kind : EntryKind), Settled s →
    (i = .holdChannels first count ∧ kind = .channelsHeld ∧ (stands = fun c => decide (c.latch = .hold))
        ∧ (f = fun c => { c with latch := .hold })
      ∨ i = .freeChannels first count ∧ kind = .channelsFreed ∧ (stands = fun c => decide (c.latch = .follow))
        ∧ (f = fun c => { c with latch := .follow, latched := c.source
                                 effective := match c.drive with | .enabled => c.source | .released => c.failValue })
      ∨ i = .releaseDrive first count ∧ kind = .driveReleased ∧ (stands = fun c => decide (c.drive = .released))
        ∧ (f = fun c => { c with drive := .released, effective := c.failValue })
      ∨ i = .restoreDrive first count ∧ kind = .driveRestored ∧ (stands = fun c => decide (c.drive = .enabled))
        ∧ (f = fun c => { c with drive := .enabled, effective := c.latched })) →
    Ready i s x → s.inService = true →
    ((count = 0 ∨ 276 < count) → AnswersOnly i s x .badValue)
    ∧ (1 ≤ count → count ≤ 276 → 276 < first + count → AnswersOnly i s x .badObject)
    ∧ (1 ≤ count → first + count ≤ 276 →
      (servesRange s x.port (rangeWings s first count) = true →
        (∀ w ∈ rangeWings s first count, s.atStandby w = true) →
        Completes i s x .done .none fun t =>
          (∀ n, t.channel n
              = if inRange first count n && !stands (s.channel n) then f (s.channel n) else s.channel n)
            ∧ Logged s t ((entryOwners.filter fun o => decide (changedIn s first count stands o ≠ 0)).map fun o =>
              { kind := kind, subject := match o with | some w => .wing w | none => .none, wing := o
                detail := .channels first count (changedIn s first count stands o) })
            ∧ MessagesSent s t
            ∧ DoorsKept s t ∧ OnlyIn ([Piece.wings, .doors, .channels, .log] ++ answering) s t)
      ∧ (servesRange s x.port (rangeWings s first count) = false → AnswersOnly i s x .notPermitted)
      ∧ (∀ w, servesRange s x.port (rangeWings s first count) = true → w ∈ rangeWings s first count →
        s.atStandby w = false → AnswersOnly i s x .evacActive))

/-- ACCEPT CALL, CLEAR CALL and SET DESK CAPACITY: an offered call is accepted at its desk with its lamp STEADY; an
active call is cleared with its lamp OFF, its entry gone and the zone's count lowered, by a station with GUARD on the
point's wing or from the accepting desk, and by no other; an offer no longer open is TOO_LATE, a call already accepted
there and a point already IDLE are DONE, and a FIRE point is WRONG_STATE; a capacity becomes the value brought into 1
to 4, unless that lies below the desk's offered count. Where no other call is queued, the entry of an acceptance or a
clearing is the only one, and goes as a notice to the stations of the group CALL and, with the by-desk mark, to those of its
desks. That the IDLE point is DONE for every station is the model's reading (log entry 39), and that the wrap of the
sequence sets the gap markers before the notice is offered its choice (log entry 48), as is the capacity's entry without a
subject (log entry 14). Where the call queue and the desks are sound, the place that an acceptance or a clearing frees at a
desk goes to the first waiting call of the queue that names the desk, with CALL_OFFER, and so does the first place that a
higher capacity gives; no call is left waiting for a desk that would take it. -/
def Obligations.DeskCommands : Prop :=
  ∀ (s : State) (x : TakenRequest), s.inService = true →
    (∀ c k h n, (s.point c).configured = true → (s.point c).kind = .help → Ready (.acceptCall c.val k.val) s x →
      (s.desk k).owner = some x.port → s.call c = some h → h.phase = .offered k n →
      Completes (.acceptCall c.val k.val) s x .done .none fun t =>
        t.call c = some { h with phase := .accepted k } ∧ (t.point c).lamp = .steady
          ∧ (t.channel (lampChannel c)).source = .steady ∧ t.callQueue = s.callQueue
          ∧ LoggedFirst s t
            [{ kind := .callAccepted, subject := .point c, wing := some (s.wingOf (s.point c).zone)
               detail := .desk k }]
          ∧ (s.callQueue = [c] → Noticed s t
            { kind := .callAccepted, subject := .point c, wing := some (s.wingOf (s.point c).zone), detail := .desk k }
            fun st => s.routing.call.has st || s.routing.callByDesk && decide (st = x.port))
          ∧ (CallsOk s → PlacePassedOn k c s t)
          ∧ OnlyIn ([Piece.points, .desks, .wings, .channels, .log] ++ answering) s t)
    ∧ (∀ c (k : Fin 8), (s.point c).configured = true → (s.point c).kind = .help → Ready (.acceptCall c.val k.val) s x →
      (s.desk k).owner = some x.port →
      (∀ h, s.call c = some h → h.phase ≠ .accepted k ∧ ∀ n, h.phase ≠ .offered k n) →
      AnswersOnly (.acceptCall c.val k.val) s x .tooLate)
    ∧ (∀ c (k : Fin 8) h, (s.point c).configured = true → (s.point c).kind = .help →
      Ready (.acceptCall c.val k.val) s x → (s.desk k).owner = some x.port → s.call c = some h →
      h.phase = .accepted k → AnswersOnly (.acceptCall c.val k.val) s x .done)
    ∧ (∀ (c : Fin 64) (k : Fin 8), (s.point c).configured = true → (s.point c).kind = .fire →
      Ready (.acceptCall c.val k.val) s x → (s.desk k).owner = some x.port →
      AnswersOnly (.acceptCall c.val k.val) s x .wrongState)
    ∧ (∀ (c : Fin 64) (k : Fin 8), (s.point c).configured = true → Ready (.acceptCall c.val k.val) s x →
      (s.desk k).owner ≠ some x.port →
      AnswersOnly (.acceptCall c.val k.val) s x .notPermitted)
    ∧ (∀ c h, (s.point c).configured = true → (s.point c).kind = .help → Ready (.clearCall c.val) s x →
      s.call c = some h →
      (holdsGuard s x.port (s.wingOf (s.point c).zone) = true
        ∨ ∃ k, h.phase = .accepted k ∧ (s.desk k).owner = some x.port) →
      Completes (.clearCall c.val) s x .done .none fun t =>
        (t.point c).state = .idle ∧ (t.point c).lamp = .off ∧ c ∉ t.callQueue
          ∧ (t.zone (s.point c).zone).activeCalls = (s.zone (s.point c).zone).activeCalls - 1
          ∧ (∀ z, z ≠ (s.point c).zone → t.zone z = s.zone z)
          ∧ LoggedFirst s t
            [{ kind := .callCleared, subject := .point c, wing := some (s.wingOf (s.point c).zone)
               detail := .station x.port }]
          ∧ (s.callQueue = [c] → Noticed s t
            { kind := .callCleared, subject := .point c, wing := some (s.wingOf (s.point c).zone)
              detail := .station x.port }
            fun st => s.routing.call.has st || s.routing.callByDesk
              && decide (∃ k : Fin 8, (s.desk k).owner = some st
                ∧ (k ∈ (s.point c).deskList ∨ (s.wing (s.wingOf (s.point c).zone)).evacDesk = some k)))
          ∧ (CallsOk s → ∀ k n, h.phase = .offered k n → PlacePassedOn k c s t)
          ∧ ((∀ k n, h.phase ≠ .offered k n) → t.desks = s.desks)
          ∧ OnlyIn ([Piece.zones, .points, .callQueue, .desks, .wings, .channels, .log] ++ answering) s t)
    ∧ (∀ c h, (s.point c).configured = true → (s.point c).kind = .help → Ready (.clearCall c.val) s x →
      s.call c = some h → holdsGuard s x.port (s.wingOf (s.point c).zone) = false →
      (∀ k, h.phase = .accepted k → (s.desk k).owner ≠ some x.port) →
      AnswersOnly (.clearCall c.val) s x .notPermitted)
    ∧ (∀ c : Fin 64, (s.point c).configured = true → (s.point c).kind = .help → Ready (.clearCall c.val) s x →
      s.call c = none → AnswersOnly (.clearCall c.val) s x .done)
    ∧ (∀ c : Fin 64, (s.point c).configured = true → (s.point c).kind = .fire → Ready (.clearCall c.val) s x →
      (holdsGuard s x.port (s.wingOf (s.point c).zone) = true → AnswersOnly (.clearCall c.val) s x .wrongState)
      ∧ (holdsGuard s x.port (s.wingOf (s.point c).zone) = false → s.call c = none →
        AnswersOnly (.clearCall c.val) s x .notPermitted))
    ∧ (∀ (k : Fin 8) (n : Nat), Ready (.setDeskCapacity k.val n) s x →
      (x.port = .fire ∨ (s.desk k).owner = some x.port) →
      ((s.desk k).offered.length ≤ clamp 1 4 n →
        Completes (.setDeskCapacity k.val n) s x (if n = clamp 1 4 n then .done else .doneAdjusted)
          (if n = clamp 1 4 n then .none else .applied [clamp 1 4 n]) fun t =>
            (t.desk k).capacity = clamp 1 4 n ∧ (∀ y, (t.desk y).owner = (s.desk y).owner)
              ∧ (∀ y, y ≠ k → (t.desk y).capacity = (s.desk y).capacity)
              ∧ ((s.desk k).capacity ≠ clamp 1 4 n → LoggedFirst s t
                [{ kind := .settingChanged, subject := .none, wing := none, detail := .setting .deskCapacity }])
              ∧ ((s.desk k).capacity = clamp 1 4 n → Logged s t [])
              ∧ ((s.desk k).capacity < clamp 1 4 n → CallsOk s →
                NoneWaits t ∧ (deskReached s k = true → FirstWaitingOffered k s t)
                  ∧ ((s.callQueue.find? (waitsFor s k) = none ∨ deskReached s k = false) →
                    t.desk k = { s.desk k with capacity := clamp 1 4 n } ∧ t.points = s.points)
                  ∧ ∀ y, y ≠ k → t.desk y = s.desk y)
              ∧ (clamp 1 4 n ≤ (s.desk k).capacity →
                t.desk k = { s.desk k with capacity := clamp 1 4 n } ∧ t.points = s.points)
              ∧ OnlyIn ([Piece.points, .desks, .wings, .log] ++ answering) s t)
      ∧ (clamp 1 4 n < (s.desk k).offered.length → AnswersOnly (.setDeskCapacity k.val n) s x .inUse))

/-! ### WRITE ENTRY -/

/-- WRITE ENTRY of the zone, wing and class tables, in CONFIGURING from the fire or the services station. An object number
out of its range is BAD_OBJECT, and a mode, kind or tracking outside its set BAD_VALUE. That the wings of a spread list
and the evacuation desk are judged before the entry's values is the model's reading of R169 (log entry 9), and so is that
an entry may leave the evacuation desk unset (log entry 49); that the reply to an adjusted class entry carries all its
numbers is its choice (log entry 54). -/
def Obligations.EntriesOfZonesWingsAndClasses : Prop :=
  ∀ (s : State) (x : TakenRequest), s.part = .configuring → x.port ≠ .guard →
    (∀ (z : Fin 64) (w : Fin 4), Ready (.writeEntryZone z.val (.configured w.val)) s x →
      Completes (.writeEntryZone z.val (.configured w.val)) s x .done .none fun t =>
        t.zone z = { s.zone z with configured := true, wing := w } ∧ (∀ y, y ≠ z → t.zone y = s.zone y)
          ∧ OnlyIn ([Piece.zones] ++ doorward ++ answering) s t ∧ DoorsKept s t ∧ ChannelsKept [] s t)
    ∧ (∀ z : Fin 64, Ready (.writeEntryZone z.val .unconfigured) s x →
      Completes (.writeEntryZone z.val .unconfigured) s x .done .none fun t =>
        t.zone z = { s.zone z with configured := false } ∧ (∀ y, y ≠ z → t.zone y = s.zone y)
          ∧ OnlyIn ([Piece.zones] ++ answering) s t)
    ∧ (∀ (w : Fin 4) (f : WingFields) (m : Mode) (spread : List (Fin 4)) (desk : Option (Fin 8)),
      Ready (.writeEntryWing w.val f) s x → f.initialMode = some m → f.spreadList = spread.map Fin.val →
      f.evacDesk = desk.map Fin.val →
      (w ∉ spread → spread.Nodup →
        Completes (.writeEntryWing w.val f) s x .done .none fun t =>
          t.wing w = { s.wing w with
              initialMode := m, staged := f.staged, spreadList := spread, evacDesk := desk }
            ∧ (∀ v, v ≠ w → t.wing v = s.wing v) ∧ OnlyIn ([Piece.wings] ++ answering) s t)
      ∧ ((w ∈ spread ∨ ¬ spread.Nodup) → AnswersOnly (.writeEntryWing w.val f) s x .badValue))
    ∧ (∀ (z : Nat) (f : ZoneFields), Ready (.writeEntryZone z f) s x → (64 ≤ z ∨ ∃ w, f = .configured w ∧ 4 ≤ w) →
      AnswersOnly (.writeEntryZone z f) s x .badObject)
    ∧ (∀ (w : Nat) (f : WingFields), Ready (.writeEntryWing w f) s x →
      ((4 ≤ w ∨ (∃ v ∈ f.spreadList, 4 ≤ v) ∨ ∃ k, f.evacDesk = some k ∧ 8 ≤ k) →
        AnswersOnly (.writeEntryWing w f) s x .badObject)
      ∧ (w < 4 → (∀ v ∈ f.spreadList, v < 4) → (∀ k, f.evacDesk = some k → k < 8) → f.initialMode = none →
        AnswersOnly (.writeEntryWing w f) s x .badValue))
    ∧ (∀ (c : Nat) (f : ClassFields), Ready (.writeEntryClass c f) s x →
      (8 ≤ c → AnswersOnly (.writeEntryClass c f) s x .badObject)
      ∧ (c < 8 → (f.kind = none ∨ f.tracking = none) → AnswersOnly (.writeEntryClass c f) s x .badValue))
    ∧ (∀ (c : Fin 8) (f : ClassFields) (kind : ClassKind) (tracking : Bool),
      Ready (.writeEntryClass c.val f) s x → f.kind = some kind → f.tracking = some tracking →
      Completes (.writeEntryClass c.val f) s x
        (if givenNumbers kind f = classNumbers (classRecord kind tracking f) then .done else .doneAdjusted)
        (if givenNumbers kind f = classNumbers (classRecord kind tracking f) then .none
          else .applied (classNumbers (classRecord kind tracking f))) fun t =>
          t.cls c =
              { configured := true, kind := kind, preAlarm := clamp 16 2031 f.preAlarm
                alarm := clamp 32 2047 f.alarm, riseStep := clamp 1 255 f.riseStep
                riseCount := clamp 0 15 f.riseCount, night := clamp 0 255 f.night, tracking := tracking
                bmin := clamp 64 4031 f.bmin, bmax := clamp 64 4031 f.bmax
                fixedBaseline := clamp 64 4031 f.fixedBaseline
                window := clamp 0 60 (f.window.getD (match kind with | .smoke => 20 | .heat => 0)) }
            ∧ (∀ y, y ≠ c → t.cls y = s.cls y) ∧ OnlyIn ([Piece.classes] ++ answering) s t)

/-- WRITE ENTRY of the detector, loop and scan-list tables. An object number out of its range is BAD_OBJECT, and an
address or a mode outside its set BAD_VALUE. That the loop, zone and class of a detector are judged before its address is
the model's reading of R169 (log entry 9), and that the in use field of an entry that names MIRRORED is dropped its choice
(log entry 28). -/
def Obligations.EntriesOfDetection : Prop :=
  ∀ (s : State) (x : TakenRequest), s.part = .configuring → x.port ≠ .guard →
    (∀ (n : Fin 192) (l : Fin 4) (a : Nat) (z : Fin 64) (c : Fin 8),
      Ready (.writeEntryDetector n.val (.placed l.val a z.val c.val)) s x →
      (1 ≤ a → a ≤ 48 →
        Completes (.writeEntryDetector n.val (.placed l.val a z.val c.val)) s x .done .none fun t =>
          t.detector n = some (match s.detector n with
            | some d => { d with loop := l, address := a, zone := z, cls := c }
            | none =>
              { loop := l, address := a, zone := z, cls := c, state := .unmonitored, missed := 0, validRun := 0
                baseline := 16 * (s.cls c).fixedBaseline, level := none, riseRun := 0, compLimit := false
                testArmed := none, mismatch := false, waiting := none })
            ∧ (∀ m, m ≠ n → t.detector m = s.detector m)
            ∧ (t.zone z).detectorCount = (t.detectorsOf z fun _ => true).length
            ∧ OnlyIn ([Piece.zones, .detectors] ++ answering) s t)
      ∧ ((a = 0 ∨ 48 < a) →
        AnswersOnly (.writeEntryDetector n.val (.placed l.val a z.val c.val)) s x .badValue))
    ∧ (∀ n : Fin 192, Ready (.writeEntryDetector n.val .removed) s x →
      Completes (.writeEntryDetector n.val .removed) s x .done .none fun t =>
        t.detector n = none ∧ (∀ m, m ≠ n → t.detector m = s.detector m)
          ∧ OnlyIn ([Piece.zones, .detectors] ++ answering) s t)
    ∧ (∀ (l : Fin 4) (u : Bool) (m : LoopMode), Ready (.writeEntryLoop l.val u (some m)) s x →
      (m = .mirrored → l.val < 2 →
        Completes (.writeEntryLoop l.val u (some m)) s x .done .none fun t =>
          t.loop l = { s.loop l with mode := .mirrored, inUse := true }
            ∧ t.loop (partnerOf l) = { s.loop (partnerOf l) with mode := .mirrored, inUse := true }
            ∧ (∀ k, k ≠ l → k ≠ partnerOf l → t.loop k = s.loop k) ∧ OnlyIn ([Piece.loops] ++ answering) s t)
      ∧ (m = .mirrored → 2 ≤ l.val → AnswersOnly (.writeEntryLoop l.val u (some m)) s x .badValue)
      ∧ (m = .independent → (s.loop l).mode = .mirrored →
        Completes (.writeEntryLoop l.val u (some m)) s x .done .none fun t =>
          t.loop l = { s.loop l with mode := .independent }
            ∧ t.loop (partnerOf l) = { s.loop (partnerOf l) with mode := .independent }
            ∧ (∀ k, k ≠ l → k ≠ partnerOf l → t.loop k = s.loop k) ∧ OnlyIn ([Piece.loops] ++ answering) s t)
      ∧ (m = .independent → (s.loop l).mode = .independent →
        Completes (.writeEntryLoop l.val u (some m)) s x .done .none fun t =>
          t.loop l = { s.loop l with inUse := u } ∧ (∀ k, k ≠ l → t.loop k = s.loop k)
            ∧ OnlyIn ([Piece.loops] ++ answering) s t))
    ∧ (∀ (l : Fin 4) (k : Fin 48) (f : SlotFields), Ready (.writeEntryScanList l.val k.val f) s x →
      (∀ y, (f = .endMark ∧ y = ScanSlot.endMark
          ∨ ∃ a e, f = .address a e ∧ 1 ≤ a ∧ a ≤ 48 ∧ y = ScanSlot.address a e) →
        Completes (.writeEntryScanList l.val k.val f) s x .done .none fun t =>
          t.slot l k = y ∧ (∀ m j, m ≠ l ∨ j ≠ k → t.slot m j = s.slot m j)
            ∧ OnlyIn ([Piece.scanLists] ++ answering) s t)
      ∧ (∀ a e, f = .address a e → a = 0 ∨ 48 < a →
        AnswersOnly (.writeEntryScanList l.val k.val f) s x .badValue))
    ∧ (∀ (n : Nat) (f : DetectorFields), Ready (.writeEntryDetector n f) s x →
      (192 ≤ n ∨ ∃ l a z c, f = .placed l a z c ∧ (4 ≤ l ∨ 64 ≤ z ∨ 8 ≤ c)) →
      AnswersOnly (.writeEntryDetector n f) s x .badObject)
    ∧ (∀ (l : Nat) (u : Bool) (m : Option LoopMode), Ready (.writeEntryLoop l u m) s x →
      (4 ≤ l → AnswersOnly (.writeEntryLoop l u m) s x .badObject)
      ∧ (l < 4 → m = none → AnswersOnly (.writeEntryLoop l u m) s x .badValue))
    ∧ (∀ (l k : Nat) (f : SlotFields), Ready (.writeEntryScanList l k f) s x → (4 ≤ l ∨ 48 ≤ k) →
      AnswersOnly (.writeEntryScanList l k f) s x .badObject)

/-- WRITE ENTRY of the door, call point and desk tables. An object number out of its range is BAD_OBJECT, and a kind, a
fail mode, a side, an owner or a desk list outside what its record allows BAD_VALUE. That side zones, the zone and the desks
of an entry are judged before its values is the model's reading of R169 (log entry 9); that a desk entry with one number
clamped is answered with both is its choice (log entry 54). -/
def Obligations.EntriesOfDoorsAndCalls : Prop :=
  ∀ (s : State) (x : TakenRequest), s.part = .configuring → x.port ≠ .guard →
    (∀ (n : Fin 48) (a : Fin 64) (b : SideFields) (side : Option (Fin 64)) (kind : DoorKind) (fail : FailMode)
      (free : Bool) (inner : InnerFields) (i : Option Side),
      (b = .outside ∧ side = none ∨ ∃ z : Fin 64, b = .zone z.val ∧ side = some z) →
      Ready (.writeEntryDoor n.val (.configured a.val b (some kind) (some fail) free inner)) s x →
      (side ≠ some a →
        (kind = .store ∧ (inner = .sideA ∧ i = some .sideA ∨ inner = .sideB ∧ side ≠ none ∧ i = some .sideB)
          ∨ kind ≠ .store ∧ inner = .absent ∧ i = none) →
        Completes (.writeEntryDoor n.val (.configured a.val b (some kind) (some fail) free inner)) s x .done .none
          fun t =>
            (t.door n).configured = true ∧ (t.door n).sideA = a ∧ (t.door n).sideB = side
              ∧ (t.door n).kind = kind ∧ (t.door n).failMode = fail ∧ (t.door n).freeInOpenHours = free
              ∧ (t.door n).inner = i ∧ (t.door n).contact = (s.door n).contact
              ∧ (t.door n).tPass = (s.door n).tPass ∧ (t.door n).tHeld = (s.door n).tHeld
              ∧ (∀ m, m ≠ n → t.door m = s.door m) ∧ OnlyIn (doorward ++ answering) s t ∧ ChannelsKept [] s t)
      ∧ ((side = some a ∨ kind = .store ∧ (inner = .absent ∨ inner = .other ∨ inner = .sideB ∧ side = none)
          ∨ kind ≠ .store ∧ inner ≠ .absent) →
        AnswersOnly (.writeEntryDoor n.val (.configured a.val b (some kind) (some fail) free inner)) s x .badValue))
    ∧ (∀ n : Fin 48, Ready (.writeEntryDoor n.val .unconfigured) s x →
      Completes (.writeEntryDoor n.val .unconfigured) s x .done .none fun t =>
        (t.door n).configured = false ∧ (t.door n).kind = (s.door n).kind ∧ (t.door n).sideA = (s.door n).sideA
          ∧ (∀ m, m ≠ n → t.door m = s.door m) ∧ OnlyIn (doorward ++ answering) s t ∧ ChannelsKept [] s t)
    ∧ (∀ c : Fin 64, Ready (.writeEntryCallPoint c.val .unconfigured) s x →
      Completes (.writeEntryCallPoint c.val .unconfigured) s x .done .none fun t =>
        t.point c = { s.point c with configured := false } ∧ (∀ y, y ≠ c → t.point y = s.point y)
          ∧ OnlyIn ([Piece.points] ++ answering) s t)
    ∧ (∀ (c z : Fin 64) (desks : List (Fin 8)),
      Ready (.writeEntryCallPoint c.val (.configured z.val (some .help) (desks.map Fin.val))) s x →
      (desks ≠ [] → desks.length ≤ 3 → desks.Nodup →
        Completes (.writeEntryCallPoint c.val (.configured z.val (some .help) (desks.map Fin.val))) s x .done .none
          fun t =>
            t.point c = { s.point c with configured := true, zone := z, kind := .help, deskList := desks }
              ∧ (∀ y, y ≠ c → t.point y = s.point y) ∧ OnlyIn ([Piece.points] ++ answering) s t)
      ∧ ((desks = [] ∨ 3 < desks.length ∨ ¬ desks.Nodup) →
        AnswersOnly (.writeEntryCallPoint c.val (.configured z.val (some .help) (desks.map Fin.val))) s x .badValue))
    ∧ (∀ c z : Fin 64, Ready (.writeEntryCallPoint c.val (.configured z.val (some .fire) [])) s x →
      Completes (.writeEntryCallPoint c.val (.configured z.val (some .fire) [])) s x .done .none fun t =>
        t.point c = { s.point c with configured := true, zone := z, kind := .fire, deskList := [] }
          ∧ (∀ y, y ≠ c → t.point y = s.point y) ∧ OnlyIn ([Piece.points] ++ answering) s t)
    ∧ (∀ (k : Fin 8) (st : Station) (cap off : Nat),
      Ready (.writeEntryDesk k.val { owner := some st, capacity := cap, tOffer := off }) s x →
      Completes (.writeEntryDesk k.val { owner := some st, capacity := cap, tOffer := off }) s x
        (if [cap, off] = [clamp 1 4 cap, clamp 10 120 off] then .done else .doneAdjusted)
        (if [cap, off] = [clamp 1 4 cap, clamp 10 120 off] then .none
          else .applied [clamp 1 4 cap, clamp 10 120 off]) fun t =>
          t.desk k = { s.desk k with owner := some st, capacity := clamp 1 4 cap, tOffer := clamp 10 120 off }
            ∧ (∀ y, y ≠ k → t.desk y = s.desk y) ∧ OnlyIn ([Piece.desks] ++ answering) s t)
    ∧ (∀ (n a : Nat) (b : SideFields) (kind : Option DoorKind) (fail : Option FailMode) (free : Bool)
      (inner : InnerFields), Ready (.writeEntryDoor n (.configured a b kind fail free inner)) s x →
      ((48 ≤ n ∨ 64 ≤ a ∨ ∃ z, b = .zone z ∧ 64 ≤ z) →
        AnswersOnly (.writeEntryDoor n (.configured a b kind fail free inner)) s x .badObject)
      ∧ (n < 48 → a < 64 → (∀ z, b = .zone z → z < 64) → (b = .other ∨ kind = none ∨ fail = none) →
        AnswersOnly (.writeEntryDoor n (.configured a b kind fail free inner)) s x .badValue))
    ∧ (∀ n, Ready (.writeEntryDoor n .unconfigured) s x → 48 ≤ n →
      AnswersOnly (.writeEntryDoor n .unconfigured) s x .badObject)
    ∧ (∀ (c z : Nat) (kind : Option PointKind) (desks : List Nat),
      Ready (.writeEntryCallPoint c (.configured z kind desks)) s x →
      ((64 ≤ c ∨ 64 ≤ z ∨ ∃ k ∈ desks, 8 ≤ k) →
        AnswersOnly (.writeEntryCallPoint c (.configured z kind desks)) s x .badObject)
      ∧ (c < 64 → z < 64 → (∀ k ∈ desks, k < 8) → (kind = none ∨ kind = some .fire ∧ desks ≠ []) →
        AnswersOnly (.writeEntryCallPoint c (.configured z kind desks)) s x .badValue))
    ∧ (∀ c, Ready (.writeEntryCallPoint c .unconfigured) s x → 64 ≤ c →
      AnswersOnly (.writeEntryCallPoint c .unconfigured) s x .badObject)
    ∧ (∀ (k : Nat) (f : DeskFields), Ready (.writeEntryDesk k f) s x →
      (8 ≤ k → AnswersOnly (.writeEntryDesk k f) s x .badObject)
      ∧ (k < 8 → f.owner = none → AnswersOnly (.writeEntryDesk k f) s x .badValue))

/-- WRITE ENTRY of the exit, descriptor, route-list, sign and channel tables. An object number out of its range is
BAD_OBJECT, and an aspect, a polarity or a number of routes outside its set BAD_VALUE. That a sign without an aspect is
BAD_VALUE, and an aspect without a sign is dropped, is the model's choice (log entry 28); that zones, signs, heads and exits
inside an entry are judged before its values is its reading of R169 (log entry 9). -/
def Obligations.EntriesOfRoutesAndOutputs : Prop :=
  ∀ (s : State) (x : TakenRequest), s.part = .configuring → x.port ≠ .guard →
    (∀ (e : Fin 16) (z : Fin 64) (d : Option (Fin 48)),
      Ready (.writeEntryExit e.val (.configured z.val (d.map Fin.val))) s x →
      Completes (.writeEntryExit e.val (.configured z.val (d.map Fin.val))) s x .done .none fun t =>
        (t.exit e).configured = true ∧ (t.exit e).zone = z ∧ (t.exit e).door = d
          ∧ (t.exit e).stationBlocked = (s.exit e).stationBlocked ∧ (∀ y, y ≠ e → t.exit y = s.exit y)
          ∧ OnlyIn ([Piece.exits] ++ answering) s t)
    ∧ (∀ e : Fin 16, Ready (.writeEntryExit e.val .unconfigured) s x →
      Completes (.writeEntryExit e.val .unconfigured) s x .done .none fun t =>
        t.exit e = { s.exit e with configured := false } ∧ (∀ y, y ≠ e → t.exit y = s.exit y)
          ∧ OnlyIn ([Piece.exits] ++ answering) s t)
    ∧ (∀ (i : Fin 512) (z : Fin 64) (g : Fin 96) (a : Arrow) (last : Bool),
      Ready (.writeEntryDescriptor i.val
        { zone := z.val, sign := some g.val, arrow := .arrow a, lastStep := last }) s x →
      Completes (.writeEntryDescriptor i.val
        { zone := z.val, sign := some g.val, arrow := .arrow a, lastStep := last }) s x .done .none fun t =>
          t.descriptors.get i = { zone := z, sign := some { sign := g, arrow := a }, lastStep := last }
            ∧ (∀ y, y ≠ i → t.descriptors.get y = s.descriptors.get y)
            ∧ OnlyIn ([Piece.descriptors] ++ answering) s t)
    ∧ (∀ (i : Fin 512) (z : Fin 64) (aspect : ArrowFields) (last : Bool), aspect ≠ .other →
      Ready (.writeEntryDescriptor i.val { zone := z.val, sign := none, arrow := aspect, lastStep := last }) s x →
      Completes (.writeEntryDescriptor i.val { zone := z.val, sign := none, arrow := aspect, lastStep := last }) s x
        .done .none fun t =>
          t.descriptors.get i = { zone := z, sign := none, lastStep := last }
            ∧ (∀ y, y ≠ i → t.descriptors.get y = s.descriptors.get y)
            ∧ OnlyIn ([Piece.descriptors] ++ answering) s t)
    ∧ (∀ (z : Fin 64) (routes : List Route),
      Ready (.writeEntryRouteList z.val (routes.map fun r => { head := r.head.val, exit := r.exit.val })) s x →
      (routes.length ≤ 4 →
        Completes (.writeEntryRouteList z.val (routes.map fun r => { head := r.head.val, exit := r.exit.val })) s x
          .done .none fun t =>
            t.routeLists.get z = routes ∧ (∀ y, y ≠ z → t.routeLists.get y = s.routeLists.get y)
              ∧ OnlyIn ([Piece.routeLists] ++ answering) s t)
      ∧ (4 < routes.length →
        AnswersOnly (.writeEntryRouteList z.val (routes.map fun r => { head := r.head.val, exit := r.exit.val })) s x
          .badValue))
    ∧ (∀ (g : Fin 96) (z : Fin 64), Ready (.writeEntrySign g.val z.val) s x →
      Completes (.writeEntrySign g.val z.val) s x .done .none fun t =>
        t.sign g = { s.sign g with configured := true, home := z } ∧ (∀ y, y ≠ g → t.sign y = s.sign y)
          ∧ OnlyIn ([Piece.signs] ++ answering) s t)
    ∧ (∀ (n : Fin 276) (p : Polarity), Ready (.writeEntryChannel n.val (some p)) s x →
      ((n.val < 48 ∨ 208 ≤ n.val ∧ n.val < 272 ∨ p = .normal) →
        Completes (.writeEntryChannel n.val (some p)) s x .done .none fun t =>
          t.channel n = { s.channel n with polarity := p } ∧ (∀ y, y ≠ n → t.channel y = s.channel y)
            ∧ OnlyIn ([Piece.channels] ++ answering) s t)
      ∧ ((48 ≤ n.val ∧ n.val < 208 ∨ 272 ≤ n.val) → p = .inverted →
        AnswersOnly (.writeEntryChannel n.val (some p)) s x .badValue))
    ∧ (∀ (e : Nat) (f : ExitFields), Ready (.writeEntryExit e f) s x →
      (16 ≤ e ∨ ∃ z d, f = .configured z d ∧ (64 ≤ z ∨ ∃ n, d = some n ∧ 48 ≤ n)) →
      AnswersOnly (.writeEntryExit e f) s x .badObject)
    ∧ (∀ (i : Nat) (f : DescriptorFields), Ready (.writeEntryDescriptor i f) s x →
      ((512 ≤ i ∨ 64 ≤ f.zone ∨ ∃ g, f.sign = some g ∧ 96 ≤ g) →
        AnswersOnly (.writeEntryDescriptor i f) s x .badObject)
      ∧ (i < 512 → f.zone < 64 → (∀ g, f.sign = some g → g < 96) →
        (f.arrow = .other ∨ f.arrow = .absent ∧ f.sign ≠ none) →
        AnswersOnly (.writeEntryDescriptor i f) s x .badValue))
    ∧ (∀ (z : Nat) (routes : List RouteFields), Ready (.writeEntryRouteList z routes) s x →
      (64 ≤ z ∨ ∃ r ∈ routes, 512 ≤ r.head ∨ 16 ≤ r.exit) →
      AnswersOnly (.writeEntryRouteList z routes) s x .badObject)
    ∧ (∀ g z : Nat, Ready (.writeEntrySign g z) s x → (96 ≤ g ∨ 64 ≤ z) →
      AnswersOnly (.writeEntrySign g z) s x .badObject)
    ∧ (∀ (n : Nat) (p : Option Polarity), Ready (.writeEntryChannel n p) s x →
      (276 ≤ n → AnswersOnly (.writeEntryChannel n p) s x .badObject)
      ∧ (n < 276 → p = none → AnswersOnly (.writeEntryChannel n p) s x .badValue))

/-! ### WRITE SETTING -/

/-- WRITE SETTING of a wing's and a zone's settings: the value is brought into its range and logged where it changes.
In service each setting needs its own authority and an object that stands, in CONFIGURING the fire or the services
station; else NOT_PERMITTED or BAD_OBJECT. A class outside its set is BAD_VALUE. That an unconfigured zone is taken in
CONFIGURING, with SETTING_CHANGED, is the model's reading (log entry 26), and so is that the entry names there the wing the
zone's record keeps, whose revision advances (log entry 56); that the entry's subject is the record written is its choice
(log entry 14). -/
def Obligations.WingAndZoneSettings : Prop :=
  ∀ (s : State) (x : TakenRequest),
    (∀ (w : Fin 4) (v a : Nat) (i : ZoneWingSetting) (name : SettingName) (old : Nat) (new : Wing),
      (i = .tAck w.val v ∧ name = .tAck ∧ a = clamp 5 30 v ∧ old = (s.wing w).tAck
          ∧ new = { s.wing w with tAck := a }
        ∨ i = .tInv w.val v ∧ name = .tInv ∧ a = clamp 30 300 v ∧ old = (s.wing w).tInv
          ∧ new = { s.wing w with tInv := a }
        ∨ i = .tSpread w.val v ∧ name = .tSpread ∧ a = (if v = 0 then 0 else clamp 60 900 v)
          ∧ old = (s.wing w).tSpread ∧ new = { s.wing w with tSpread := a }
        ∨ i = .exitDelay w.val v ∧ name = .exitDelay ∧ a = clamp 10 120 v ∧ old = (s.wing w).exitDelay
          ∧ new = { s.wing w with exitDelay := a }) →
      (if s.inService then
          (if name = .exitDelay then holdsGuard s x.port w = true else x.port = .fire)
        else x.port ≠ .guard) →
      Ready (.writeSettingZoneWing i) s x →
      Completes (.writeSettingZoneWing i) s x (if v = a then .done else .doneAdjusted)
        (if v = a then .none else .applied [a]) fun t =>
          t.wing w = (if old = a then new else { new with revision := new.revision + 1 })
            ∧ (∀ y, y ≠ w → t.wing y = s.wing y)
            ∧ Logged s t (if old = a then [] else
              [{ kind := .settingChanged, subject := .wing w, wing := some w, detail := .setting name }])
            ∧ OnlyIn ([Piece.wings, .log] ++ answering) s t)
    ∧ (∀ (z : Fin 64) (v a : Nat), a ∈ vacancySteps → (v ≤ a ∨ a = 1800) → (∀ b ∈ vacancySteps, v ≤ b → a ≤ b) →
      (if s.inService then (s.zone z).configured = true ∧ holdsGuard s x.port (s.wingOf z) = true
        else x.port ≠ .guard) →
      Ready (.writeSettingZoneWing (.vacancyPeriod z.val v)) s x →
      Completes (.writeSettingZoneWing (.vacancyPeriod z.val v)) s x (if v = a then .done else .doneAdjusted)
        (if v = a then .none else .applied [a]) fun t =>
          t.zone z = { s.zone z with vacancyPeriod := a } ∧ (∀ y, y ≠ z → t.zone y = s.zone y)
            ∧ Logged s t (if (s.zone z).vacancyPeriod = a then [] else
              [{ kind := .settingChanged, subject := .zone z, wing := some (s.wingOf z)
                 detail := .setting .vacancyPeriod }])
            ∧ OnlyIn ([Piece.zones, .wings, .log] ++ answering) s t)
    ∧ (∀ (z : Fin 64) (source : ActivitySource) (c : ActivityClass),
      (if s.inService then (s.zone z).configured = true ∧ holdsGuard s x.port (s.wingOf z) = true
        else x.port ≠ .guard) →
      Ready (.writeSettingZoneWing (.activityClass z.val source (some c))) s x →
      Completes (.writeSettingZoneWing (.activityClass z.val source (some c))) s x .done .none fun t =>
        (t.zone z).classes.of source = c
          ∧ (∀ y, y ≠ source → (t.zone z).classes.of y = (s.zone z).classes.of y)
          ∧ (∀ y, y ≠ z → t.zone y = s.zone y)
          ∧ Logged s t (if (s.zone z).classes.of source = c then [] else
            [{ kind := .settingChanged, subject := .zone z, wing := some (s.wingOf z)
               detail := .setting (.activityClass source) }])
          ∧ OnlyIn ([Piece.zones, .wings, .log] ++ answering) s t)
    ∧ (∀ (w v : Nat) (i : ZoneWingSetting), i ∈ [.tAck w v, .tInv w v, .tSpread w v, .exitDelay w v] →
      Ready (.writeSettingZoneWing i) s x →
      (4 ≤ w → AnswersOnly (.writeSettingZoneWing i) s x .badObject)
      ∧ (∀ k : Fin 4, w = k.val →
        (if s.inService then
            (if i = .exitDelay w v then holdsGuard s x.port k = false else x.port ≠ .fire)
          else x.port = .guard) →
        AnswersOnly (.writeSettingZoneWing i) s x .notPermitted))
    ∧ (∀ (z v : Nat) (source : ActivitySource) (c : Option ActivityClass) (i : ZoneWingSetting),
      i ∈ [.vacancyPeriod z v, .activityClass z source c] → Ready (.writeSettingZoneWing i) s x →
      (namesNone z (fun k : Fin 64 => s.inService = false ∨ (s.zone k).configured = true) →
        AnswersOnly (.writeSettingZoneWing i) s x .badObject)
      ∧ (∀ k : Fin 64, z = k.val →
        (if s.inService then (s.zone k).configured = true ∧ holdsGuard s x.port (s.wingOf k) = false
          else x.port = .guard) →
        AnswersOnly (.writeSettingZoneWing i) s x .notPermitted))
    ∧ (∀ (z : Fin 64) (source : ActivitySource),
      (if s.inService then (s.zone z).configured = true ∧ holdsGuard s x.port (s.wingOf z) = true
        else x.port ≠ .guard) →
      Ready (.writeSettingZoneWing (.activityClass z.val source none)) s x →
      AnswersOnly (.writeSettingZoneWing (.activityClass z.val source none)) s x .badValue)

/-- WRITE SETTING of a loop's, a door's and a desk's settings and of a desk list. A loop's mode becomes the pending
mode in service, and is written directly in CONFIGURING. An object that does not stand is BAD_OBJECT, a station without
the setting's authority NOT_PERMITTED, and a mode or a desk list outside its set BAD_VALUE. That an unconfigured object
is taken in CONFIGURING, with SETTING_CHANGED, is the model's reading (log entry 26); so is that the entry names the wing
which the record of a zone that is not configured keeps (log entry 56), that the desks of a desk list
are judged before authority and before the point's kind (log entry 9), and that MIRRORED for loop 2 or 3 is BAD_VALUE also
where the pair is MIRRORED (log entry 42); and that the entry's subject is the loop, the door or the point written, and none
for a desk, is its choice (log entry 14). -/
def Obligations.LoopDoorAndCallSettings : Prop :=
  ∀ (s : State) (x : TakenRequest),
    (∀ (l : Fin 4) (v a : Nat) (i : LoopSetting) (name : SettingName) (old : Nat) (new : Loop),
      (i = .scanInterval v ∧ name = .scanInterval ∧ a = clamp 1 10 v ∧ old = (s.loop l).scanInterval
          ∧ new = { s.loop l with scanInterval := a }
        ∨ i = .settlePeriod v ∧ name = .settlePeriod ∧ a = clamp 5 60 v ∧ old = (s.loop l).settlePeriod
          ∧ new = { s.loop l with settlePeriod := a }) →
      (if s.inService then (s.loop l).inUse = true ∧ servesLoop s x.port l = true else x.port ≠ .guard) →
      Ready (.writeSettingLoop l.val i) s x →
      Completes (.writeSettingLoop l.val i) s x (if v = a then .done else .doneAdjusted)
        (if v = a then .none else .applied [a]) fun t =>
          t.loop l = new ∧ (∀ y, y ≠ l → t.loop y = s.loop y)
            ∧ Logged s t (if old = a then [] else
              [{ kind := .settingChanged, subject := .loop l, wing := none, detail := .setting name }])
            ∧ OnlyIn ([Piece.loops, .log] ++ answering) s t)
    ∧ (∀ (l : Fin 4) (m : LoopMode), s.inService = true → (s.loop l).inUse = true → servesLoop s x.port l = true →
      Ready (.writeSettingLoop l.val (.mode (some m))) s x →
      ((m = .mirrored → l.val < 2 ∧ ((s.loop l).mode = .mirrored ∨ s.slot (upperLoop (pairOf l)) 0 = .endMark)) →
        Completes (.writeSettingLoop l.val (.mode (some m))) s x .done .none fun t =>
          (∀ y ∈ [l, partnerOf l],
            t.loop y = { s.loop y with pendingMode := if m = (s.loop y).mode then none else some m })
            ∧ (∀ y, y ≠ l → y ≠ partnerOf l → t.loop y = s.loop y)
            ∧ Logged s t (if (s.loop l).pendingMode = (if m = (s.loop l).mode then none else some m) then [] else
              [{ kind := .settingChanged, subject := .loop l, wing := none, detail := .setting .loopMode }])
            ∧ OnlyIn ([Piece.loops, .log] ++ answering) s t)
      ∧ (m = .mirrored → 2 ≤ l.val → AnswersOnly (.writeSettingLoop l.val (.mode (some m))) s x .badValue)
      ∧ (m = .mirrored → l.val < 2 → (s.loop l).mode = .independent →
        s.slot (upperLoop (pairOf l)) 0 ≠ .endMark →
        AnswersOnly (.writeSettingLoop l.val (.mode (some m))) s x .inUse))
    ∧ (∀ (l : Fin 4) (m : LoopMode), s.inService = false → x.port ≠ .guard → (m = .mirrored → l.val < 2) →
      Ready (.writeSettingLoop l.val (.mode (some m))) s x →
      Completes (.writeSettingLoop l.val (.mode (some m))) s x .done .none fun t =>
        (t.loop l).mode = m ∧ (t.loop l).pendingMode = (s.loop l).pendingMode
          ∧ (m = .mirrored → ∀ y ∈ [l, partnerOf l], t.loop y = { s.loop y with mode := .mirrored, inUse := true })
          ∧ (m = .independent → (s.loop l).mode = .mirrored →
            ∀ y ∈ [l, partnerOf l], t.loop y = { s.loop y with mode := .independent })
          ∧ (m = .independent → (s.loop l).mode = .independent → t.loops = s.loops)
          ∧ (∀ y, y ≠ l → y ≠ partnerOf l → t.loop y = s.loop y)
          ∧ Logged s t (if (s.loop l).mode = m then [] else
            [{ kind := .settingChanged, subject := .loop l, wing := none, detail := .setting .loopMode }])
          ∧ OnlyIn ([Piece.loops, .log] ++ answering) s t)
    ∧ (∀ (l : Nat) (i : LoopSetting), Ready (.writeSettingLoop l i) s x →
      (namesNone l (fun k : Fin 4 => s.inService = false ∨ (s.loop k).inUse = true) →
        AnswersOnly (.writeSettingLoop l i) s x .badObject)
      ∧ (∀ k : Fin 4, l = k.val →
        (if s.inService then (s.loop k).inUse = true ∧ servesLoop s x.port k = false else x.port = .guard) →
        AnswersOnly (.writeSettingLoop l i) s x .notPermitted)
      ∧ (∀ k : Fin 4, l = k.val →
        (if s.inService then (s.loop k).inUse = true ∧ servesLoop s x.port k = true else x.port ≠ .guard) →
        (i = .mode none ∨ i = .mode (some .mirrored) ∧ 2 ≤ k.val) →
        AnswersOnly (.writeSettingLoop l i) s x .badValue))
    ∧ (∀ (n : Fin 48) (v a : Nat) (i : DoorSetting) (name : SettingName) (old : Nat) (new : Door),
      (i = .tPass v ∧ name = .tPass ∧ a = clamp 3 30 v ∧ old = (s.door n).tPass
          ∧ new = { s.door n with tPass := a }
        ∨ i = .tHeld v ∧ name = .tHeld ∧ a = clamp 10 600 v ∧ old = (s.door n).tHeld
          ∧ new = { s.door n with tHeld := a }) →
      (if s.inService then (s.door n).configured = true ∧ holdsGuard s x.port (s.doorWing n) = true
        else x.port ≠ .guard) →
      Ready (.writeSettingDoor n.val i) s x →
      Completes (.writeSettingDoor n.val i) s x (if v = a then .done else .doneAdjusted)
        (if v = a then .none else .applied [a]) fun t =>
          t.door n = new ∧ (∀ y, y ≠ n → t.door y = s.door y)
            ∧ Logged s t (if old = a then [] else
              [{ kind := .settingChanged, subject := .door n, wing := some (s.doorWing n), detail := .setting name }])
            ∧ OnlyIn ([Piece.doors, .wings, .log] ++ answering) s t)
    ∧ (∀ (n : Nat) (i : DoorSetting), Ready (.writeSettingDoor n i) s x →
      (namesNone n (fun k : Fin 48 => s.inService = false ∨ (s.door k).configured = true) →
        AnswersOnly (.writeSettingDoor n i) s x .badObject)
      ∧ (∀ k : Fin 48, n = k.val →
        (if s.inService then (s.door k).configured = true ∧ holdsGuard s x.port (s.doorWing k) = false
          else x.port = .guard) →
        AnswersOnly (.writeSettingDoor n i) s x .notPermitted))
    ∧ (∀ (k : Fin 8) (v : Nat),
      (if s.inService then x.port = .fire ∨ (s.desk k).owner = some x.port else x.port ≠ .guard) →
      Ready (.writeSettingTOffer k.val v) s x →
      Completes (.writeSettingTOffer k.val v) s x (if v = clamp 10 120 v then .done else .doneAdjusted)
        (if v = clamp 10 120 v then .none else .applied [clamp 10 120 v]) fun t =>
          t.desk k = { s.desk k with tOffer := clamp 10 120 v } ∧ (∀ y, y ≠ k → t.desk y = s.desk y)
            ∧ Logged s t (if (s.desk k).tOffer = clamp 10 120 v then [] else
              [{ kind := .settingChanged, subject := .none, wing := none, detail := .setting .tOffer }])
            ∧ OnlyIn ([Piece.desks, .log] ++ answering) s t)
    ∧ (∀ k v : Nat, Ready (.writeSettingTOffer k v) s x →
      (8 ≤ k → AnswersOnly (.writeSettingTOffer k v) s x .badObject)
      ∧ (∀ d : Fin 8, k = d.val →
        (if s.inService then x.port ≠ .fire ∧ (s.desk d).owner ≠ some x.port else x.port = .guard) →
        AnswersOnly (.writeSettingTOffer k v) s x .notPermitted))
    ∧ (∀ (c : Nat) (desks : List Nat), Ready (.writeSettingDeskList c desks) s x →
      ((namesNone c (fun k : Fin 64 => s.inService = false ∨ (s.point k).configured = true) ∨ ∃ k ∈ desks, 8 ≤ k) →
        AnswersOnly (.writeSettingDeskList c desks) s x .badObject)
      ∧ (∀ k : Fin 64, c = k.val → (∀ d ∈ desks, d < 8) →
        (if s.inService then
            (s.point k).configured = true ∧ holdsService s x.port (s.wingOf (s.point k).zone) = false
          else x.port = .guard) →
        AnswersOnly (.writeSettingDeskList c desks) s x .notPermitted)
      ∧ (∀ k : Fin 64, c = k.val → (∀ d ∈ desks, d < 8) → (s.point k).kind = .fire →
        (if s.inService then
            (s.point k).configured = true ∧ holdsService s x.port (s.wingOf (s.point k).zone) = true
          else x.port ≠ .guard) →
        AnswersOnly (.writeSettingDeskList c desks) s x .badValue))
    ∧ (∀ (c : Fin 64) (desks : List (Fin 8)), (s.point c).kind = .help →
      (if s.inService then
          (s.point c).configured = true ∧ holdsService s x.port (s.wingOf (s.point c).zone) = true
        else x.port ≠ .guard) →
      Ready (.writeSettingDeskList c.val (desks.map Fin.val)) s x →
      (desks ≠ [] → desks.length ≤ 3 → desks.Nodup →
        Completes (.writeSettingDeskList c.val (desks.map Fin.val)) s x .done .none fun t =>
          (t.point c).deskList = desks ∧ (∀ y, y ≠ c → (t.point y).deskList = (s.point y).deskList)
            ∧ ((s.point c).deskList ≠ desks → LoggedFirst s t
              [{ kind := .settingChanged, subject := .point c, wing := some (s.wingOf (s.point c).zone)
                 detail := .setting .deskList }])
            ∧ OnlyIn ([Piece.points, .desks, .wings, .log] ++ answering) s t)
      ∧ ((desks = [] ∨ 3 < desks.length ∨ ¬ desks.Nodup) →
        AnswersOnly (.writeSettingDeskList c.val (desks.map Fin.val)) s x .badValue))

/-- WRITE SETTING of a group's routing and of the authority map: FIRE and ROUTE keep the fire station; a group is written
by the fire station and by the other station of its line, in CONFIGURING with CONFIG authority besides; and the map is
written by the fire station alone. A change has its SETTING_CHANGED entry, of a routing one routed by the new table. In
CONFIGURING the guard station is refused whatever it names. That the by-desk mark stays at a write of another group than
CALL is the model's choice (log entry 28), and so is the wing as the subject of the authority map's entry (log entry 14);
that a wing out of range is BAD_OBJECT whatever else is wrong is its reading of R169 (log entry 9), and the wrap of the
sequence setting the gap markers before the notice is offered its choice (log entry 48). That a group outside the eight is
BAD_VALUE in CONFIGURING for the services station, judged before the groups that station may write, is its reading (log
entry 26). -/
def Obligations.RoutingAndAuthority : Prop :=
  ∀ (s : State) (x : TakenRequest),
    (∀ (g : Group) (v : StationSet) (byDesk : Bool), Ready (.writeSettingRouting (some g) (some v) byDesk) s x →
      (x.port = .fire
        ∨ x.port = .services ∧ (g = .fault ∨ g = .output ∨ g = .system)
        ∨ x.port = .guard ∧ s.inService = true ∧ (g = .security ∨ g = .door ∨ g = .call)) →
      Completes (.writeSettingRouting (some g) (some v) byDesk) s x
        (if (g = .fire ∨ g = .route) ∧ v.fire = false then .doneAdjusted else .done)
        (if (g = .fire ∨ g = .route) ∧ v.fire = false then .appliedRouting { v with fire := true } else .none) fun t =>
          t.routing.set g = (if g = .fire ∨ g = .route then { v with fire := true } else v)
            ∧ (∀ y, y ≠ g → t.routing.set y = s.routing.set y)
            ∧ t.routing.callByDesk = (if g = .call then byDesk else s.routing.callByDesk)
            ∧ Logged s t (if t.routing = s.routing then [] else
              [{ kind := .settingChanged, subject := .none, wing := none, detail := .setting (.routing g) }])
            ∧ (t.routing = s.routing → NoticesKept s t)
            ∧ (t.routing ≠ s.routing → Noticed s t
              { kind := .settingChanged, subject := .none, wing := none, detail := .setting (.routing g) }
              t.routing.system.has)
            ∧ OnlyIn ([Piece.routing, .log] ++ answering) s t)
    ∧ (∀ (g : Option Group) (v : Option StationSet) (byDesk : Bool), Ready (.writeSettingRouting g v byDesk) s x →
      (g = none → (x.port = .fire ∨ x.port = .services ∧ s.inService = false) →
        AnswersOnly (.writeSettingRouting g v byDesk) s x .badValue)
      ∧ (x.port = .guard → s.inService = false → AnswersOnly (.writeSettingRouting g v byDesk) s x .notPermitted)
      ∧ (∀ k, g = some k →
        (x.port = .services ∧ k ≠ .fault ∧ k ≠ .output ∧ k ≠ .system
          ∨ x.port = .guard ∧ k ≠ .security ∧ k ≠ .door ∧ k ≠ .call) →
        AnswersOnly (.writeSettingRouting g v byDesk) s x .notPermitted)
      ∧ (∀ k, g = some k → v = none →
        (x.port = .fire
          ∨ x.port = .services ∧ (k = .fault ∨ k = .output ∨ k = .system)
          ∨ x.port = .guard ∧ s.inService = true ∧ (k = .security ∨ k = .door ∨ k = .call)) →
        AnswersOnly (.writeSettingRouting g v byDesk) s x .badValue))
    ∧ (∀ (st : Station) (w : Fin 4) (c : Category) (granted : Bool),
      Ready (.writeSettingAuthority (some st) w.val (some c) granted) s x →
      (x.port = .fire →
        Completes (.writeSettingAuthority (some st) w.val (some c) granted) s x .done .none fun t =>
          (match c with
            | .guard => holdsGuard t st w = granted ∧ holdsService t st w = holdsService s st w
            | .service => holdsService t st w = granted ∧ holdsGuard t st w = holdsGuard s st w)
            ∧ (∀ y v, y ≠ st ∨ v ≠ w → t.authority.of y v = s.authority.of y v)
            ∧ Logged s t (if t.authority = s.authority then [] else
              [{ kind := .settingChanged, subject := .wing w, wing := some w
                 detail := .setting (.authority st c) }])
            ∧ OnlyIn ([Piece.authority, .wings, .log] ++ answering) s t)
      ∧ (x.port ≠ .fire →
        AnswersOnly (.writeSettingAuthority (some st) w.val (some c) granted) s x .notPermitted))
    ∧ (∀ (st : Option Station) (w : Nat) (c : Option Category) (granted : Bool),
      Ready (.writeSettingAuthority st w c granted) s x →
      (4 ≤ w → AnswersOnly (.writeSettingAuthority st w c granted) s x .badObject)
      ∧ (w < 4 → x.port = .fire → (st = none ∨ c = none) →
        AnswersOnly (.writeSettingAuthority st w c granted) s x .badValue))

/-! ### Queries -/

/-- The twelve queries: each is answered from the records as they stand and changes none of them. READ LOOP of either loop
of a mirrored pair gives the common fields of the pair, those of its lower loop. That READ LOG is
answered DONE_ADJUSTED where its count was adjusted is the model's reading (log entry 27), and so is that READ ZONE of a zone
that is not configured returns the revision of the wing its record keeps (log entry 56); that a route whose path has no last
step is returned without steps is its choice (log entry 45). -/
def Obligations.QueriesAnswerRecords : Prop :=
  ∀ (s : State) (x : TakenRequest),
    (Asked .status s x → Answers .status s x .done
      (.status s.part s.seconds
        { fire := s.ports.fire.up, guard := s.ports.guard.up, services := s.ports.services.up }
        (s.log.head?.map fun e => e.sequence) (s.log.getLast?.map fun e => e.sequence)
        ((List.finRange 4).map fun w =>
          { stage := (s.wing w).stage.name, mode := (s.wing w).mode, revision := (s.wing w).revision })))
    ∧ (∀ z : Fin 64, Asked (.readZone z.val) s x → Answers (.readZone z.val) s x .done
      (.zone (s.zone z) ((s.zone z).testTimer.map fun n => (n + 59) / 60) (s.zone z).unprotected
        (s.wing (s.zone z).wing).revision))
    ∧ (∀ w : Fin 4, Asked (.readWing w.val) s x → Answers (.readWing w.val) s x .done (.wing (s.wing w)))
    ∧ (∀ (n : Fin 192) d, s.detector n = some d → Asked (.readDetector n.val) s x →
      Answers (.readDetector n.val) s x .done (.detector d))
    ∧ (∀ n : Fin 192, s.detector n = none → Asked (.readDetector n.val) s x →
      Answers (.readDetector n.val) s x .badObject .none)
    ∧ (∀ l : Fin 4, Asked (.readLoop l.val) s x → Answers (.readLoop l.val) s x .done
      (.loop
        (if (s.loop l).mode = .mirrored ∧ 2 ≤ l.val then
          { s.loop l with
            state := (s.loop (partnerOf l)).state, power := (s.loop (partnerOf l)).power
            scan := (s.loop (partnerOf l)).scan, due := (s.loop (partnerOf l)).due
            lastStart := (s.loop (partnerOf l)).lastStart, breakPosition := (s.loop (partnerOf l)).breakPosition }
        else s.loop l)
        (s.loop (lowerLoop (pairOf l))).mode (s.loop (partnerOf l)).mode (s.loop (partnerOf l)).pendingMode))
    ∧ (∀ n : Fin 48, Asked (.readDoor n.val) s x → Answers (.readDoor n.val) s x .done
      (.door (s.door n) (if (s.door n).configured then some (s.door n).status else none)
        (if (s.door n).configured then some (s.door n).value else none)
        (if (s.door n).configured then some (s.door n).cause else none)
        (if (s.door n).kind = .fireHold then some (s.door n).notClosedReported else none)
        (s.channel (doorChannel n)).effective))
    ∧ (Asked .readCallQueue s x → Answers .readCallQueue s x .done
      (.callQueue (queuedCalls s) ((List.finRange 8).map fun k => (s.desk k).offered)))
    ∧ (∀ c : Fin 64, Asked (.readCallPoint c.val) s x →
      Answers (.readCallPoint c.val) s x .done
        (.point (s.point c) (if (s.point c).kind = .help then some (s.point c).deskList else none)))
    ∧ (∀ z : Fin 64, Asked (.readRoute z.val) s x → Answers (.readRoute z.val) s x .done
      (.route ((s.routeLists.get z).zipIdx.map (routeReport s z)) (s.zone z).selected (s.zone z).grade
        (s.zone z).noRoute (s.zone z).transit))
    ∧ (∀ e : Fin 16, Asked (.readExit e.val) s x → Answers (.readExit e.val) s x .done
      (.exit (s.exit e) (if (s.exit e).configured then some (s.exit e).state else none)))
    ∧ (∀ n : Fin 276, Asked (.readChannel n.val) s x → Answers (.readChannel n.val) s x .done
      (.channel n (channelKind n) (s.channel n)
        (if n.val < 48 ∨ 208 ≤ n.val ∧ n.val < 272 then some (s.channel n).polarity else none)))
    ∧ (∀ first count : Nat, Asked (.readLog first count) s x → Answers (.readLog first count) s x
      (if 1 ≤ count ∧ count ≤ 16 then .done else .doneAdjusted)
      (.log ((s.log.filter fun e => decide (first ≤ e.sequence)).take (clamp 1 16 count))
        (match s.log with | [] => false | e :: _ => decide (first < e.sequence))
        (s.log.getLast?.map fun e => e.sequence) (clamp 1 16 count)))
    ∧ (∀ (n : Nat) (i : Instr),
      (i = .readZone n ∧ 64 ≤ n ∨ i = .readWing n ∧ 4 ≤ n ∨ i = .readDetector n ∧ 192 ≤ n ∨ i = .readLoop n ∧ 4 ≤ n
        ∨ i = .readDoor n ∧ 48 ≤ n ∨ i = .readCallPoint n ∧ 64 ≤ n ∨ i = .readRoute n ∧ 64 ≤ n
        ∨ i = .readExit n ∧ 16 ≤ n ∨ i = .readChannel n ∧ 276 ≤ n) →
      Asked i s x → Answers i s x .badObject .none)

/-! ### The detector loops and the detectors -/

/-- INTERVAL TIMER EXPIRY, POWER OFF EXPIRY and SETTLE EXPIRY: a loop whose interval has run out becomes due and the
arbiters hand out the free converters, the earliest last scan start first, with the waiting requests applied at each scan
start; the phase POWER_OFF gives way to SETTLE with power on; and a settled loop is RUNNING, with LOOP_RUNNING, and due.
That all timers at 0 make their loops due together, that both arbiters weigh at once (log entry 19), and that last scan starts
are compared as raw values across a wrap of the seconds counter (log entry 57), are the model's choices. A mirrored pair's one
LOOP_RUNNING and its lower loop's settle period (log entry 33), that the slot whose mark a request writes may stand behind an
END (log entry 15), and that the mark of a detector without a slot is whether it is not DISABLED (log entry 50), are its
readings. -/
def Obligations.LoopTimers : Prop :=
  ∀ (s : State) (l : Fin 4), LoopPairsOk s → s.engine ≠ .opening →
    ((s.loop l).intervalTimer = some 0 → (s.loop l).state.scans = true →
      Occurs (.intervalTimerExpiry l) s fun t =>
        ((t.loop l).due = true ∨ (t.loop l).lastStart = some s.seconds) ∧ PortsQuiet s t
          ∧ HandedOut s t [] (fun c => decide (s.converter c = .free)) ∧ StartedScans s t []
          ∧ (∀ w, (t.wing w).stage = (s.wing w).stage) ∧ OnlyIn (scanning ++ outward) s t)
    ∧ ((s.loop l).state = .restarting .powerOff 0 →
      Occurs (.powerOffExpiry l) s fun t =>
        (t.loop l).power = true
          ∧ (t.loop l).state = .restarting .settle (s.loop (unitOf s l).head).settlePeriod
          ∧ (∀ k, k ∉ (unitOf s l).loops → t.loop k = s.loop k) ∧ OnlyIn ([Piece.loops] ++ outward) s t)
    ∧ ((s.loop l).state = .restarting .settle 0 →
      Occurs (.settleExpiry l) s fun t =>
        (t.loop l).state = .running ∧ ((t.loop l).due = true ∨ (t.loop l).lastStart = some s.seconds)
          ∧ HandedOut s t [] (fun c => decide (s.converter c = .free)) ∧ StartedScans s t []
          ∧ LoggedAmong s t { kind := .loopRunning, subject := .loop (unitOf s l).head, wing := none, detail := .none }
          ∧ PortsQuiet s t ∧ OnlyIn (scanning ++ outward) s t)

/-- POLL COMPLETE and MIRRORED POLL COMPLETE: with a further enabled slot the scan goes on there and notes the poll, and
a valid reply takes the loop out of LINE_FAULT; the two replies of a mirrored slot give one reading and the mismatch flag.
After the last slot the scan has ended, or has started anew at this second, with its judgments of line fault and break,
and the arbiters hand out the converters it has freed. That both arbiters weigh at once (log entry 19), and that last scan
starts are compared as raw values across a wrap (log entry 57), are the model's choices; that MIRROR_MISMATCH stands before the
reading's own entries (log entry 18), and that a pair's line fault and break entries name its lower loop (log entry 33), are
its readings. -/
def Obligations.PollsMoveOn : Prop :=
  ∀ (s : State) (sc : Scan),
    (∀ (l : Fin 4) (r : Reading), (s.loop l).mode = .independent → (s.loop l).scan = some sc →
      (∀ k, enabledSlot (s.scanLists.get l) (sc.slot.val + 1) = some k →
        Occurs (.pollComplete l r) s fun t =>
          (t.loop l).scan = some { slot := k, polls := sc.polls ++ [{ slot := sc.slot, endA := r, endB := .noReply }] }
            ∧ (t.loop l).state
              = (if (s.loop l).state = .lineFault ∧ replyKind r = .valid then .running else (s.loop l).state)
            ∧ (∀ m, m ≠ l → t.loop m = s.loop m) ∧ PortsQuiet s t
            ∧ OnlyIn (alarming ++ outward) s t ∧ DoorsKept s t)
      ∧ (LoopPairsOk s → enabledSlot (s.scanLists.get l) (sc.slot.val + 1) = none →
        Occurs (.pollComplete l r) s fun t =>
          ((t.loop l).scan = none ∨ (t.loop l).lastStart = some s.seconds)
            ∧ LineJudged l (sc.polls ++ [{ slot := sc.slot, endA := r, endB := .noReply }])
                (decide (replyKind r = .valid)) s t
            ∧ HandedOut s t [l] (fun c => decide (s.converter c = .free) || decide (s.converter c = .loop l))
            ∧ PortsQuiet s t ∧ OnlyIn (alarming ++ outward) s t ∧ DoorsKept s t))
    ∧ (∀ (p : Fin 2) (a b : Reading), (s.loop (lowerLoop p)).mode = .mirrored →
      (s.loop (lowerLoop p)).scan = some sc →
      (∀ k, enabledSlot (s.scanLists.get (lowerLoop p)) (sc.slot.val + 1) = some k →
        Occurs (.mirroredPollComplete p a b) s fun t =>
          (∀ l ∈ [lowerLoop p, upperLoop p],
            (t.loop l).scan = some { slot := k, polls := sc.polls ++ [{ slot := sc.slot, endA := a, endB := b }] })
            ∧ (t.loop (lowerLoop p)).state
              = (if (s.loop (lowerLoop p)).state = .lineFault ∧ (replyKind a = .valid ∨ replyKind b = .valid) then
                  .running
                else (s.loop (lowerLoop p)).state)
            ∧ (∀ n d, detectorPolled s (lowerLoop p) sc.slot = some n → s.detector n = some d →
              t.detector n
                = (takeReading (takeMismatch s n a b) n (match replyKind a, replyKind b with
                  | .valid, .valid => .raw (max (Reading.value a) (Reading.value b))
                  | .valid, _ => a
                  | _, .valid => b
                  | .faultCode, _ => a
                  | .noReply, _ => b)).detector n)
            ∧ PortsQuiet s t ∧ OnlyIn (alarming ++ outward) s t ∧ DoorsKept s t)
      ∧ (∀ n d, detectorPolled s (lowerLoop p) sc.slot = some n → s.detector n = some d →
        Occurs (.mirroredPollComplete p a b) s fun t =>
          let flag := match replyKind a, replyKind b with
            | .valid, .valid => decide (64 < endDifference a b)
            | .valid, .faultCode => true
            | .faultCode, .valid => true
            | _, _ => d.mismatch
          (∃ e, t.detector n = some e ∧ e.mismatch = flag)
            ∧ (d.mismatch = false → flag = true →
              LoggedFirst s t
                [{ kind := .mirrorMismatch, subject := .detector n, wing := some (s.wingOf d.zone)
                   detail := .number (if replyKind a = .valid ∧ replyKind b = .valid then
                     max (Reading.value a) (Reading.value b) - min (Reading.value a) (Reading.value b) else 0) }]))
      ∧ (LoopPairsOk s → enabledSlot (s.scanLists.get (lowerLoop p)) (sc.slot.val + 1) = none →
        Occurs (.mirroredPollComplete p a b) s fun t =>
          (∀ l ∈ [lowerLoop p, upperLoop p], (t.loop l).scan = none ∨ (t.loop l).lastStart = some s.seconds)
            ∧ LineJudged (lowerLoop p) (sc.polls ++ [{ slot := sc.slot, endA := a, endB := b }])
                (decide (replyKind a = .valid ∨ replyKind b = .valid)) s t
            ∧ BreakJudged (lowerLoop p) (sc.polls ++ [{ slot := sc.slot, endA := a, endB := b }]) s t
            ∧ HandedOut s t [lowerLoop p, upperLoop p] (fun c => decide (s.converter c = .free)
                || decide (s.converter c = .pair p) || decide (s.converter c = .kept p))
            ∧ PortsQuiet s t ∧ OnlyIn (alarming ++ outward) s t ∧ DoorsKept s t))

/-- The reading of a polled detector, while the scan goes on. A missed reply counts up to FAULT at the third, and a fault
code gives FAULT at once; FAULT is left at the second valid reply in a row. A valid reply in a zone whose test is off
gives the level, the rise run, the state and entry of the table of states, and the tracked baseline. A detector that
enters ALARM sets its zone in ALARM and its wing's stage, with what the stage brings, and a silenced wing in EVACUATE
resounds. A baseline that reaches the top of its window sets the compensation-limit flag, with COMP_LIMIT. Where another
detector of the zone is VERIFYING, which is the model's reading (log entry 16), an entry into PRE_ALARM, VERIFYING or
ALARM promotes every VERIFYING detector of the zone. In a zone under test the level and the rise run are taken, the state
and the baseline stay, and an alarm condition that finds the detector armed is logged as TEST_ACTIVATION; what becomes of
the mark of a detector that is not in NORMAL, and after a rise below the threshold, is the model's reading (log entries 17
and 34). So is the place of the reading's entries before LOOP_LINE_FAULT_CLEARED (log entry 18). -/
def Obligations.ReadingEvaluated : Prop :=
  ∀ (s : State) (sc : Scan) (l : Fin 4) (k : Fin 48) (n : Fin 192) (d : Detector), (s.loop l).mode = .independent →
    (s.loop l).scan = some sc → enabledSlot (s.scanLists.get l) (sc.slot.val + 1) = some k →
    detectorPolled s l sc.slot = some n → s.detector n = some d → d.state ≠ .disabled →
    ((d.missed + 1 < 3 ∨ ∃ f, d.state = .fault f) →
      Occurs (.pollComplete l .noReply) s fun t =>
        t.detector n = some { d with missed := min (d.missed + 1) 3, validRun := 0 }
          ∧ (∀ m, m ≠ n → t.detector m = s.detector m)
          ∧ OnlyIn ([Piece.loops, .detectors] ++ doorward ++ [Piece.engine] ++ outward) s t)
    ∧ (∀ (r : Reading) (f : FaultKind) (missed : Nat),
      (r = .noReply ∧ f = .noReply ∧ missed = 3 ∧ 3 ≤ d.missed + 1
        ∨ (∃ v, r = .raw v ∧ (v < 64 ∧ f = .headRemoved ∨ 4032 ≤ v ∧ f = .overRange)) ∧ missed = 0) →
      (∀ g, d.state ≠ .fault g) →
      Occurs (.pollComplete l r) s fun t =>
        t.detector n = some { d with
            state := .fault f, missed := missed, validRun := 0, level := none, riseRun := 0
            testArmed := d.testArmed.map fun _ => false }
          ∧ Logged s t (faultEntries s n d f)
          ∧ (∀ m, m ≠ n → t.detector m = s.detector m)
          ∧ OnlyIn ([Piece.zones, .wings, .loops, .detectors, .exits, .engine, .log] ++ outward) s t)
    ∧ (∀ (v : Nat) (f g : FaultKind), (v < 64 ∧ f = .headRemoved ∨ 4032 ≤ v ∧ f = .overRange) → d.state = .fault g →
      Occurs (.pollComplete l (.raw v)) s fun t =>
        t.detector n = some { d with state := .fault f, missed := 0, validRun := 0 }
          ∧ (∀ m, m ≠ n → t.detector m = s.detector m) ∧ Logged s t []
          ∧ OnlyIn ([Piece.loops, .detectors] ++ doorward ++ [Piece.engine] ++ outward) s t)
    ∧ (∀ (v : Nat) (g : FaultKind), 64 ≤ v → v ≤ 4031 → d.state = .fault g → d.validRun = 0 →
      Occurs (.pollComplete l (.raw v)) s fun t =>
        t.detector n = some { d with missed := 0, validRun := 1 } ∧ (∀ m, m ≠ n → t.detector m = s.detector m)
          ∧ OnlyIn ([Piece.loops, .detectors, .log] ++ doorward ++ [Piece.engine] ++ outward) s t)
    ∧ (∀ (v : Nat) (level run : Nat), 64 ≤ v → v ≤ 4031 → ((∃ g, d.state = .fault g) → d.validRun ≠ 0) →
      (s.zone d.zone).testTimer = none → level = readLevel d v → run = readRun (s.cls d.cls) d.taken level →
      ((∀ m e, m ≠ n → s.detector m = some e → e.zone = d.zone → e.state.isVerifying = false) →
        Occurs (.pollComplete l (.raw v)) s (ReadingTaken l n d v level run s))
      ∧ ((∃ m e, m ≠ n ∧ s.detector m = some e ∧ e.zone = d.zone ∧ e.state.isVerifying = true) →
        tableState s d.taken level run ≠ .normal → tableState s d.taken level run ≠ d.state →
        Occurs (.pollComplete l (.raw v)) s (CoincidenceTaken n d level run s)))
    ∧ (∀ (v level run : Nat) (armed : Bool), 64 ≤ v → v ≤ 4031 →
      ((∃ g, d.state = .fault g) → d.validRun ≠ 0) → (s.zone d.zone).testTimer ≠ none →
      level = readLevel d v → run = readRun (s.cls d.cls) d.taken level →
      armed = (match d.state with | .unmonitored | .fault _ => true | _ => d.testArmed.getD false) →
      Occurs (.pollComplete l (.raw v)) s fun t =>
        t.detector n = some { d.taken with
            level := some level, riseRun := run
            testArmed := some (decide (level < (s.thresholdsFor d).pre) || armed && !alarmMet s d level run) }
          ∧ (∀ m, m ≠ n → t.detector m = s.detector m)
          ∧ Logged s t
            (faultClearedEntry s n d ++ activationEntry s n d level (alarmMet s d level run && armed)
              ++ lineClearedEntry s l)
          ∧ (∀ w : Fin 4, (t.wing w).stage = (s.wing w).stage)
          ∧ OnlyIn ([Piece.zones, .wings, .loops, .detectors, .exits, .engine, .log] ++ outward) s t)

/-! ### Timers of wings and zones, and presence -/

/-- VERIFY TIMER EXPIRY, STAGE TIMER EXPIRY and SPREAD TIMER EXPIRY: a detector in VERIFYING
returns to PRE_ALARM when its level is at least the threshold in force, else to NORMAL, with UNCONFIRMED; a return to
PRE_ALARM promotes every other detector of the zone in VERIFYING to ALARM, with its zone and its wing; a wing in ACK_WAIT or
INVESTIGATE enters EVACUATE; every STANDBY wing of the spread list of an evacuating wing enters EVACUATE; and what these
stages bring follows. That the promotion
needs another detector in VERIFYING is the model's reading (log entry 16), and that UNCONFIRMED stands before the promotions
its choice (log entry 35). -/
def Obligations.VerifyStageAndSpreadTimers : Prop :=
  ∀ (s : State) (w : Fin 4),
    (∀ (n : Fin 192) (d : Detector) (v : Nat), s.detector n = some d → d.state = .verifying 0 → d.level = some v →
      (((s.thresholdsFor d).pre ≤ v →
          ∀ m e, m ≠ n → s.detector m = some e → e.zone = d.zone → e.state.isVerifying = false) →
        Occurs (.verifyTimerExpiry n) s fun t =>
          t.detector n = some { d with state := if (s.thresholdsFor d).pre ≤ v then .preAlarm else .normal }
            ∧ (∀ m, m ≠ n → t.detector m = s.detector m)
            ∧ Logged s t
              [{ kind := .unconfirmed, subject := .detector n, wing := some (s.wingOf d.zone), detail := .number v }]
            ∧ PortsQuiet s t ∧ OnlyIn ([Piece.zones, .wings, .detectors, .exits, .engine, .log] ++ outward) s t)
      ∧ ((s.thresholdsFor d).pre ≤ v →
        ∀ m e, m ≠ n → s.detector m = some e → e.zone = d.zone → e.state.isVerifying = true →
        (∀ q f, q < m → q ≠ n → s.detector q = some f → f.zone = d.zone → f.state.isVerifying = false) →
        Occurs (.verifyTimerExpiry n) s fun t =>
          (∃ a, t.detector n = some { d with state := .preAlarm, testArmed := a })
            ∧ (∀ q f, q ≠ n → s.detector q = some f → f.zone = d.zone → f.state.isVerifying = true →
              (∃ a, t.detector q = some { f with state := .alarm, testArmed := a })
                ∧ LoggedAmong s t
                  { kind := .detectorAlarm, subject := .detector q, wing := some (s.wingOf d.zone)
                    detail := .alarmCause .coincidence })
            ∧ (∀ q f, q ≠ n → s.detector q = some f → (f.zone ≠ d.zone ∨ f.state.isVerifying = false) →
              DetectorKept q s t)
            ∧ LoggedFirst s t
              [{ kind := .unconfirmed, subject := .detector n, wing := some (s.wingOf d.zone), detail := .number v }]
            ∧ ((∀ q f, q ≠ n → q ≠ m → s.detector q = some f → f.zone = d.zone → f.state.isVerifying = false) →
              AlarmTaken m d.zone s t)
            ∧ ((∃ q f, q ≠ n ∧ q ≠ m ∧ s.detector q = some f ∧ f.zone = d.zone ∧ f.state.isVerifying = true) →
              (t.wing (s.wingOf d.zone)).stage = .evacuate)
            ∧ StageFollowed (s.wingOf d.zone) s t ∧ SilenceTaken d.zone (.detector m) s t
            ∧ (t.zone d.zone).fire
              = (if (s.zone d.zone).fire.inAlarm then (s.zone d.zone).fire else .alarm (.detector m) s.seconds)
            ∧ PortsQuiet s t ∧ OnlyIn (alarming ++ outward) s t))
    ∧ ((s.wing w).stage = .ackWait 0 →
      Occurs (.stageTimerExpiry w) s fun t => EntersEvacuate w s t ∧ ZonesEvacuated w s t
        ∧ (∀ z, (t.zone z).fire = (s.zone z).fire) ∧ PortsQuiet s t ∧ OnlyIn (evacuating ++ outward) s t
        ∧ LoggedFirst s t
          [{ kind := .stageChange, subject := .wing w, wing := some w, detail := .stage .evacuate .ackTimeout }])
    ∧ ((s.wing w).stage = .investigate 0 →
      Occurs (.stageTimerExpiry w) s fun t => EntersEvacuate w s t ∧ ZonesEvacuated w s t
        ∧ (∀ z, (t.zone z).fire = (s.zone z).fire) ∧ PortsQuiet s t ∧ OnlyIn (evacuating ++ outward) s t
        ∧ LoggedFirst s t
          [{ kind := .stageChange, subject := .wing w, wing := some w, detail := .stage .evacuate .invTimeout }])
    ∧ ((s.wing w).stage = .evacuate → (s.wing w).spreadTimer = some 0 →
      Occurs (.spreadTimerExpiry w) s fun t =>
        (t.wing w).spreadTimer = none ∧ PortsQuiet s t ∧ OnlyIn (evacuating ++ outward) s t ∧ DoorsKept s t
          ∧ ∀ v, (t.wing v).stage
            = (if v ∈ (s.wing w).spreadList ∧ s.atStandby v = true then .evacuate else (s.wing v).stage)
            ∧ (v ∈ (s.wing w).spreadList → s.atStandby v = true →
              LeavesStandby v s t ∧ (∀ z ∈ s.zonesOf v, (t.zone z).egress = true) ∧ LoggedAmong s t
                { kind := .stageChange, subject := .wing v, wing := some v, detail := .stage .evacuate .spread }))

/-- TEST TIMER EXPIRY, VACANCY TIMER EXPIRY and EXIT DELAY EXPIRY: the test ends with cause TIMEOUT; the zone becomes
VACANT without an entry; the zone becomes ARMED. -/
def Obligations.ZoneTimers : Prop :=
  ∀ (s : State) (z : Fin 64), s.engine ≠ .opening →
    ((s.zone z).testTimer = some 0 →
      Occurs (.testTimerExpiry z) s fun t =>
        t.zone z = { s.zone z with testTimer := none } ∧ (∀ y, y ≠ z → t.zone y = s.zone y)
          ∧ (∀ n d, s.detector n = some d →
            t.detector n = some (if d.zone = z then { d with testArmed := none } else d))
          ∧ Logged s t
            [{ kind := .testEnded, subject := .zone z, wing := some (s.wingOf z), detail := .testEnd .timeout }]
          ∧ PortsQuiet s t ∧ OnlyIn ([Piece.zones, .wings, .detectors, .engine, .log] ++ outward) s t)
    ∧ ((s.zone z).vacancyTimer = some 0 →
      Occurs (.vacancyTimerExpiry z) s fun t =>
        t.zone z = { s.zone z with occupancy := .vacant, vacancyTimer := none } ∧ (∀ y, y ≠ z → t.zone y = s.zone y)
          ∧ PortsQuiet s t ∧ OnlyIn ([Piece.zones] ++ doorward ++ outward) s t ∧ DoorsKept s t ∧ ChannelsKept [] s t)
    ∧ ((s.zone z).security = .exitDelay 0 →
      Occurs (.exitDelayExpiry z) s fun t =>
        t.zone z = { s.zone z with security := .armed } ∧ (∀ y, y ≠ z → t.zone y = s.zone y)
          ∧ Logged s t [{ kind := .zoneArmed, subject := .zone z, wing := some (s.wingOf z), detail := .none }]
          ∧ PortsQuiet s t ∧ OnlyIn ([Piece.zones, .wings, .log] ++ doorward ++ outward) s t
          ∧ DoorsKept s t ∧ ChannelsKept [] s t)

/-- PRESENCE INPUT: a configured zone takes a PRESENCE activity by its class; an armed zone is breached, an arming
aborted; an unconfigured zone and a part in CONFIGURING take nothing. -/
def Obligations.PresenceInput : Prop :=
  ∀ (s : State) (z : Fin 64), s.engine ≠ .opening →
    (s.inService = true → (s.zone z).configured = true → (s.zone z).classes.presence ≠ .ignored →
      Occurs (.presenceInput z) s fun t =>
        (t.zone z).security
            = (match (s.zone z).security with
              | .armed => .breach
              | .exitDelay _ => .disarmed
              | x => x)
          ∧ ((s.zone z).classes.presence = .primary →
            (t.zone z).occupancy = .occupied ∧ (t.zone z).vacancyTimer = some (s.zone z).vacancyPeriod
              ∧ (t.zone z).lastPrimary = some { source := .presence, time := s.seconds })
          ∧ ((s.zone z).classes.presence = .secondary →
            (t.zone z).occupancy = (s.zone z).occupancy ∧ (t.zone z).vacancyTimer = (s.zone z).vacancyTimer
              ∧ (t.zone z).lastSecondary = some { source := .presence, time := s.seconds })
          ∧ (∀ y, y ≠ z → t.zone y = s.zone y)
          ∧ Logged s t (match (s.zone z).security with
            | .armed =>
              [{ kind := .breach, subject := .zone z, wing := some (s.wingOf z)
                 detail := .breachSource (.activity .presence) }]
            | .exitDelay _ =>
              [{ kind := .armAborted, subject := .zone z, wing := some (s.wingOf z), detail := .none }]
            | _ => [])
          ∧ PortsQuiet s t ∧ OnlyIn ([Piece.zones, .wings, .log] ++ doorward ++ outward) s t ∧ DoorsKept s t)
    ∧ ((s.inService = false ∨ (s.zone z).configured = false) → exec (.presenceInput z) s = .next s)

/-! ### Doors -/

/-- CONTACT INPUT at a configured door, in service: an opening with right, a forced opening, a closing, a line fault, and
the end of a fault at a closed and at an open contact; a closing that ends an opening with right is a PASSAGE of the
door's side zones. An entry of a door between two wings is appended for both. In CONFIGURING the report is recorded and
the status taken anew from it, without an entry; a report of an unconfigured door is discarded. A report of the state the
input already holds changes nothing. That every fault sets the fault reported flag is the model's reading (log entry 37),
and so are DOOR_FORCED before DOOR_FAULT_CLEARED where a door leaves FAULT (log entry 21), the not-closed timer loaded where
the contact becomes OPEN without an opening (log entry 58), and a counting grant that a door in FAULT, leaving FAULT or closing
keeps (log entry 59). -/
def Obligations.ContactInput : Prop :=
  (∀ (s : State) (n : Fin 48) (r : Contact), s.engine ≠ .opening → s.inService = false → (s.door n).configured = true →
    (s.door n).contact ≠ r →
      Occurs (.contactInput n r) s fun t =>
        t.door n = { s.door n with
            contact := r
            status := if r = .lineFault ∨ (s.channel (doorChannel n)).lineFault = true then .fault
              else if r = .opened then .openAuthorised
              else closedStatus (s.door n).kind (s.channel (doorChannel n)).effective }
          ∧ (∀ m, m ≠ n → t.door m = s.door m) ∧ PortsQuiet s t ∧ OnlyIn ([Piece.doors] ++ outward) s t)
  ∧ (∀ (s : State) (n : Fin 48) (r : Contact), (s.door n).configured = false →
    exec (.contactInput n r) s = .next s)
  ∧ ∀ (s : State) (n : Fin 48), Settled s → s.inService = true → (s.door n).configured = true →
    ((s.door n).status ≠ .fault → (s.door n).contact = .closed →
      (s.door n).withRight (s.channel (doorChannel n)).effective = true →
      Occurs (.contactInput n .opened) s fun t =>
        (t.door n).contact = .opened ∧ (t.door n).status = .openAuthorised
          ∧ (t.door n).heldTimer = (if (s.door n).kind = .fireHold then none else some (s.door n).tHeld)
          ∧ (t.door n).rex = (if (s.door n).rex = none then none else some .opened)
          ∧ (t.door n).pass = (if (s.door n).pass = none then none else some .opened)
          ∧ NotClosedLoaded n s t
          ∧ (∀ z ∈ (s.door n).sides, (s.zone z).security = .armed → (t.zone z).security = .breach)
          ∧ PortsQuiet s t ∧ ContactFrame n s t)
    ∧ ((s.door n).status ≠ .fault → (s.door n).contact = .closed →
      (s.door n).withRight (s.channel (doorChannel n)).effective = false →
      Occurs (.contactInput n .opened) s fun t =>
        (t.door n).contact = .opened ∧ (t.door n).status = .forced
          ∧ LoggedFirst s t
            (doorEntries s n .doorForced (.forcedCause .opened))
          ∧ (∀ z ∈ (s.door n).sides, (s.zone z).security = .armed → (t.zone z).security = .breach)
          ∧ PortsQuiet s t ∧ ContactFrame n s t)
    ∧ ((s.door n).status ≠ .fault → (s.door n).contact = .opened →
      Occurs (.contactInput n .closed) s fun t =>
        (t.door n).contact = .closed ∧ (t.door n).heldTimer = none ∧ (t.door n).notClosedTimer = none
          ∧ (t.door n).notClosedReported = false
          ∧ (t.door n).rex = (if (s.door n).rex = some .opened then none else (s.door n).rex)
          ∧ (t.door n).pass = (if (s.door n).pass = some .opened then none else (s.door n).pass)
          ∧ (t.door n).status
            = (if (s.door n).kind = .fireHold ∨ (t.channel (doorChannel n)).effective = .unlock then .closedUnlocked
              else .closedLocked)
          ∧ ((s.door n).status = .forced → Logged s t (doorEntries s n .doorRestored .none))
          ∧ ((s.door n).status = .forced → t.zones = s.zones)
          ∧ ((s.door n).status = .openAuthorised ∨ (s.door n).status = .openHeld →
            ∀ z : Fin 64, t.zone z = (if z ∈ (s.door n).sides ∧ (s.zone z).configured = true then
              (match (s.zone z).classes.passage with
                | .ignored => s.zone z
                | .primary => { s.zone z with
                    occupancy := .occupied, vacancyTimer := some (s.zone z).vacancyPeriod
                    lastPrimary := some { source := .passage, time := s.seconds }
                    security := if (s.zone z).security = .armed then .breach else (s.zone z).security }
                | .secondary => { s.zone z with
                    lastSecondary := some { source := .passage, time := s.seconds }
                    security := if (s.zone z).security = .armed then .breach else (s.zone z).security })
              else s.zone z))
          ∧ PortsQuiet s t ∧ ContactFrame n s t)
    ∧ ((s.door n).contact ≠ .lineFault →
      Occurs (.contactInput n .lineFault) s fun t =>
        (t.door n).contact = .lineFault ∧ (t.door n).status = .fault ∧ (t.door n).heldTimer = none
          ∧ (t.door n).faultReported = true ∧ GrantsKept n s t
          ∧ ((s.door n).expectedToClose = true → (t.door n).notClosedTimer = none)
          ∧ Logged s t (doorEntries s n .doorFault (.doorFaultCause .contact))
          ∧ PortsQuiet s t ∧ ContactFrame n s t)
    ∧ ((s.door n).status = .fault → (s.door n).contact ≠ .closed → (s.channel (doorChannel n)).lineFault = false →
      Occurs (.contactInput n .closed) s fun t =>
        (t.door n).contact = .closed ∧ (t.door n).faultReported = false ∧ (t.door n).notClosedTimer = none
          ∧ (t.door n).notClosedReported = false
          ∧ (t.door n).rex = (if (s.door n).rex = some .opened then none else (s.door n).rex)
          ∧ (t.door n).pass = (if (s.door n).pass = some .opened then none else (s.door n).pass)
          ∧ (t.door n).status
            = (if (s.door n).kind = .fireHold ∨ (t.channel (doorChannel n)).effective = .unlock then .closedUnlocked
              else .closedLocked)
          ∧ Logged s t (if (s.door n).faultReported then doorEntries s n .doorFaultCleared .none else [])
          ∧ PortsQuiet s t ∧ ContactFrame n s t)
    ∧ ((s.door n).status = .fault → (s.door n).contact ≠ .opened → (s.channel (doorChannel n)).lineFault = false →
      Occurs (.contactInput n .opened) s fun t =>
        (t.door n).contact = .opened ∧ (t.door n).faultReported = false ∧ GrantsKept n s t ∧ NotClosedLoaded n s t
          ∧ ((s.door n).withRight (s.channel (doorChannel n)).effective = true →
            (t.door n).status = .openAuthorised ∧ t.zones = s.zones
              ∧ (t.door n).heldTimer = (if (s.door n).kind = .fireHold then none else some (s.door n).tHeld)
              ∧ Logged s t (if (s.door n).faultReported then doorEntries s n .doorFaultCleared .none else []))
          ∧ ((s.door n).withRight (s.channel (doorChannel n)).effective = false →
            (t.door n).status = .forced
              ∧ (∀ z ∈ (s.door n).sides, (s.zone z).security = .armed → (t.zone z).security = .breach)
              ∧ LoggedFirst s t (doorEntries s n .doorForced (.forcedCause .faultCleared))
              ∧ ((s.door n).faultReported = true → LoggedRun s t (doorEntries s n .doorFaultCleared .none)))
          ∧ PortsQuiet s t ∧ ContactFrame n s t)
    ∧ (∀ r, (s.door n).status = .fault → (s.channel (doorChannel n)).lineFault = true → r ≠ .lineFault →
      (s.door n).contact ≠ r →
      Occurs (.contactInput n r) s fun t =>
        (t.door n).contact = r ∧ (t.door n).status = .fault ∧ GrantsKept n s t
          ∧ (t.door n).notClosedReported = (s.door n).notClosedReported
          ∧ (r = .opened → NotClosedLoaded n s t)
          ∧ (r = .closed → (s.door n).expectedToClose = true → (t.door n).notClosedTimer = none)
          ∧ Logged s t [] ∧ PortsQuiet s t ∧ ContactFrame n s t)
    ∧ (∀ r, (s.door n).contact = r → exec (.contactInput n r) s = .next s)

/-- HELD TIMER EXPIRY, NOT CLOSED TIMER EXPIRY, REX PRESS, REX GRANT EXPIRY and PASS GRANT EXPIRY at a configured
door in service, their entries appended for both wings of a door between two. -/
def Obligations.DoorTimersAndGrants : Prop :=
  ∀ (s : State) (n : Fin 48), s.engine ≠ .opening → s.inService = true → (s.door n).configured = true →
    ((s.door n).status = .openAuthorised → (s.door n).heldTimer = some 0 →
      ((s.wing (s.doorWing n)).mode ≠ .openHours ∧ (s.door n).claims = 0 ∧ (s.wing (s.doorWing n)).stage ≠ .evacuate →
        Occurs (.heldTimerExpiry n) s fun t =>
          t.door n = { s.door n with status := .openHeld, heldTimer := none } ∧ (∀ m, m ≠ n → t.door m = s.door m)
            ∧ Logged s t (doorEntries s n .doorHeld (.number (s.door n).tHeld))
            ∧ PortsQuiet s t ∧ OnlyIn ([Piece.doors, .wings, .log] ++ outward) s t)
      ∧ ((s.wing (s.doorWing n)).mode = .openHours ∨ (s.door n).claims ≠ 0
          ∨ (s.wing (s.doorWing n)).stage = .evacuate →
        Occurs (.heldTimerExpiry n) s fun t =>
          t.door n = { s.door n with heldTimer := some (s.door n).tHeld } ∧ (∀ m, m ≠ n → t.door m = s.door m)
            ∧ PortsQuiet s t ∧ OnlyIn ([Piece.doors] ++ outward) s t))
    ∧ ((s.door n).notClosedTimer = some 0 →
      Occurs (.notClosedTimerExpiry n) s fun t =>
        t.door n = { s.door n with notClosedTimer := none, notClosedReported := true }
          ∧ (∀ m, m ≠ n → t.door m = s.door m)
          ∧ Logged s t (doorEntries s n .doorNotClosed .none)
          ∧ PortsQuiet s t ∧ OnlyIn ([Piece.doors, .wings, .log] ++ outward) s t)
    ∧ Occurs (.rexPress n) s (fun t =>
        (t.door n).rex
            = (if (s.door n).contact = .opened ∨ (s.door n).rex = some .opened then some .opened
              else some (.counting (s.door n).tPass))
          ∧ (t.door n).pass = (s.door n).pass ∧ (t.door n).contact = (s.door n).contact
          ∧ (∀ m, m ≠ n → t.door m = s.door m)
          ∧ PortsQuiet s t ∧ OnlyIn (doorward ++ outward) s t ∧ ChannelsKept [] s t)
    ∧ ((s.door n).rex = some (.counting 0) →
      Occurs (.rexGrantExpiry n) s fun t =>
        (t.door n).rex = none ∧ (t.door n).pass = (s.door n).pass ∧ (∀ m, m ≠ n → t.door m = s.door m)
          ∧ PortsQuiet s t ∧ OnlyIn (doorward ++ outward) s t ∧ ChannelsKept [] s t)
    ∧ ((s.door n).pass = some (.counting 0) →
      Occurs (.passGrantExpiry n) s fun t =>
        (t.door n).pass = none ∧ (t.door n).rex = (s.door n).rex ∧ (∀ m, m ≠ n → t.door m = s.door m)
          ∧ PortsQuiet s t ∧ OnlyIn (doorward ++ outward) s t ∧ ChannelsKept [] s t)

/-! ### Call points, routes and channels -/

/-- CALL POINT INPUT and OFFER TIMER EXPIRY: a help press raises a call or is counted, a fire call latches its point
and evacuates the wing with all that this brings or resounds it, a RESTORED input is recorded, and an offer that runs out
lapses with CALL_ESCALATED. Where the call queue and the desks are sound, a first press is offered at once at the first
candidate desk that qualifies, with that desk's T_offer and CALL_OFFER, and waits with its next desk unchanged where none
does; a call whose offer has lapsed likewise, from its next place on, where no other call waits for the desk. -/
def Obligations.CallPointsAndOffers : Prop :=
  ∀ (s : State) (c : Fin 64), s.inService = true → s.engine ≠ .opening →
    ((s.point c).configured = true → (s.point c).input = .restored → (s.point c).kind = .help →
      (s.point c).state = .idle →
      Occurs (.callPointInput c .pressed) s fun t =>
        (∃ h, t.call c = some h ∧ h.presses = 1 ∧ h.firstPress = s.seconds
            ∧ h.priority = (if s.evacuating (s.wingOf (s.point c).zone) then .evacAssist else .normal))
          ∧ (t.point c).input = .pressed ∧ (t.point c).lamp = .flash ∧ c ∈ t.callQueue
          ∧ (t.zone (s.point c).zone).activeCalls = (s.zone (s.point c).zone).activeCalls + 1
          ∧ LoggedFirst s t
            [{ kind := .callRaised, subject := .point c, wing := some (s.wingOf (s.point c).zone)
               detail := .priority (if s.evacuating (s.wingOf (s.point c).zone) then .evacAssist else .normal) }]
          ∧ (∀ h : HelpCall, CallsOk s →
            h = { presses := 1, firstPress := s.seconds
                  priority := if s.evacuating (s.wingOf (s.point c).zone) then .evacAssist else .normal
                  next := if s.evacuating (s.wingOf (s.point c).zone) then .evac else .position 1
                  phase := .raised } →
            (∀ p k, FirstCandidate s c h p k →
              OfferMade s t c h p k ∧ (t.desk k).offered = (s.desk k).offered ++ [c] ∧ ∀ j, j ≠ k → t.desk j = s.desk j)
            ∧ ((∀ p ∈ callPlaces s c h, placeQualifies s c p = false) → t.call c = some h ∧ t.desks = s.desks))
          ∧ PortsQuiet s t ∧ OnlyIn ([Piece.points, .callQueue, .desks] ++ entering ++ outward) s t ∧ DoorsKept s t)
    ∧ ((s.point c).configured = true → (s.point c).input = .restored → (s.point c).kind = .fire →
      (s.point c).state = .idle →
      Occurs (.callPointInput c .pressed) s fun t =>
        (t.point c).state = .latched ∧ (t.point c).input = .pressed ∧ (t.point c).lamp = .steady
          ∧ (t.zone (s.point c).zone).fire
            = (if (s.zone (s.point c).zone).fire.inAlarm then (s.zone (s.point c).zone).fire
              else .alarm (.manualCall c) s.seconds)
          ∧ (t.wing (s.wingOf (s.point c).zone)).stage = .evacuate
          ∧ LoggedFirst s t
            ({ kind := .fireCall, subject := .point c, wing := some (s.wingOf (s.point c).zone), detail := .none } ::
              (if (s.zone (s.point c).zone).fire.inAlarm then [] else
                [{ kind := .zoneAlarm, subject := .zone (s.point c).zone, wing := some (s.wingOf (s.point c).zone)
                   detail := .origin (.manualCall c) }]))
          ∧ ((s.wing (s.wingOf (s.point c).zone)).stage ≠ .evacuate →
            EntersEvacuate (s.wingOf (s.point c).zone) s t ∧ ZonesEvacuated (s.wingOf (s.point c).zone) s t)
          ∧ SilenceTaken (s.point c).zone (.manualCall c) s t
          ∧ PortsQuiet s t ∧ OnlyIn (alarming ++ outward) s t ∧ DoorsKept s t)
    ∧ (∀ h, (s.point c).configured = true → (s.point c).input = .restored → (s.point c).kind = .help →
      s.call c = some h →
      Occurs (.callPointInput c .pressed) s fun t =>
        t.call c = some { h with
            presses := min (h.presses + 1) 255
            priority := if h.presses = 2 ∧ h.priority = .normal then .urgent else h.priority }
          ∧ (t.point c).input = .pressed ∧ (t.point c).lamp = (s.point c).lamp ∧ t.desks = s.desks
          ∧ (h.presses = 2 ∧ h.priority = .normal → LoggedFirst s t
            [{ kind := .callPriority, subject := .point c, wing := some (s.wingOf (s.point c).zone)
               detail := .priorityCause .urgent .presses }])
          ∧ PortsQuiet s t ∧ OnlyIn ([Piece.points, .callQueue, .desks] ++ entering ++ outward) s t ∧ DoorsKept s t)
    ∧ ((s.point c).configured = true → (s.point c).input = .pressed →
      Occurs (.callPointInput c .restored) s fun t =>
        t.point c = { s.point c with input := .restored } ∧ (∀ y, y ≠ c → t.point y = s.point y)
          ∧ Logged s t (if (s.point c).kind = .fire then
            [{ kind := .callPointRestored, subject := .point c, wing := some (s.wingOf (s.point c).zone)
               detail := .none }] else [])
          ∧ PortsQuiet s t ∧ OnlyIn ([Piece.points, .wings, .log] ++ outward) s t)
    ∧ (∀ x, ((s.point c).configured = false ∨ (s.point c).input = x) → exec (.callPointInput c x) s = .next s)
    ∧ (∀ h k, s.call c = some h → h.phase = .offered k 0 →
      Occurs (.offerTimerExpiry c) s fun t =>
        (∃ g, t.call c = some g ∧ g.presses = h.presses ∧ g.firstPress = h.firstPress
            ∧ g.priority
              = (if isLastPlace (s.point c).deskList.length h.next = true ∧ h.priority = .normal then .urgent
                else h.priority))
          ∧ LoggedFirst s t
            [{ kind := .callEscalated, subject := .point c, wing := some (s.wingOf (s.point c).zone)
               detail := .deskPriority k
                (if isLastPlace (s.point c).deskList.length h.next = true ∧ h.priority = .normal then .urgent
                  else h.priority) }]
          ∧ (∀ (u : State) (g : HelpCall), CallsOk s →
            u = s.modDesk k (fun d => { d with offered := d.offered.filter fun x => decide (x ≠ c) }) →
            g = { h with
                priority := if isLastPlace (s.point c).deskList.length h.next = true ∧ h.priority = .normal then .urgent
                  else h.priority
                next := placeFollowing s c h, phase := .raised } →
            (s.callQueue.find? (waitsFor s k) = none →
              (∀ p j, FirstCandidate u c g p j →
                OfferMade s t c g p j ∧ (t.desk j).offered = (u.desk j).offered ++ [c])
              ∧ ((∀ p ∈ callPlaces s c g, placeQualifies u c p = false) → t.call c = some g ∧ t.desks = u.desks))
            ∧ (∀ d, deskReached s k = true → s.callQueue.find? (waitsFor s k) = some d → CallStandsBefore t d c →
              FirstWaitingOffered k s t))
          ∧ PortsQuiet s t ∧ OnlyIn ([Piece.points, .callQueue, .desks, .wings, .log] ++ outward) s t)

/-- SELECTION PASS END: every zone that has egress in the pass's view takes the first CLEAR route of its list, else the
first PASSABLE one, else its no-route flag, with NO_ROUTE or ROUTE_FOUND where the flag changes; the transit counts, the
signs, the egress lights and the claim counts of the doors follow; a zone with a transit count above 0 is SUSPENDED where it
was armed or in its exit delay, and a SUSPENDED zone with none is restored where its wing is in STANDBY, each with its entry;
the engine rests, or starts the repeat pass, whose view is of the state that the pass end leaves. That a count of 0 restores
a zone also where it did not change is the model's reading (log entry 32). -/
def Obligations.SelectionPassEnd : Prop :=
  ∀ (s : State) (v : View) (again : Bool), s.engine = .passing v again →
    Occurs .selectionPassEnd s fun t =>
      (again = false → t.engine = .idle) ∧ (again = true → t.engine = .passing (takeView t) false)
        ∧ (∀ z : Fin 64, v.leaves z = false →
          (t.zone z).selected = none ∧ (t.zone z).grade = none ∧ (t.zone z).noRoute = false)
        ∧ (∀ z : Fin 64, v.leaves z = true →
          (t.zone z).routeGrades = (gradedRoutes s v z).map (fun r => r.grade)
            ∧ RouteSelected (gradedRoutes s v z) (t.zone z)
            ∧ ((t.zone z).noRoute = true ↔ ∀ r ∈ gradedRoutes s v z, r.grade = .blocked)
            ∧ ((s.zone z).noRoute = false → (t.zone z).noRoute = true →
              LoggedAmong s t { kind := .noRoute, subject := .zone z, wing := some (s.wingOf z), detail := .none })
            ∧ (∀ i g, (s.zone z).noRoute = true → (t.zone z).selected = some i → (t.zone z).grade = some g →
              LoggedAmong s t
                { kind := .routeFound, subject := .zone z, wing := some (s.wingOf z), detail := .route i g }))
        ∧ (∀ z : Fin 64, (t.zone z).transit = transitCount (selections (gradedZones s v)) z)
        ∧ (∀ g : Fin 96, (s.sign g).configured = true →
          SignSettled (selections (gradedZones s v))
            (v.leaves (s.sign g).home && (t.zone (s.sign g).home).noRoute) g t)
        ∧ (∀ g : Fin 96, (s.sign g).configured = false → t.sign g = s.sign g)
        ∧ (∀ n : Fin 48, (t.door n).claims = claimCount s v (selections (gradedZones s v)) n)
        ∧ (∀ z : Fin 64, (t.channel (lightChannel z)).source
          = (if (s.zone z).configured && ((v.zones.get z).egress || decide (0 < (t.zone z).transit)) then .on else .off))
        ∧ (∀ z : Fin 64, t.zone z = { s.zone z with
            selected := (t.zone z).selected, grade := (t.zone z).grade, noRoute := (t.zone z).noRoute
            routeGrades := (t.zone z).routeGrades, transit := (t.zone z).transit
            security := if 0 < (t.zone z).transit then suspendedSecurity (s.zone z).security
              else if s.atStandby (s.wingOf z) then restoredSecurity (s.zone z) else (s.zone z).security })
        ∧ (∀ z : Fin 64,
          (0 < (t.zone z).transit → ∀ x ∈ suspendEntry s z .transit, LoggedAmong s t x)
            ∧ ((t.zone z).transit = 0 → s.atStandby (s.wingOf z) = true →
              ∀ x ∈ restoreEntry s z, LoggedAmong s t x))
        ∧ PortsQuiet s t
        ∧ OnlyIn ([Piece.zones, .wings, .signs, .doors, .channels, .engine, .log] ++ outward) s t

/-- CHANNEL LINE REPORT: a change of a channel's line fault flag is recorded, in service with its entry; on a channel
that is no DOOR channel nothing else changes, and a report that matches the flag changes nothing. In service a configured
door enters FAULT when the flag of its channel sets, and leaves FAULT when it clears, by its contact, with entries for both
wings of a door between two. In CONFIGURING the status of a configured door is taken anew, without an entry. That every fault
sets the fault reported flag is the model's reading (log entry 37), and that the channel's entry stands before the door's its
choice (log entry 43). -/
def Obligations.ChannelLineReport : Prop :=
  ∀ (s : State) (n : Fin 276) (r : LineReport), s.engine ≠ .opening →
    ((s.channel n).lineFault ≠ saysFaulty r →
      Occurs (.channelLineReport n r) s fun t =>
        (t.channel n).lineFault = saysFaulty r ∧ (t.channel n).latch = (s.channel n).latch
          ∧ (t.channel n).drive = (s.channel n).drive
          ∧ (s.inService = true → LoggedFirst s t
            [{ kind := if saysFaulty r then .channelFault else .channelFaultCleared, subject := .channel n
               wing := (s.channel n).wing, detail := .none }])
          ∧ (s.inService = false → Logged s t [])
          ∧ (48 ≤ n.val → t.channel n = { s.channel n with lineFault := saysFaulty r }
            ∧ (∀ m, m ≠ n → t.channel m = s.channel m)
            ∧ OnlyIn ([Piece.channels, .wings, .log] ++ outward) s t)
          ∧ (∀ m, m ≠ n → (t.channel m).kept = (s.channel m).kept)
          ∧ PortsQuiet s t ∧ OnlyIn (entering ++ outward) s t)
    ∧ (∀ k : Fin 48, n = doorChannel k → s.inService = true → (s.door k).configured = true →
      ((s.channel n).lineFault = false → r = .lineFault →
        Occurs (.channelLineReport n r) s fun t =>
          (t.door k).status = .fault ∧ (t.door k).heldTimer = none ∧ (t.door k).faultReported = true
            ∧ LoggedFirst s t
              ({ kind := .channelFault, subject := .channel n, wing := (s.channel n).wing, detail := .none }
                :: doorEntries s k .doorFault (.doorFaultCause .channel))
            ∧ (∀ m, m ≠ k → (t.door m).kept = (s.door m).kept))
      ∧ ((s.channel n).lineFault = true → r = .lineOk → (s.door k).status = .fault →
        Occurs (.channelLineReport n r) s fun t =>
          ((s.door k).contact = .lineFault → (t.door k).status = .fault)
            ∧ ((s.door k).contact = .closed →
              (t.door k).status = closedStatus (s.door k).kind (t.channel n).effective)
            ∧ ((s.door k).contact = .opened → (s.door k).withRight (s.channel n).effective = true →
              (t.door k).status = .openAuthorised
                ∧ (t.door k).heldTimer = (if (s.door k).kind = .fireHold then none else some (s.door k).tHeld))
            ∧ ((s.door k).contact = .opened → (s.door k).withRight (s.channel n).effective = false →
              (t.door k).status = .forced
                ∧ (∀ z ∈ (s.door k).sides, (s.zone z).security = .armed → (t.zone z).security = .breach)
                ∧ LoggedRun s t (doorEntries s k .doorForced (.forcedCause .faultCleared)))
            ∧ ((s.door k).contact ≠ .lineFault → (t.door k).faultReported = false
              ∧ ((s.door k).faultReported = true → LoggedRun s t (doorEntries s k .doorFaultCleared .none)))
            ∧ (∀ m, m ≠ k → (t.door m).kept = (s.door m).kept)))
    ∧ (∀ k : Fin 48, n = doorChannel k → s.inService = false → (s.door k).configured = true →
      (s.channel n).lineFault ≠ saysFaulty r →
        Occurs (.channelLineReport n r) s fun t =>
          t.door k = { s.door k with
              status := if saysFaulty r = true ∨ (s.door k).contact = .lineFault then .fault
                else if (s.door k).contact = .opened then .openAuthorised
                else closedStatus (s.door k).kind (s.channel n).effective }
            ∧ (∀ m, m ≠ k → t.door m = s.door m) ∧ OnlyIn ([Piece.doors, .channels] ++ outward) s t)
    ∧ ((s.channel n).lineFault = saysFaulty r → exec (.channelLineReport n r) s = .next s)
end

