-- ==== Sys2Proof/Laws/Tables.lean ====
section
/-! SUPPORT. What a record table answers after each of its operations. -/

set_option autoImplicit false

namespace Sys2Proof.Tbl

variable {n : Nat} {α β : Type}

/-- Two tables are equal when every record is. -/
theorem ext_get {t u : Tbl n α} (h : ∀ i, t.get i = u.get i) : t = u := by
  cases t with
  | mk xs hx =>
    cases u with
    | mk ys hy =>
      simp only [Tbl.mk.injEq]
      apply List.ext_getElem (by omega)
      intro i h1 h2
      exact h ⟨i, by omega⟩

@[simp] theorem get_fill (a : α) (i : Fin n) : (fill n a).get i = a := by simp [fill, get]

@[simp] theorem get_tabulate (f : Fin n → α) (i : Fin n) : (tabulate f).get i = f i := by simp [tabulate, get]

@[simp] theorem get_set_self (t : Tbl n α) (i : Fin n) (a : α) : (t.set i a).get i = a := by simp [set, get]

/-- A write leaves every other record alone. -/
theorem get_set_ne (t : Tbl n α) {i j : Fin n} (a : α) (h : j ≠ i) : (t.set i a).get j = t.get j := by
  have : i.val ≠ j.val := fun e => h (Fin.ext e.symm)
  simp [set, get, List.getElem_set_ne this]

/-- Every record after a write. -/
theorem get_set (t : Tbl n α) (i j : Fin n) (a : α) : (t.set i a).get j = if j = i then a else t.get j := by
  by_cases h : j = i
  · subst h; simp
  · simp [h, get_set_ne t a h]

/-- Writing what a record holds changes nothing. -/
@[simp] theorem set_get_self (t : Tbl n α) (i : Fin n) : t.set i (t.get i) = t :=
  ext_get fun j => by rw [get_set]; split <;> simp_all

@[simp] theorem get_modify_self (t : Tbl n α) (i : Fin n) (f : α → α) : (t.modify i f).get i = f (t.get i) :=
  get_set_self t i _

/-- A change of one record leaves every other record alone. -/
theorem get_modify_ne (t : Tbl n α) {i j : Fin n} (f : α → α) (h : j ≠ i) : (t.modify i f).get j = t.get j :=
  get_set_ne t _ h

/-- Every record after a change of one. -/
theorem get_modify (t : Tbl n α) (i j : Fin n) (f : α → α) :
    (t.modify i f).get j = if j = i then f (t.get j) else t.get j := by
  rw [modify, get_set]
  split <;> simp_all

@[simp] theorem get_map (t : Tbl n α) (f : α → β) (i : Fin n) : (t.map f).get i = f (t.get i) := by simp [map, get]

@[simp] theorem get_mapIdx (t : Tbl n α) (f : Fin n → α → β) (i : Fin n) : (t.mapIdx f).get i = f i (t.get i) := by
  simp [mapIdx, get]

/-- The numbers that `indices` lists are those of the records that satisfy `p`. -/
@[simp] theorem mem_indices (t : Tbl n α) (p : Fin n → α → Bool) (i : Fin n) :
    i ∈ t.indices p ↔ p i (t.get i) = true := by
  simp only [indices, List.mem_filterMap, Option.ite_none_right_eq_some, Option.some.injEq]
  constructor
  · rintro ⟨⟨j, a⟩, hm, hp, rfl⟩
    obtain ⟨k, hk, he⟩ := List.mem_iff_getElem.mp hm
    simp only [List.getElem_zip, List.getElem_finRange, Prod.mk.injEq] at he
    obtain ⟨rfl, rfl⟩ := he
    exact hp
  · intro hp
    refine ⟨(i, t.get i), List.mem_iff_getElem.mpr ⟨i.val, ?_, ?_⟩, hp, rfl⟩
    · simp [t.size_eq]
    · simp [get]

end Sys2Proof.Tbl
end

