-- ==== Sys2Proof/Laws/State.lean ====
section
/-! SUPPORT. One lemma for each field and each read of the state after each change of a record. -/

set_option autoImplicit false

namespace Sys2Proof.Machine.State

variable (s : State)

/-! ### modZone -/

@[simp] theorem modZone_part (i : Fin 64) (f : Zone → Zone) : (s.modZone i f).part = s.part := rfl
@[simp] theorem modZone_seconds (i : Fin 64) (f : Zone → Zone) : (s.modZone i f).seconds = s.seconds := rfl
@[simp] theorem modZone_wings (i : Fin 64) (f : Zone → Zone) : (s.modZone i f).wings = s.wings := rfl
@[simp] theorem modZone_loops (i : Fin 64) (f : Zone → Zone) : (s.modZone i f).loops = s.loops := rfl
@[simp] theorem modZone_scanLists (i : Fin 64) (f : Zone → Zone) : (s.modZone i f).scanLists = s.scanLists := rfl
@[simp] theorem modZone_converterA (i : Fin 64) (f : Zone → Zone) : (s.modZone i f).converterA = s.converterA := rfl
@[simp] theorem modZone_converterB (i : Fin 64) (f : Zone → Zone) : (s.modZone i f).converterB = s.converterB := rfl
@[simp] theorem modZone_classes (i : Fin 64) (f : Zone → Zone) : (s.modZone i f).classes = s.classes := rfl
@[simp] theorem modZone_detectors (i : Fin 64) (f : Zone → Zone) : (s.modZone i f).detectors = s.detectors := rfl
@[simp] theorem modZone_doors (i : Fin 64) (f : Zone → Zone) : (s.modZone i f).doors = s.doors := rfl
@[simp] theorem modZone_points (i : Fin 64) (f : Zone → Zone) : (s.modZone i f).points = s.points := rfl
@[simp] theorem modZone_callQueue (i : Fin 64) (f : Zone → Zone) : (s.modZone i f).callQueue = s.callQueue := rfl
@[simp] theorem modZone_desks (i : Fin 64) (f : Zone → Zone) : (s.modZone i f).desks = s.desks := rfl
@[simp] theorem modZone_exits (i : Fin 64) (f : Zone → Zone) : (s.modZone i f).exits = s.exits := rfl
@[simp] theorem modZone_descriptors (i : Fin 64) (f : Zone → Zone) : (s.modZone i f).descriptors = s.descriptors := rfl
@[simp] theorem modZone_routeLists (i : Fin 64) (f : Zone → Zone) : (s.modZone i f).routeLists = s.routeLists := rfl
@[simp] theorem modZone_signs (i : Fin 64) (f : Zone → Zone) : (s.modZone i f).signs = s.signs := rfl
@[simp] theorem modZone_engine (i : Fin 64) (f : Zone → Zone) : (s.modZone i f).engine = s.engine := rfl
@[simp] theorem modZone_channels (i : Fin 64) (f : Zone → Zone) : (s.modZone i f).channels = s.channels := rfl
@[simp] theorem modZone_log (i : Fin 64) (f : Zone → Zone) : (s.modZone i f).log = s.log := rfl
@[simp] theorem modZone_nextSequence (i : Fin 64) (f : Zone → Zone) : (s.modZone i f).nextSequence = s.nextSequence := rfl
@[simp] theorem modZone_routing (i : Fin 64) (f : Zone → Zone) : (s.modZone i f).routing = s.routing := rfl
@[simp] theorem modZone_authority (i : Fin 64) (f : Zone → Zone) : (s.modZone i f).authority = s.authority := rfl
@[simp] theorem modZone_ports (i : Fin 64) (f : Zone → Zone) : (s.modZone i f).ports = s.ports := rfl
@[simp] theorem modZone_rotation (i : Fin 64) (f : Zone → Zone) : (s.modZone i f).rotation = s.rotation := rfl
@[simp] theorem modZone_fireBurst (i : Fin 64) (f : Zone → Zone) : (s.modZone i f).fireBurst = s.fireBurst := rfl
@[simp] theorem modZone_lastQuery (i : Fin 64) (f : Zone → Zone) : (s.modZone i f).lastQuery = s.lastQuery := rfl
@[simp] theorem modZone_fieldOut (i : Fin 64) (f : Zone → Zone) : (s.modZone i f).fieldOut = s.fieldOut := rfl
@[simp] theorem modZone_stationOut (i : Fin 64) (f : Zone → Zone) : (s.modZone i f).stationOut = s.stationOut := rfl
@[simp] theorem modZone_pending (i : Fin 64) (f : Zone → Zone) : (s.modZone i f).pending = s.pending := rfl
@[simp] theorem wing_modZone (i : Fin 64) (f : Zone → Zone) (j : Fin 4) : (s.modZone i f).wing j = s.wing j := rfl
@[simp] theorem loop_modZone (i : Fin 64) (f : Zone → Zone) (j : Fin 4) : (s.modZone i f).loop j = s.loop j := rfl
@[simp] theorem detector_modZone (i : Fin 64) (f : Zone → Zone) (j : Fin 192) : (s.modZone i f).detector j = s.detector j := rfl
@[simp] theorem cls_modZone (i : Fin 64) (f : Zone → Zone) (j : Fin 8) : (s.modZone i f).cls j = s.cls j := rfl
@[simp] theorem door_modZone (i : Fin 64) (f : Zone → Zone) (j : Fin 48) : (s.modZone i f).door j = s.door j := rfl
@[simp] theorem point_modZone (i : Fin 64) (f : Zone → Zone) (j : Fin 64) : (s.modZone i f).point j = s.point j := rfl
@[simp] theorem desk_modZone (i : Fin 64) (f : Zone → Zone) (j : Fin 8) : (s.modZone i f).desk j = s.desk j := rfl
@[simp] theorem exit_modZone (i : Fin 64) (f : Zone → Zone) (j : Fin 16) : (s.modZone i f).exit j = s.exit j := rfl
@[simp] theorem sign_modZone (i : Fin 64) (f : Zone → Zone) (j : Fin 96) : (s.modZone i f).sign j = s.sign j := rfl
@[simp] theorem channel_modZone (i : Fin 64) (f : Zone → Zone) (j : Fin 276) : (s.modZone i f).channel j = s.channel j := rfl
@[simp] theorem port_modZone (i : Fin 64) (f : Zone → Zone) (j : Station) : (s.modZone i f).port j = s.port j := rfl
theorem zone_modZone (i : Fin 64) (f : Zone → Zone) (j : Fin 64) :
    (s.modZone i f).zone j = if j = i then f (s.zone j) else s.zone j := Tbl.get_modify ..
@[simp] theorem zone_modZone_self (i : Fin 64) (f : Zone → Zone) : (s.modZone i f).zone i = f (s.zone i) := Tbl.get_modify_self ..
@[simp] theorem slot_modZone (i : Fin 64) (f : Zone → Zone) (l : Fin 4) (m : Fin 48) : (s.modZone i f).slot l m = s.slot l m := rfl

/-! ### modWing -/

@[simp] theorem modWing_part (i : Fin 4) (f : Wing → Wing) : (s.modWing i f).part = s.part := rfl
@[simp] theorem modWing_seconds (i : Fin 4) (f : Wing → Wing) : (s.modWing i f).seconds = s.seconds := rfl
@[simp] theorem modWing_zones (i : Fin 4) (f : Wing → Wing) : (s.modWing i f).zones = s.zones := rfl
@[simp] theorem modWing_loops (i : Fin 4) (f : Wing → Wing) : (s.modWing i f).loops = s.loops := rfl
@[simp] theorem modWing_scanLists (i : Fin 4) (f : Wing → Wing) : (s.modWing i f).scanLists = s.scanLists := rfl
@[simp] theorem modWing_converterA (i : Fin 4) (f : Wing → Wing) : (s.modWing i f).converterA = s.converterA := rfl
@[simp] theorem modWing_converterB (i : Fin 4) (f : Wing → Wing) : (s.modWing i f).converterB = s.converterB := rfl
@[simp] theorem modWing_classes (i : Fin 4) (f : Wing → Wing) : (s.modWing i f).classes = s.classes := rfl
@[simp] theorem modWing_detectors (i : Fin 4) (f : Wing → Wing) : (s.modWing i f).detectors = s.detectors := rfl
@[simp] theorem modWing_doors (i : Fin 4) (f : Wing → Wing) : (s.modWing i f).doors = s.doors := rfl
@[simp] theorem modWing_points (i : Fin 4) (f : Wing → Wing) : (s.modWing i f).points = s.points := rfl
@[simp] theorem modWing_callQueue (i : Fin 4) (f : Wing → Wing) : (s.modWing i f).callQueue = s.callQueue := rfl
@[simp] theorem modWing_desks (i : Fin 4) (f : Wing → Wing) : (s.modWing i f).desks = s.desks := rfl
@[simp] theorem modWing_exits (i : Fin 4) (f : Wing → Wing) : (s.modWing i f).exits = s.exits := rfl
@[simp] theorem modWing_descriptors (i : Fin 4) (f : Wing → Wing) : (s.modWing i f).descriptors = s.descriptors := rfl
@[simp] theorem modWing_routeLists (i : Fin 4) (f : Wing → Wing) : (s.modWing i f).routeLists = s.routeLists := rfl
@[simp] theorem modWing_signs (i : Fin 4) (f : Wing → Wing) : (s.modWing i f).signs = s.signs := rfl
@[simp] theorem modWing_engine (i : Fin 4) (f : Wing → Wing) : (s.modWing i f).engine = s.engine := rfl
@[simp] theorem modWing_channels (i : Fin 4) (f : Wing → Wing) : (s.modWing i f).channels = s.channels := rfl
@[simp] theorem modWing_log (i : Fin 4) (f : Wing → Wing) : (s.modWing i f).log = s.log := rfl
@[simp] theorem modWing_nextSequence (i : Fin 4) (f : Wing → Wing) : (s.modWing i f).nextSequence = s.nextSequence := rfl
@[simp] theorem modWing_routing (i : Fin 4) (f : Wing → Wing) : (s.modWing i f).routing = s.routing := rfl
@[simp] theorem modWing_authority (i : Fin 4) (f : Wing → Wing) : (s.modWing i f).authority = s.authority := rfl
@[simp] theorem modWing_ports (i : Fin 4) (f : Wing → Wing) : (s.modWing i f).ports = s.ports := rfl
@[simp] theorem modWing_rotation (i : Fin 4) (f : Wing → Wing) : (s.modWing i f).rotation = s.rotation := rfl
@[simp] theorem modWing_fireBurst (i : Fin 4) (f : Wing → Wing) : (s.modWing i f).fireBurst = s.fireBurst := rfl
@[simp] theorem modWing_lastQuery (i : Fin 4) (f : Wing → Wing) : (s.modWing i f).lastQuery = s.lastQuery := rfl
@[simp] theorem modWing_fieldOut (i : Fin 4) (f : Wing → Wing) : (s.modWing i f).fieldOut = s.fieldOut := rfl
@[simp] theorem modWing_stationOut (i : Fin 4) (f : Wing → Wing) : (s.modWing i f).stationOut = s.stationOut := rfl
@[simp] theorem modWing_pending (i : Fin 4) (f : Wing → Wing) : (s.modWing i f).pending = s.pending := rfl
@[simp] theorem zone_modWing (i : Fin 4) (f : Wing → Wing) (j : Fin 64) : (s.modWing i f).zone j = s.zone j := rfl
@[simp] theorem loop_modWing (i : Fin 4) (f : Wing → Wing) (j : Fin 4) : (s.modWing i f).loop j = s.loop j := rfl
@[simp] theorem detector_modWing (i : Fin 4) (f : Wing → Wing) (j : Fin 192) : (s.modWing i f).detector j = s.detector j := rfl
@[simp] theorem cls_modWing (i : Fin 4) (f : Wing → Wing) (j : Fin 8) : (s.modWing i f).cls j = s.cls j := rfl
@[simp] theorem door_modWing (i : Fin 4) (f : Wing → Wing) (j : Fin 48) : (s.modWing i f).door j = s.door j := rfl
@[simp] theorem point_modWing (i : Fin 4) (f : Wing → Wing) (j : Fin 64) : (s.modWing i f).point j = s.point j := rfl
@[simp] theorem desk_modWing (i : Fin 4) (f : Wing → Wing) (j : Fin 8) : (s.modWing i f).desk j = s.desk j := rfl
@[simp] theorem exit_modWing (i : Fin 4) (f : Wing → Wing) (j : Fin 16) : (s.modWing i f).exit j = s.exit j := rfl
@[simp] theorem sign_modWing (i : Fin 4) (f : Wing → Wing) (j : Fin 96) : (s.modWing i f).sign j = s.sign j := rfl
@[simp] theorem channel_modWing (i : Fin 4) (f : Wing → Wing) (j : Fin 276) : (s.modWing i f).channel j = s.channel j := rfl
@[simp] theorem port_modWing (i : Fin 4) (f : Wing → Wing) (j : Station) : (s.modWing i f).port j = s.port j := rfl
theorem wing_modWing (i : Fin 4) (f : Wing → Wing) (j : Fin 4) :
    (s.modWing i f).wing j = if j = i then f (s.wing j) else s.wing j := Tbl.get_modify ..
@[simp] theorem wing_modWing_self (i : Fin 4) (f : Wing → Wing) : (s.modWing i f).wing i = f (s.wing i) := Tbl.get_modify_self ..
@[simp] theorem slot_modWing (i : Fin 4) (f : Wing → Wing) (l : Fin 4) (m : Fin 48) : (s.modWing i f).slot l m = s.slot l m := rfl

/-! ### modLoop -/

@[simp] theorem modLoop_part (i : Fin 4) (f : Loop → Loop) : (s.modLoop i f).part = s.part := rfl
@[simp] theorem modLoop_seconds (i : Fin 4) (f : Loop → Loop) : (s.modLoop i f).seconds = s.seconds := rfl
@[simp] theorem modLoop_zones (i : Fin 4) (f : Loop → Loop) : (s.modLoop i f).zones = s.zones := rfl
@[simp] theorem modLoop_wings (i : Fin 4) (f : Loop → Loop) : (s.modLoop i f).wings = s.wings := rfl
@[simp] theorem modLoop_scanLists (i : Fin 4) (f : Loop → Loop) : (s.modLoop i f).scanLists = s.scanLists := rfl
@[simp] theorem modLoop_converterA (i : Fin 4) (f : Loop → Loop) : (s.modLoop i f).converterA = s.converterA := rfl
@[simp] theorem modLoop_converterB (i : Fin 4) (f : Loop → Loop) : (s.modLoop i f).converterB = s.converterB := rfl
@[simp] theorem modLoop_classes (i : Fin 4) (f : Loop → Loop) : (s.modLoop i f).classes = s.classes := rfl
@[simp] theorem modLoop_detectors (i : Fin 4) (f : Loop → Loop) : (s.modLoop i f).detectors = s.detectors := rfl
@[simp] theorem modLoop_doors (i : Fin 4) (f : Loop → Loop) : (s.modLoop i f).doors = s.doors := rfl
@[simp] theorem modLoop_points (i : Fin 4) (f : Loop → Loop) : (s.modLoop i f).points = s.points := rfl
@[simp] theorem modLoop_callQueue (i : Fin 4) (f : Loop → Loop) : (s.modLoop i f).callQueue = s.callQueue := rfl
@[simp] theorem modLoop_desks (i : Fin 4) (f : Loop → Loop) : (s.modLoop i f).desks = s.desks := rfl
@[simp] theorem modLoop_exits (i : Fin 4) (f : Loop → Loop) : (s.modLoop i f).exits = s.exits := rfl
@[simp] theorem modLoop_descriptors (i : Fin 4) (f : Loop → Loop) : (s.modLoop i f).descriptors = s.descriptors := rfl
@[simp] theorem modLoop_routeLists (i : Fin 4) (f : Loop → Loop) : (s.modLoop i f).routeLists = s.routeLists := rfl
@[simp] theorem modLoop_signs (i : Fin 4) (f : Loop → Loop) : (s.modLoop i f).signs = s.signs := rfl
@[simp] theorem modLoop_engine (i : Fin 4) (f : Loop → Loop) : (s.modLoop i f).engine = s.engine := rfl
@[simp] theorem modLoop_channels (i : Fin 4) (f : Loop → Loop) : (s.modLoop i f).channels = s.channels := rfl
@[simp] theorem modLoop_log (i : Fin 4) (f : Loop → Loop) : (s.modLoop i f).log = s.log := rfl
@[simp] theorem modLoop_nextSequence (i : Fin 4) (f : Loop → Loop) : (s.modLoop i f).nextSequence = s.nextSequence := rfl
@[simp] theorem modLoop_routing (i : Fin 4) (f : Loop → Loop) : (s.modLoop i f).routing = s.routing := rfl
@[simp] theorem modLoop_authority (i : Fin 4) (f : Loop → Loop) : (s.modLoop i f).authority = s.authority := rfl
@[simp] theorem modLoop_ports (i : Fin 4) (f : Loop → Loop) : (s.modLoop i f).ports = s.ports := rfl
@[simp] theorem modLoop_rotation (i : Fin 4) (f : Loop → Loop) : (s.modLoop i f).rotation = s.rotation := rfl
@[simp] theorem modLoop_fireBurst (i : Fin 4) (f : Loop → Loop) : (s.modLoop i f).fireBurst = s.fireBurst := rfl
@[simp] theorem modLoop_lastQuery (i : Fin 4) (f : Loop → Loop) : (s.modLoop i f).lastQuery = s.lastQuery := rfl
@[simp] theorem modLoop_fieldOut (i : Fin 4) (f : Loop → Loop) : (s.modLoop i f).fieldOut = s.fieldOut := rfl
@[simp] theorem modLoop_stationOut (i : Fin 4) (f : Loop → Loop) : (s.modLoop i f).stationOut = s.stationOut := rfl
@[simp] theorem modLoop_pending (i : Fin 4) (f : Loop → Loop) : (s.modLoop i f).pending = s.pending := rfl
@[simp] theorem zone_modLoop (i : Fin 4) (f : Loop → Loop) (j : Fin 64) : (s.modLoop i f).zone j = s.zone j := rfl
@[simp] theorem wing_modLoop (i : Fin 4) (f : Loop → Loop) (j : Fin 4) : (s.modLoop i f).wing j = s.wing j := rfl
@[simp] theorem detector_modLoop (i : Fin 4) (f : Loop → Loop) (j : Fin 192) : (s.modLoop i f).detector j = s.detector j := rfl
@[simp] theorem cls_modLoop (i : Fin 4) (f : Loop → Loop) (j : Fin 8) : (s.modLoop i f).cls j = s.cls j := rfl
@[simp] theorem door_modLoop (i : Fin 4) (f : Loop → Loop) (j : Fin 48) : (s.modLoop i f).door j = s.door j := rfl
@[simp] theorem point_modLoop (i : Fin 4) (f : Loop → Loop) (j : Fin 64) : (s.modLoop i f).point j = s.point j := rfl
@[simp] theorem desk_modLoop (i : Fin 4) (f : Loop → Loop) (j : Fin 8) : (s.modLoop i f).desk j = s.desk j := rfl
@[simp] theorem exit_modLoop (i : Fin 4) (f : Loop → Loop) (j : Fin 16) : (s.modLoop i f).exit j = s.exit j := rfl
@[simp] theorem sign_modLoop (i : Fin 4) (f : Loop → Loop) (j : Fin 96) : (s.modLoop i f).sign j = s.sign j := rfl
@[simp] theorem channel_modLoop (i : Fin 4) (f : Loop → Loop) (j : Fin 276) : (s.modLoop i f).channel j = s.channel j := rfl
@[simp] theorem port_modLoop (i : Fin 4) (f : Loop → Loop) (j : Station) : (s.modLoop i f).port j = s.port j := rfl
theorem loop_modLoop (i : Fin 4) (f : Loop → Loop) (j : Fin 4) :
    (s.modLoop i f).loop j = if j = i then f (s.loop j) else s.loop j := Tbl.get_modify ..
@[simp] theorem loop_modLoop_self (i : Fin 4) (f : Loop → Loop) : (s.modLoop i f).loop i = f (s.loop i) := Tbl.get_modify_self ..
@[simp] theorem slot_modLoop (i : Fin 4) (f : Loop → Loop) (l : Fin 4) (m : Fin 48) : (s.modLoop i f).slot l m = s.slot l m := rfl

/-! ### putDetector -/

@[simp] theorem putDetector_part (i : Fin 192) (x : Option Detector) : (s.putDetector i x).part = s.part := rfl
@[simp] theorem putDetector_seconds (i : Fin 192) (x : Option Detector) : (s.putDetector i x).seconds = s.seconds := rfl
@[simp] theorem putDetector_zones (i : Fin 192) (x : Option Detector) : (s.putDetector i x).zones = s.zones := rfl
@[simp] theorem putDetector_wings (i : Fin 192) (x : Option Detector) : (s.putDetector i x).wings = s.wings := rfl
@[simp] theorem putDetector_loops (i : Fin 192) (x : Option Detector) : (s.putDetector i x).loops = s.loops := rfl
@[simp] theorem putDetector_scanLists (i : Fin 192) (x : Option Detector) : (s.putDetector i x).scanLists = s.scanLists := rfl
@[simp] theorem putDetector_converterA (i : Fin 192) (x : Option Detector) : (s.putDetector i x).converterA = s.converterA := rfl
@[simp] theorem putDetector_converterB (i : Fin 192) (x : Option Detector) : (s.putDetector i x).converterB = s.converterB := rfl
@[simp] theorem putDetector_classes (i : Fin 192) (x : Option Detector) : (s.putDetector i x).classes = s.classes := rfl
@[simp] theorem putDetector_doors (i : Fin 192) (x : Option Detector) : (s.putDetector i x).doors = s.doors := rfl
@[simp] theorem putDetector_points (i : Fin 192) (x : Option Detector) : (s.putDetector i x).points = s.points := rfl
@[simp] theorem putDetector_callQueue (i : Fin 192) (x : Option Detector) : (s.putDetector i x).callQueue = s.callQueue := rfl
@[simp] theorem putDetector_desks (i : Fin 192) (x : Option Detector) : (s.putDetector i x).desks = s.desks := rfl
@[simp] theorem putDetector_exits (i : Fin 192) (x : Option Detector) : (s.putDetector i x).exits = s.exits := rfl
@[simp] theorem putDetector_descriptors (i : Fin 192) (x : Option Detector) : (s.putDetector i x).descriptors = s.descriptors := rfl
@[simp] theorem putDetector_routeLists (i : Fin 192) (x : Option Detector) : (s.putDetector i x).routeLists = s.routeLists := rfl
@[simp] theorem putDetector_signs (i : Fin 192) (x : Option Detector) : (s.putDetector i x).signs = s.signs := rfl
@[simp] theorem putDetector_engine (i : Fin 192) (x : Option Detector) : (s.putDetector i x).engine = s.engine := rfl
@[simp] theorem putDetector_channels (i : Fin 192) (x : Option Detector) : (s.putDetector i x).channels = s.channels := rfl
@[simp] theorem putDetector_log (i : Fin 192) (x : Option Detector) : (s.putDetector i x).log = s.log := rfl
@[simp] theorem putDetector_nextSequence (i : Fin 192) (x : Option Detector) : (s.putDetector i x).nextSequence = s.nextSequence := rfl
@[simp] theorem putDetector_routing (i : Fin 192) (x : Option Detector) : (s.putDetector i x).routing = s.routing := rfl
@[simp] theorem putDetector_authority (i : Fin 192) (x : Option Detector) : (s.putDetector i x).authority = s.authority := rfl
@[simp] theorem putDetector_ports (i : Fin 192) (x : Option Detector) : (s.putDetector i x).ports = s.ports := rfl
@[simp] theorem putDetector_rotation (i : Fin 192) (x : Option Detector) : (s.putDetector i x).rotation = s.rotation := rfl
@[simp] theorem putDetector_fireBurst (i : Fin 192) (x : Option Detector) : (s.putDetector i x).fireBurst = s.fireBurst := rfl
@[simp] theorem putDetector_lastQuery (i : Fin 192) (x : Option Detector) : (s.putDetector i x).lastQuery = s.lastQuery := rfl
@[simp] theorem putDetector_fieldOut (i : Fin 192) (x : Option Detector) : (s.putDetector i x).fieldOut = s.fieldOut := rfl
@[simp] theorem putDetector_stationOut (i : Fin 192) (x : Option Detector) : (s.putDetector i x).stationOut = s.stationOut := rfl
@[simp] theorem putDetector_pending (i : Fin 192) (x : Option Detector) : (s.putDetector i x).pending = s.pending := rfl
@[simp] theorem zone_putDetector (i : Fin 192) (x : Option Detector) (j : Fin 64) : (s.putDetector i x).zone j = s.zone j := rfl
@[simp] theorem wing_putDetector (i : Fin 192) (x : Option Detector) (j : Fin 4) : (s.putDetector i x).wing j = s.wing j := rfl
@[simp] theorem loop_putDetector (i : Fin 192) (x : Option Detector) (j : Fin 4) : (s.putDetector i x).loop j = s.loop j := rfl
@[simp] theorem cls_putDetector (i : Fin 192) (x : Option Detector) (j : Fin 8) : (s.putDetector i x).cls j = s.cls j := rfl
@[simp] theorem door_putDetector (i : Fin 192) (x : Option Detector) (j : Fin 48) : (s.putDetector i x).door j = s.door j := rfl
@[simp] theorem point_putDetector (i : Fin 192) (x : Option Detector) (j : Fin 64) : (s.putDetector i x).point j = s.point j := rfl
@[simp] theorem desk_putDetector (i : Fin 192) (x : Option Detector) (j : Fin 8) : (s.putDetector i x).desk j = s.desk j := rfl
@[simp] theorem exit_putDetector (i : Fin 192) (x : Option Detector) (j : Fin 16) : (s.putDetector i x).exit j = s.exit j := rfl
@[simp] theorem sign_putDetector (i : Fin 192) (x : Option Detector) (j : Fin 96) : (s.putDetector i x).sign j = s.sign j := rfl
@[simp] theorem channel_putDetector (i : Fin 192) (x : Option Detector) (j : Fin 276) : (s.putDetector i x).channel j = s.channel j := rfl
@[simp] theorem port_putDetector (i : Fin 192) (x : Option Detector) (j : Station) : (s.putDetector i x).port j = s.port j := rfl
theorem detector_putDetector (i : Fin 192) (x : Option Detector) (j : Fin 192) :
    (s.putDetector i x).detector j = if j = i then x else s.detector j := Tbl.get_set ..
@[simp] theorem detector_putDetector_self (i : Fin 192) (x : Option Detector) : (s.putDetector i x).detector i = x := Tbl.get_set_self ..
@[simp] theorem slot_putDetector (i : Fin 192) (x : Option Detector) (l : Fin 4) (m : Fin 48) : (s.putDetector i x).slot l m = s.slot l m := rfl

/-! ### modDoor -/

@[simp] theorem modDoor_part (i : Fin 48) (f : Door → Door) : (s.modDoor i f).part = s.part := rfl
@[simp] theorem modDoor_seconds (i : Fin 48) (f : Door → Door) : (s.modDoor i f).seconds = s.seconds := rfl
@[simp] theorem modDoor_zones (i : Fin 48) (f : Door → Door) : (s.modDoor i f).zones = s.zones := rfl
@[simp] theorem modDoor_wings (i : Fin 48) (f : Door → Door) : (s.modDoor i f).wings = s.wings := rfl
@[simp] theorem modDoor_loops (i : Fin 48) (f : Door → Door) : (s.modDoor i f).loops = s.loops := rfl
@[simp] theorem modDoor_scanLists (i : Fin 48) (f : Door → Door) : (s.modDoor i f).scanLists = s.scanLists := rfl
@[simp] theorem modDoor_converterA (i : Fin 48) (f : Door → Door) : (s.modDoor i f).converterA = s.converterA := rfl
@[simp] theorem modDoor_converterB (i : Fin 48) (f : Door → Door) : (s.modDoor i f).converterB = s.converterB := rfl
@[simp] theorem modDoor_classes (i : Fin 48) (f : Door → Door) : (s.modDoor i f).classes = s.classes := rfl
@[simp] theorem modDoor_detectors (i : Fin 48) (f : Door → Door) : (s.modDoor i f).detectors = s.detectors := rfl
@[simp] theorem modDoor_points (i : Fin 48) (f : Door → Door) : (s.modDoor i f).points = s.points := rfl
@[simp] theorem modDoor_callQueue (i : Fin 48) (f : Door → Door) : (s.modDoor i f).callQueue = s.callQueue := rfl
@[simp] theorem modDoor_desks (i : Fin 48) (f : Door → Door) : (s.modDoor i f).desks = s.desks := rfl
@[simp] theorem modDoor_exits (i : Fin 48) (f : Door → Door) : (s.modDoor i f).exits = s.exits := rfl
@[simp] theorem modDoor_descriptors (i : Fin 48) (f : Door → Door) : (s.modDoor i f).descriptors = s.descriptors := rfl
@[simp] theorem modDoor_routeLists (i : Fin 48) (f : Door → Door) : (s.modDoor i f).routeLists = s.routeLists := rfl
@[simp] theorem modDoor_signs (i : Fin 48) (f : Door → Door) : (s.modDoor i f).signs = s.signs := rfl
@[simp] theorem modDoor_engine (i : Fin 48) (f : Door → Door) : (s.modDoor i f).engine = s.engine := rfl
@[simp] theorem modDoor_channels (i : Fin 48) (f : Door → Door) : (s.modDoor i f).channels = s.channels := rfl
@[simp] theorem modDoor_log (i : Fin 48) (f : Door → Door) : (s.modDoor i f).log = s.log := rfl
@[simp] theorem modDoor_nextSequence (i : Fin 48) (f : Door → Door) : (s.modDoor i f).nextSequence = s.nextSequence := rfl
@[simp] theorem modDoor_routing (i : Fin 48) (f : Door → Door) : (s.modDoor i f).routing = s.routing := rfl
@[simp] theorem modDoor_authority (i : Fin 48) (f : Door → Door) : (s.modDoor i f).authority = s.authority := rfl
@[simp] theorem modDoor_ports (i : Fin 48) (f : Door → Door) : (s.modDoor i f).ports = s.ports := rfl
@[simp] theorem modDoor_rotation (i : Fin 48) (f : Door → Door) : (s.modDoor i f).rotation = s.rotation := rfl
@[simp] theorem modDoor_fireBurst (i : Fin 48) (f : Door → Door) : (s.modDoor i f).fireBurst = s.fireBurst := rfl
@[simp] theorem modDoor_lastQuery (i : Fin 48) (f : Door → Door) : (s.modDoor i f).lastQuery = s.lastQuery := rfl
@[simp] theorem modDoor_fieldOut (i : Fin 48) (f : Door → Door) : (s.modDoor i f).fieldOut = s.fieldOut := rfl
@[simp] theorem modDoor_stationOut (i : Fin 48) (f : Door → Door) : (s.modDoor i f).stationOut = s.stationOut := rfl
@[simp] theorem modDoor_pending (i : Fin 48) (f : Door → Door) : (s.modDoor i f).pending = s.pending := rfl
@[simp] theorem zone_modDoor (i : Fin 48) (f : Door → Door) (j : Fin 64) : (s.modDoor i f).zone j = s.zone j := rfl
@[simp] theorem wing_modDoor (i : Fin 48) (f : Door → Door) (j : Fin 4) : (s.modDoor i f).wing j = s.wing j := rfl
@[simp] theorem loop_modDoor (i : Fin 48) (f : Door → Door) (j : Fin 4) : (s.modDoor i f).loop j = s.loop j := rfl
@[simp] theorem detector_modDoor (i : Fin 48) (f : Door → Door) (j : Fin 192) : (s.modDoor i f).detector j = s.detector j := rfl
@[simp] theorem cls_modDoor (i : Fin 48) (f : Door → Door) (j : Fin 8) : (s.modDoor i f).cls j = s.cls j := rfl
@[simp] theorem point_modDoor (i : Fin 48) (f : Door → Door) (j : Fin 64) : (s.modDoor i f).point j = s.point j := rfl
@[simp] theorem desk_modDoor (i : Fin 48) (f : Door → Door) (j : Fin 8) : (s.modDoor i f).desk j = s.desk j := rfl
@[simp] theorem exit_modDoor (i : Fin 48) (f : Door → Door) (j : Fin 16) : (s.modDoor i f).exit j = s.exit j := rfl
@[simp] theorem sign_modDoor (i : Fin 48) (f : Door → Door) (j : Fin 96) : (s.modDoor i f).sign j = s.sign j := rfl
@[simp] theorem channel_modDoor (i : Fin 48) (f : Door → Door) (j : Fin 276) : (s.modDoor i f).channel j = s.channel j := rfl
@[simp] theorem port_modDoor (i : Fin 48) (f : Door → Door) (j : Station) : (s.modDoor i f).port j = s.port j := rfl
theorem door_modDoor (i : Fin 48) (f : Door → Door) (j : Fin 48) :
    (s.modDoor i f).door j = if j = i then f (s.door j) else s.door j := Tbl.get_modify ..
@[simp] theorem door_modDoor_self (i : Fin 48) (f : Door → Door) : (s.modDoor i f).door i = f (s.door i) := Tbl.get_modify_self ..
@[simp] theorem slot_modDoor (i : Fin 48) (f : Door → Door) (l : Fin 4) (m : Fin 48) : (s.modDoor i f).slot l m = s.slot l m := rfl

/-! ### modPoint -/

@[simp] theorem modPoint_part (i : Fin 64) (f : CallPoint → CallPoint) : (s.modPoint i f).part = s.part := rfl
@[simp] theorem modPoint_seconds (i : Fin 64) (f : CallPoint → CallPoint) : (s.modPoint i f).seconds = s.seconds := rfl
@[simp] theorem modPoint_zones (i : Fin 64) (f : CallPoint → CallPoint) : (s.modPoint i f).zones = s.zones := rfl
@[simp] theorem modPoint_wings (i : Fin 64) (f : CallPoint → CallPoint) : (s.modPoint i f).wings = s.wings := rfl
@[simp] theorem modPoint_loops (i : Fin 64) (f : CallPoint → CallPoint) : (s.modPoint i f).loops = s.loops := rfl
@[simp] theorem modPoint_scanLists (i : Fin 64) (f : CallPoint → CallPoint) : (s.modPoint i f).scanLists = s.scanLists := rfl
@[simp] theorem modPoint_converterA (i : Fin 64) (f : CallPoint → CallPoint) : (s.modPoint i f).converterA = s.converterA := rfl
@[simp] theorem modPoint_converterB (i : Fin 64) (f : CallPoint → CallPoint) : (s.modPoint i f).converterB = s.converterB := rfl
@[simp] theorem modPoint_classes (i : Fin 64) (f : CallPoint → CallPoint) : (s.modPoint i f).classes = s.classes := rfl
@[simp] theorem modPoint_detectors (i : Fin 64) (f : CallPoint → CallPoint) : (s.modPoint i f).detectors = s.detectors := rfl
@[simp] theorem modPoint_doors (i : Fin 64) (f : CallPoint → CallPoint) : (s.modPoint i f).doors = s.doors := rfl
@[simp] theorem modPoint_callQueue (i : Fin 64) (f : CallPoint → CallPoint) : (s.modPoint i f).callQueue = s.callQueue := rfl
@[simp] theorem modPoint_desks (i : Fin 64) (f : CallPoint → CallPoint) : (s.modPoint i f).desks = s.desks := rfl
@[simp] theorem modPoint_exits (i : Fin 64) (f : CallPoint → CallPoint) : (s.modPoint i f).exits = s.exits := rfl
@[simp] theorem modPoint_descriptors (i : Fin 64) (f : CallPoint → CallPoint) : (s.modPoint i f).descriptors = s.descriptors := rfl
@[simp] theorem modPoint_routeLists (i : Fin 64) (f : CallPoint → CallPoint) : (s.modPoint i f).routeLists = s.routeLists := rfl
@[simp] theorem modPoint_signs (i : Fin 64) (f : CallPoint → CallPoint) : (s.modPoint i f).signs = s.signs := rfl
@[simp] theorem modPoint_engine (i : Fin 64) (f : CallPoint → CallPoint) : (s.modPoint i f).engine = s.engine := rfl
@[simp] theorem modPoint_channels (i : Fin 64) (f : CallPoint → CallPoint) : (s.modPoint i f).channels = s.channels := rfl
@[simp] theorem modPoint_log (i : Fin 64) (f : CallPoint → CallPoint) : (s.modPoint i f).log = s.log := rfl
@[simp] theorem modPoint_nextSequence (i : Fin 64) (f : CallPoint → CallPoint) : (s.modPoint i f).nextSequence = s.nextSequence := rfl
@[simp] theorem modPoint_routing (i : Fin 64) (f : CallPoint → CallPoint) : (s.modPoint i f).routing = s.routing := rfl
@[simp] theorem modPoint_authority (i : Fin 64) (f : CallPoint → CallPoint) : (s.modPoint i f).authority = s.authority := rfl
@[simp] theorem modPoint_ports (i : Fin 64) (f : CallPoint → CallPoint) : (s.modPoint i f).ports = s.ports := rfl
@[simp] theorem modPoint_rotation (i : Fin 64) (f : CallPoint → CallPoint) : (s.modPoint i f).rotation = s.rotation := rfl
@[simp] theorem modPoint_fireBurst (i : Fin 64) (f : CallPoint → CallPoint) : (s.modPoint i f).fireBurst = s.fireBurst := rfl
@[simp] theorem modPoint_lastQuery (i : Fin 64) (f : CallPoint → CallPoint) : (s.modPoint i f).lastQuery = s.lastQuery := rfl
@[simp] theorem modPoint_fieldOut (i : Fin 64) (f : CallPoint → CallPoint) : (s.modPoint i f).fieldOut = s.fieldOut := rfl
@[simp] theorem modPoint_stationOut (i : Fin 64) (f : CallPoint → CallPoint) : (s.modPoint i f).stationOut = s.stationOut := rfl
@[simp] theorem modPoint_pending (i : Fin 64) (f : CallPoint → CallPoint) : (s.modPoint i f).pending = s.pending := rfl
@[simp] theorem zone_modPoint (i : Fin 64) (f : CallPoint → CallPoint) (j : Fin 64) : (s.modPoint i f).zone j = s.zone j := rfl
@[simp] theorem wing_modPoint (i : Fin 64) (f : CallPoint → CallPoint) (j : Fin 4) : (s.modPoint i f).wing j = s.wing j := rfl
@[simp] theorem loop_modPoint (i : Fin 64) (f : CallPoint → CallPoint) (j : Fin 4) : (s.modPoint i f).loop j = s.loop j := rfl
@[simp] theorem detector_modPoint (i : Fin 64) (f : CallPoint → CallPoint) (j : Fin 192) : (s.modPoint i f).detector j = s.detector j := rfl
@[simp] theorem cls_modPoint (i : Fin 64) (f : CallPoint → CallPoint) (j : Fin 8) : (s.modPoint i f).cls j = s.cls j := rfl
@[simp] theorem door_modPoint (i : Fin 64) (f : CallPoint → CallPoint) (j : Fin 48) : (s.modPoint i f).door j = s.door j := rfl
@[simp] theorem desk_modPoint (i : Fin 64) (f : CallPoint → CallPoint) (j : Fin 8) : (s.modPoint i f).desk j = s.desk j := rfl
@[simp] theorem exit_modPoint (i : Fin 64) (f : CallPoint → CallPoint) (j : Fin 16) : (s.modPoint i f).exit j = s.exit j := rfl
@[simp] theorem sign_modPoint (i : Fin 64) (f : CallPoint → CallPoint) (j : Fin 96) : (s.modPoint i f).sign j = s.sign j := rfl
@[simp] theorem channel_modPoint (i : Fin 64) (f : CallPoint → CallPoint) (j : Fin 276) : (s.modPoint i f).channel j = s.channel j := rfl
@[simp] theorem port_modPoint (i : Fin 64) (f : CallPoint → CallPoint) (j : Station) : (s.modPoint i f).port j = s.port j := rfl
theorem point_modPoint (i : Fin 64) (f : CallPoint → CallPoint) (j : Fin 64) :
    (s.modPoint i f).point j = if j = i then f (s.point j) else s.point j := Tbl.get_modify ..
@[simp] theorem point_modPoint_self (i : Fin 64) (f : CallPoint → CallPoint) : (s.modPoint i f).point i = f (s.point i) := Tbl.get_modify_self ..
@[simp] theorem slot_modPoint (i : Fin 64) (f : CallPoint → CallPoint) (l : Fin 4) (m : Fin 48) : (s.modPoint i f).slot l m = s.slot l m := rfl

/-! ### modDesk -/

@[simp] theorem modDesk_part (i : Fin 8) (f : Desk → Desk) : (s.modDesk i f).part = s.part := rfl
@[simp] theorem modDesk_seconds (i : Fin 8) (f : Desk → Desk) : (s.modDesk i f).seconds = s.seconds := rfl
@[simp] theorem modDesk_zones (i : Fin 8) (f : Desk → Desk) : (s.modDesk i f).zones = s.zones := rfl
@[simp] theorem modDesk_wings (i : Fin 8) (f : Desk → Desk) : (s.modDesk i f).wings = s.wings := rfl
@[simp] theorem modDesk_loops (i : Fin 8) (f : Desk → Desk) : (s.modDesk i f).loops = s.loops := rfl
@[simp] theorem modDesk_scanLists (i : Fin 8) (f : Desk → Desk) : (s.modDesk i f).scanLists = s.scanLists := rfl
@[simp] theorem modDesk_converterA (i : Fin 8) (f : Desk → Desk) : (s.modDesk i f).converterA = s.converterA := rfl
@[simp] theorem modDesk_converterB (i : Fin 8) (f : Desk → Desk) : (s.modDesk i f).converterB = s.converterB := rfl
@[simp] theorem modDesk_classes (i : Fin 8) (f : Desk → Desk) : (s.modDesk i f).classes = s.classes := rfl
@[simp] theorem modDesk_detectors (i : Fin 8) (f : Desk → Desk) : (s.modDesk i f).detectors = s.detectors := rfl
@[simp] theorem modDesk_doors (i : Fin 8) (f : Desk → Desk) : (s.modDesk i f).doors = s.doors := rfl
@[simp] theorem modDesk_points (i : Fin 8) (f : Desk → Desk) : (s.modDesk i f).points = s.points := rfl
@[simp] theorem modDesk_callQueue (i : Fin 8) (f : Desk → Desk) : (s.modDesk i f).callQueue = s.callQueue := rfl
@[simp] theorem modDesk_exits (i : Fin 8) (f : Desk → Desk) : (s.modDesk i f).exits = s.exits := rfl
@[simp] theorem modDesk_descriptors (i : Fin 8) (f : Desk → Desk) : (s.modDesk i f).descriptors = s.descriptors := rfl
@[simp] theorem modDesk_routeLists (i : Fin 8) (f : Desk → Desk) : (s.modDesk i f).routeLists = s.routeLists := rfl
@[simp] theorem modDesk_signs (i : Fin 8) (f : Desk → Desk) : (s.modDesk i f).signs = s.signs := rfl
@[simp] theorem modDesk_engine (i : Fin 8) (f : Desk → Desk) : (s.modDesk i f).engine = s.engine := rfl
@[simp] theorem modDesk_channels (i : Fin 8) (f : Desk → Desk) : (s.modDesk i f).channels = s.channels := rfl
@[simp] theorem modDesk_log (i : Fin 8) (f : Desk → Desk) : (s.modDesk i f).log = s.log := rfl
@[simp] theorem modDesk_nextSequence (i : Fin 8) (f : Desk → Desk) : (s.modDesk i f).nextSequence = s.nextSequence := rfl
@[simp] theorem modDesk_routing (i : Fin 8) (f : Desk → Desk) : (s.modDesk i f).routing = s.routing := rfl
@[simp] theorem modDesk_authority (i : Fin 8) (f : Desk → Desk) : (s.modDesk i f).authority = s.authority := rfl
@[simp] theorem modDesk_ports (i : Fin 8) (f : Desk → Desk) : (s.modDesk i f).ports = s.ports := rfl
@[simp] theorem modDesk_rotation (i : Fin 8) (f : Desk → Desk) : (s.modDesk i f).rotation = s.rotation := rfl
@[simp] theorem modDesk_fireBurst (i : Fin 8) (f : Desk → Desk) : (s.modDesk i f).fireBurst = s.fireBurst := rfl
@[simp] theorem modDesk_lastQuery (i : Fin 8) (f : Desk → Desk) : (s.modDesk i f).lastQuery = s.lastQuery := rfl
@[simp] theorem modDesk_fieldOut (i : Fin 8) (f : Desk → Desk) : (s.modDesk i f).fieldOut = s.fieldOut := rfl
@[simp] theorem modDesk_stationOut (i : Fin 8) (f : Desk → Desk) : (s.modDesk i f).stationOut = s.stationOut := rfl
@[simp] theorem modDesk_pending (i : Fin 8) (f : Desk → Desk) : (s.modDesk i f).pending = s.pending := rfl
@[simp] theorem zone_modDesk (i : Fin 8) (f : Desk → Desk) (j : Fin 64) : (s.modDesk i f).zone j = s.zone j := rfl
@[simp] theorem wing_modDesk (i : Fin 8) (f : Desk → Desk) (j : Fin 4) : (s.modDesk i f).wing j = s.wing j := rfl
@[simp] theorem loop_modDesk (i : Fin 8) (f : Desk → Desk) (j : Fin 4) : (s.modDesk i f).loop j = s.loop j := rfl
@[simp] theorem detector_modDesk (i : Fin 8) (f : Desk → Desk) (j : Fin 192) : (s.modDesk i f).detector j = s.detector j := rfl
@[simp] theorem cls_modDesk (i : Fin 8) (f : Desk → Desk) (j : Fin 8) : (s.modDesk i f).cls j = s.cls j := rfl
@[simp] theorem door_modDesk (i : Fin 8) (f : Desk → Desk) (j : Fin 48) : (s.modDesk i f).door j = s.door j := rfl
@[simp] theorem point_modDesk (i : Fin 8) (f : Desk → Desk) (j : Fin 64) : (s.modDesk i f).point j = s.point j := rfl
@[simp] theorem exit_modDesk (i : Fin 8) (f : Desk → Desk) (j : Fin 16) : (s.modDesk i f).exit j = s.exit j := rfl
@[simp] theorem sign_modDesk (i : Fin 8) (f : Desk → Desk) (j : Fin 96) : (s.modDesk i f).sign j = s.sign j := rfl
@[simp] theorem channel_modDesk (i : Fin 8) (f : Desk → Desk) (j : Fin 276) : (s.modDesk i f).channel j = s.channel j := rfl
@[simp] theorem port_modDesk (i : Fin 8) (f : Desk → Desk) (j : Station) : (s.modDesk i f).port j = s.port j := rfl
theorem desk_modDesk (i : Fin 8) (f : Desk → Desk) (j : Fin 8) :
    (s.modDesk i f).desk j = if j = i then f (s.desk j) else s.desk j := Tbl.get_modify ..
@[simp] theorem desk_modDesk_self (i : Fin 8) (f : Desk → Desk) : (s.modDesk i f).desk i = f (s.desk i) := Tbl.get_modify_self ..
@[simp] theorem slot_modDesk (i : Fin 8) (f : Desk → Desk) (l : Fin 4) (m : Fin 48) : (s.modDesk i f).slot l m = s.slot l m := rfl

/-! ### modExit -/

@[simp] theorem modExit_part (i : Fin 16) (f : ExitRecord → ExitRecord) : (s.modExit i f).part = s.part := rfl
@[simp] theorem modExit_seconds (i : Fin 16) (f : ExitRecord → ExitRecord) : (s.modExit i f).seconds = s.seconds := rfl
@[simp] theorem modExit_zones (i : Fin 16) (f : ExitRecord → ExitRecord) : (s.modExit i f).zones = s.zones := rfl
@[simp] theorem modExit_wings (i : Fin 16) (f : ExitRecord → ExitRecord) : (s.modExit i f).wings = s.wings := rfl
@[simp] theorem modExit_loops (i : Fin 16) (f : ExitRecord → ExitRecord) : (s.modExit i f).loops = s.loops := rfl
@[simp] theorem modExit_scanLists (i : Fin 16) (f : ExitRecord → ExitRecord) : (s.modExit i f).scanLists = s.scanLists := rfl
@[simp] theorem modExit_converterA (i : Fin 16) (f : ExitRecord → ExitRecord) : (s.modExit i f).converterA = s.converterA := rfl
@[simp] theorem modExit_converterB (i : Fin 16) (f : ExitRecord → ExitRecord) : (s.modExit i f).converterB = s.converterB := rfl
@[simp] theorem modExit_classes (i : Fin 16) (f : ExitRecord → ExitRecord) : (s.modExit i f).classes = s.classes := rfl
@[simp] theorem modExit_detectors (i : Fin 16) (f : ExitRecord → ExitRecord) : (s.modExit i f).detectors = s.detectors := rfl
@[simp] theorem modExit_doors (i : Fin 16) (f : ExitRecord → ExitRecord) : (s.modExit i f).doors = s.doors := rfl
@[simp] theorem modExit_points (i : Fin 16) (f : ExitRecord → ExitRecord) : (s.modExit i f).points = s.points := rfl
@[simp] theorem modExit_callQueue (i : Fin 16) (f : ExitRecord → ExitRecord) : (s.modExit i f).callQueue = s.callQueue := rfl
@[simp] theorem modExit_desks (i : Fin 16) (f : ExitRecord → ExitRecord) : (s.modExit i f).desks = s.desks := rfl
@[simp] theorem modExit_descriptors (i : Fin 16) (f : ExitRecord → ExitRecord) : (s.modExit i f).descriptors = s.descriptors := rfl
@[simp] theorem modExit_routeLists (i : Fin 16) (f : ExitRecord → ExitRecord) : (s.modExit i f).routeLists = s.routeLists := rfl
@[simp] theorem modExit_signs (i : Fin 16) (f : ExitRecord → ExitRecord) : (s.modExit i f).signs = s.signs := rfl
@[simp] theorem modExit_engine (i : Fin 16) (f : ExitRecord → ExitRecord) : (s.modExit i f).engine = s.engine := rfl
@[simp] theorem modExit_channels (i : Fin 16) (f : ExitRecord → ExitRecord) : (s.modExit i f).channels = s.channels := rfl
@[simp] theorem modExit_log (i : Fin 16) (f : ExitRecord → ExitRecord) : (s.modExit i f).log = s.log := rfl
@[simp] theorem modExit_nextSequence (i : Fin 16) (f : ExitRecord → ExitRecord) : (s.modExit i f).nextSequence = s.nextSequence := rfl
@[simp] theorem modExit_routing (i : Fin 16) (f : ExitRecord → ExitRecord) : (s.modExit i f).routing = s.routing := rfl
@[simp] theorem modExit_authority (i : Fin 16) (f : ExitRecord → ExitRecord) : (s.modExit i f).authority = s.authority := rfl
@[simp] theorem modExit_ports (i : Fin 16) (f : ExitRecord → ExitRecord) : (s.modExit i f).ports = s.ports := rfl
@[simp] theorem modExit_rotation (i : Fin 16) (f : ExitRecord → ExitRecord) : (s.modExit i f).rotation = s.rotation := rfl
@[simp] theorem modExit_fireBurst (i : Fin 16) (f : ExitRecord → ExitRecord) : (s.modExit i f).fireBurst = s.fireBurst := rfl
@[simp] theorem modExit_lastQuery (i : Fin 16) (f : ExitRecord → ExitRecord) : (s.modExit i f).lastQuery = s.lastQuery := rfl
@[simp] theorem modExit_fieldOut (i : Fin 16) (f : ExitRecord → ExitRecord) : (s.modExit i f).fieldOut = s.fieldOut := rfl
@[simp] theorem modExit_stationOut (i : Fin 16) (f : ExitRecord → ExitRecord) : (s.modExit i f).stationOut = s.stationOut := rfl
@[simp] theorem modExit_pending (i : Fin 16) (f : ExitRecord → ExitRecord) : (s.modExit i f).pending = s.pending := rfl
@[simp] theorem zone_modExit (i : Fin 16) (f : ExitRecord → ExitRecord) (j : Fin 64) : (s.modExit i f).zone j = s.zone j := rfl
@[simp] theorem wing_modExit (i : Fin 16) (f : ExitRecord → ExitRecord) (j : Fin 4) : (s.modExit i f).wing j = s.wing j := rfl
@[simp] theorem loop_modExit (i : Fin 16) (f : ExitRecord → ExitRecord) (j : Fin 4) : (s.modExit i f).loop j = s.loop j := rfl
@[simp] theorem detector_modExit (i : Fin 16) (f : ExitRecord → ExitRecord) (j : Fin 192) : (s.modExit i f).detector j = s.detector j := rfl
@[simp] theorem cls_modExit (i : Fin 16) (f : ExitRecord → ExitRecord) (j : Fin 8) : (s.modExit i f).cls j = s.cls j := rfl
@[simp] theorem door_modExit (i : Fin 16) (f : ExitRecord → ExitRecord) (j : Fin 48) : (s.modExit i f).door j = s.door j := rfl
@[simp] theorem point_modExit (i : Fin 16) (f : ExitRecord → ExitRecord) (j : Fin 64) : (s.modExit i f).point j = s.point j := rfl
@[simp] theorem desk_modExit (i : Fin 16) (f : ExitRecord → ExitRecord) (j : Fin 8) : (s.modExit i f).desk j = s.desk j := rfl
@[simp] theorem sign_modExit (i : Fin 16) (f : ExitRecord → ExitRecord) (j : Fin 96) : (s.modExit i f).sign j = s.sign j := rfl
@[simp] theorem channel_modExit (i : Fin 16) (f : ExitRecord → ExitRecord) (j : Fin 276) : (s.modExit i f).channel j = s.channel j := rfl
@[simp] theorem port_modExit (i : Fin 16) (f : ExitRecord → ExitRecord) (j : Station) : (s.modExit i f).port j = s.port j := rfl
theorem exit_modExit (i : Fin 16) (f : ExitRecord → ExitRecord) (j : Fin 16) :
    (s.modExit i f).exit j = if j = i then f (s.exit j) else s.exit j := Tbl.get_modify ..
@[simp] theorem exit_modExit_self (i : Fin 16) (f : ExitRecord → ExitRecord) : (s.modExit i f).exit i = f (s.exit i) := Tbl.get_modify_self ..
@[simp] theorem slot_modExit (i : Fin 16) (f : ExitRecord → ExitRecord) (l : Fin 4) (m : Fin 48) : (s.modExit i f).slot l m = s.slot l m := rfl

/-! ### modChannel -/

@[simp] theorem modChannel_part (i : Fin 276) (f : Channel → Channel) : (s.modChannel i f).part = s.part := rfl
@[simp] theorem modChannel_seconds (i : Fin 276) (f : Channel → Channel) : (s.modChannel i f).seconds = s.seconds := rfl
@[simp] theorem modChannel_zones (i : Fin 276) (f : Channel → Channel) : (s.modChannel i f).zones = s.zones := rfl
@[simp] theorem modChannel_wings (i : Fin 276) (f : Channel → Channel) : (s.modChannel i f).wings = s.wings := rfl
@[simp] theorem modChannel_loops (i : Fin 276) (f : Channel → Channel) : (s.modChannel i f).loops = s.loops := rfl
@[simp] theorem modChannel_scanLists (i : Fin 276) (f : Channel → Channel) : (s.modChannel i f).scanLists = s.scanLists := rfl
@[simp] theorem modChannel_converterA (i : Fin 276) (f : Channel → Channel) : (s.modChannel i f).converterA = s.converterA := rfl
@[simp] theorem modChannel_converterB (i : Fin 276) (f : Channel → Channel) : (s.modChannel i f).converterB = s.converterB := rfl
@[simp] theorem modChannel_classes (i : Fin 276) (f : Channel → Channel) : (s.modChannel i f).classes = s.classes := rfl
@[simp] theorem modChannel_detectors (i : Fin 276) (f : Channel → Channel) : (s.modChannel i f).detectors = s.detectors := rfl
@[simp] theorem modChannel_doors (i : Fin 276) (f : Channel → Channel) : (s.modChannel i f).doors = s.doors := rfl
@[simp] theorem modChannel_points (i : Fin 276) (f : Channel → Channel) : (s.modChannel i f).points = s.points := rfl
@[simp] theorem modChannel_callQueue (i : Fin 276) (f : Channel → Channel) : (s.modChannel i f).callQueue = s.callQueue := rfl
@[simp] theorem modChannel_desks (i : Fin 276) (f : Channel → Channel) : (s.modChannel i f).desks = s.desks := rfl
@[simp] theorem modChannel_exits (i : Fin 276) (f : Channel → Channel) : (s.modChannel i f).exits = s.exits := rfl
@[simp] theorem modChannel_descriptors (i : Fin 276) (f : Channel → Channel) : (s.modChannel i f).descriptors = s.descriptors := rfl
@[simp] theorem modChannel_routeLists (i : Fin 276) (f : Channel → Channel) : (s.modChannel i f).routeLists = s.routeLists := rfl
@[simp] theorem modChannel_signs (i : Fin 276) (f : Channel → Channel) : (s.modChannel i f).signs = s.signs := rfl
@[simp] theorem modChannel_engine (i : Fin 276) (f : Channel → Channel) : (s.modChannel i f).engine = s.engine := rfl
@[simp] theorem modChannel_log (i : Fin 276) (f : Channel → Channel) : (s.modChannel i f).log = s.log := rfl
@[simp] theorem modChannel_nextSequence (i : Fin 276) (f : Channel → Channel) : (s.modChannel i f).nextSequence = s.nextSequence := rfl
@[simp] theorem modChannel_routing (i : Fin 276) (f : Channel → Channel) : (s.modChannel i f).routing = s.routing := rfl
@[simp] theorem modChannel_authority (i : Fin 276) (f : Channel → Channel) : (s.modChannel i f).authority = s.authority := rfl
@[simp] theorem modChannel_ports (i : Fin 276) (f : Channel → Channel) : (s.modChannel i f).ports = s.ports := rfl
@[simp] theorem modChannel_rotation (i : Fin 276) (f : Channel → Channel) : (s.modChannel i f).rotation = s.rotation := rfl
@[simp] theorem modChannel_fireBurst (i : Fin 276) (f : Channel → Channel) : (s.modChannel i f).fireBurst = s.fireBurst := rfl
@[simp] theorem modChannel_lastQuery (i : Fin 276) (f : Channel → Channel) : (s.modChannel i f).lastQuery = s.lastQuery := rfl
@[simp] theorem modChannel_fieldOut (i : Fin 276) (f : Channel → Channel) : (s.modChannel i f).fieldOut = s.fieldOut := rfl
@[simp] theorem modChannel_stationOut (i : Fin 276) (f : Channel → Channel) : (s.modChannel i f).stationOut = s.stationOut := rfl
@[simp] theorem modChannel_pending (i : Fin 276) (f : Channel → Channel) : (s.modChannel i f).pending = s.pending := rfl
@[simp] theorem zone_modChannel (i : Fin 276) (f : Channel → Channel) (j : Fin 64) : (s.modChannel i f).zone j = s.zone j := rfl
@[simp] theorem wing_modChannel (i : Fin 276) (f : Channel → Channel) (j : Fin 4) : (s.modChannel i f).wing j = s.wing j := rfl
@[simp] theorem loop_modChannel (i : Fin 276) (f : Channel → Channel) (j : Fin 4) : (s.modChannel i f).loop j = s.loop j := rfl
@[simp] theorem detector_modChannel (i : Fin 276) (f : Channel → Channel) (j : Fin 192) : (s.modChannel i f).detector j = s.detector j := rfl
@[simp] theorem cls_modChannel (i : Fin 276) (f : Channel → Channel) (j : Fin 8) : (s.modChannel i f).cls j = s.cls j := rfl
@[simp] theorem door_modChannel (i : Fin 276) (f : Channel → Channel) (j : Fin 48) : (s.modChannel i f).door j = s.door j := rfl
@[simp] theorem point_modChannel (i : Fin 276) (f : Channel → Channel) (j : Fin 64) : (s.modChannel i f).point j = s.point j := rfl
@[simp] theorem desk_modChannel (i : Fin 276) (f : Channel → Channel) (j : Fin 8) : (s.modChannel i f).desk j = s.desk j := rfl
@[simp] theorem exit_modChannel (i : Fin 276) (f : Channel → Channel) (j : Fin 16) : (s.modChannel i f).exit j = s.exit j := rfl
@[simp] theorem sign_modChannel (i : Fin 276) (f : Channel → Channel) (j : Fin 96) : (s.modChannel i f).sign j = s.sign j := rfl
@[simp] theorem port_modChannel (i : Fin 276) (f : Channel → Channel) (j : Station) : (s.modChannel i f).port j = s.port j := rfl
theorem channel_modChannel (i : Fin 276) (f : Channel → Channel) (j : Fin 276) :
    (s.modChannel i f).channel j = if j = i then f (s.channel j) else s.channel j := Tbl.get_modify ..
@[simp] theorem channel_modChannel_self (i : Fin 276) (f : Channel → Channel) : (s.modChannel i f).channel i = f (s.channel i) := Tbl.get_modify_self ..
@[simp] theorem slot_modChannel (i : Fin 276) (f : Channel → Channel) (l : Fin 4) (m : Fin 48) : (s.modChannel i f).slot l m = s.slot l m := rfl

/-! ### putSlot -/

@[simp] theorem putSlot_part (i : Fin 4) (k : Fin 48) (x : ScanSlot) : (s.putSlot i k x).part = s.part := rfl
@[simp] theorem putSlot_seconds (i : Fin 4) (k : Fin 48) (x : ScanSlot) : (s.putSlot i k x).seconds = s.seconds := rfl
@[simp] theorem putSlot_zones (i : Fin 4) (k : Fin 48) (x : ScanSlot) : (s.putSlot i k x).zones = s.zones := rfl
@[simp] theorem putSlot_wings (i : Fin 4) (k : Fin 48) (x : ScanSlot) : (s.putSlot i k x).wings = s.wings := rfl
@[simp] theorem putSlot_loops (i : Fin 4) (k : Fin 48) (x : ScanSlot) : (s.putSlot i k x).loops = s.loops := rfl
@[simp] theorem putSlot_converterA (i : Fin 4) (k : Fin 48) (x : ScanSlot) : (s.putSlot i k x).converterA = s.converterA := rfl
@[simp] theorem putSlot_converterB (i : Fin 4) (k : Fin 48) (x : ScanSlot) : (s.putSlot i k x).converterB = s.converterB := rfl
@[simp] theorem putSlot_classes (i : Fin 4) (k : Fin 48) (x : ScanSlot) : (s.putSlot i k x).classes = s.classes := rfl
@[simp] theorem putSlot_detectors (i : Fin 4) (k : Fin 48) (x : ScanSlot) : (s.putSlot i k x).detectors = s.detectors := rfl
@[simp] theorem putSlot_doors (i : Fin 4) (k : Fin 48) (x : ScanSlot) : (s.putSlot i k x).doors = s.doors := rfl
@[simp] theorem putSlot_points (i : Fin 4) (k : Fin 48) (x : ScanSlot) : (s.putSlot i k x).points = s.points := rfl
@[simp] theorem putSlot_callQueue (i : Fin 4) (k : Fin 48) (x : ScanSlot) : (s.putSlot i k x).callQueue = s.callQueue := rfl
@[simp] theorem putSlot_desks (i : Fin 4) (k : Fin 48) (x : ScanSlot) : (s.putSlot i k x).desks = s.desks := rfl
@[simp] theorem putSlot_exits (i : Fin 4) (k : Fin 48) (x : ScanSlot) : (s.putSlot i k x).exits = s.exits := rfl
@[simp] theorem putSlot_descriptors (i : Fin 4) (k : Fin 48) (x : ScanSlot) : (s.putSlot i k x).descriptors = s.descriptors := rfl
@[simp] theorem putSlot_routeLists (i : Fin 4) (k : Fin 48) (x : ScanSlot) : (s.putSlot i k x).routeLists = s.routeLists := rfl
@[simp] theorem putSlot_signs (i : Fin 4) (k : Fin 48) (x : ScanSlot) : (s.putSlot i k x).signs = s.signs := rfl
@[simp] theorem putSlot_engine (i : Fin 4) (k : Fin 48) (x : ScanSlot) : (s.putSlot i k x).engine = s.engine := rfl
@[simp] theorem putSlot_channels (i : Fin 4) (k : Fin 48) (x : ScanSlot) : (s.putSlot i k x).channels = s.channels := rfl
@[simp] theorem putSlot_log (i : Fin 4) (k : Fin 48) (x : ScanSlot) : (s.putSlot i k x).log = s.log := rfl
@[simp] theorem putSlot_nextSequence (i : Fin 4) (k : Fin 48) (x : ScanSlot) : (s.putSlot i k x).nextSequence = s.nextSequence := rfl
@[simp] theorem putSlot_routing (i : Fin 4) (k : Fin 48) (x : ScanSlot) : (s.putSlot i k x).routing = s.routing := rfl
@[simp] theorem putSlot_authority (i : Fin 4) (k : Fin 48) (x : ScanSlot) : (s.putSlot i k x).authority = s.authority := rfl
@[simp] theorem putSlot_ports (i : Fin 4) (k : Fin 48) (x : ScanSlot) : (s.putSlot i k x).ports = s.ports := rfl
@[simp] theorem putSlot_rotation (i : Fin 4) (k : Fin 48) (x : ScanSlot) : (s.putSlot i k x).rotation = s.rotation := rfl
@[simp] theorem putSlot_fireBurst (i : Fin 4) (k : Fin 48) (x : ScanSlot) : (s.putSlot i k x).fireBurst = s.fireBurst := rfl
@[simp] theorem putSlot_lastQuery (i : Fin 4) (k : Fin 48) (x : ScanSlot) : (s.putSlot i k x).lastQuery = s.lastQuery := rfl
@[simp] theorem putSlot_fieldOut (i : Fin 4) (k : Fin 48) (x : ScanSlot) : (s.putSlot i k x).fieldOut = s.fieldOut := rfl
@[simp] theorem putSlot_stationOut (i : Fin 4) (k : Fin 48) (x : ScanSlot) : (s.putSlot i k x).stationOut = s.stationOut := rfl
@[simp] theorem putSlot_pending (i : Fin 4) (k : Fin 48) (x : ScanSlot) : (s.putSlot i k x).pending = s.pending := rfl
@[simp] theorem zone_putSlot (i : Fin 4) (k : Fin 48) (x : ScanSlot) (j : Fin 64) : (s.putSlot i k x).zone j = s.zone j := rfl
@[simp] theorem wing_putSlot (i : Fin 4) (k : Fin 48) (x : ScanSlot) (j : Fin 4) : (s.putSlot i k x).wing j = s.wing j := rfl
@[simp] theorem loop_putSlot (i : Fin 4) (k : Fin 48) (x : ScanSlot) (j : Fin 4) : (s.putSlot i k x).loop j = s.loop j := rfl
@[simp] theorem detector_putSlot (i : Fin 4) (k : Fin 48) (x : ScanSlot) (j : Fin 192) : (s.putSlot i k x).detector j = s.detector j := rfl
@[simp] theorem cls_putSlot (i : Fin 4) (k : Fin 48) (x : ScanSlot) (j : Fin 8) : (s.putSlot i k x).cls j = s.cls j := rfl
@[simp] theorem door_putSlot (i : Fin 4) (k : Fin 48) (x : ScanSlot) (j : Fin 48) : (s.putSlot i k x).door j = s.door j := rfl
@[simp] theorem point_putSlot (i : Fin 4) (k : Fin 48) (x : ScanSlot) (j : Fin 64) : (s.putSlot i k x).point j = s.point j := rfl
@[simp] theorem desk_putSlot (i : Fin 4) (k : Fin 48) (x : ScanSlot) (j : Fin 8) : (s.putSlot i k x).desk j = s.desk j := rfl
@[simp] theorem exit_putSlot (i : Fin 4) (k : Fin 48) (x : ScanSlot) (j : Fin 16) : (s.putSlot i k x).exit j = s.exit j := rfl
@[simp] theorem sign_putSlot (i : Fin 4) (k : Fin 48) (x : ScanSlot) (j : Fin 96) : (s.putSlot i k x).sign j = s.sign j := rfl
@[simp] theorem channel_putSlot (i : Fin 4) (k : Fin 48) (x : ScanSlot) (j : Fin 276) : (s.putSlot i k x).channel j = s.channel j := rfl
@[simp] theorem port_putSlot (i : Fin 4) (k : Fin 48) (x : ScanSlot) (j : Station) : (s.putSlot i k x).port j = s.port j := rfl
theorem slot_putSlot (i : Fin 4) (k : Fin 48) (x : ScanSlot) (l : Fin 4) (m : Fin 48) :
    (s.putSlot i k x).slot l m = if l = i ∧ m = k then x else s.slot l m := by
  simp only [putSlot, slot, Tbl.get_modify]
  split <;> simp_all [Tbl.get_set]

/-! ### modPort -/

@[simp] theorem modPort_part (i : Station) (f : Port → Port) : (s.modPort i f).part = s.part := rfl
@[simp] theorem modPort_seconds (i : Station) (f : Port → Port) : (s.modPort i f).seconds = s.seconds := rfl
@[simp] theorem modPort_zones (i : Station) (f : Port → Port) : (s.modPort i f).zones = s.zones := rfl
@[simp] theorem modPort_wings (i : Station) (f : Port → Port) : (s.modPort i f).wings = s.wings := rfl
@[simp] theorem modPort_loops (i : Station) (f : Port → Port) : (s.modPort i f).loops = s.loops := rfl
@[simp] theorem modPort_scanLists (i : Station) (f : Port → Port) : (s.modPort i f).scanLists = s.scanLists := rfl
@[simp] theorem modPort_converterA (i : Station) (f : Port → Port) : (s.modPort i f).converterA = s.converterA := rfl
@[simp] theorem modPort_converterB (i : Station) (f : Port → Port) : (s.modPort i f).converterB = s.converterB := rfl
@[simp] theorem modPort_classes (i : Station) (f : Port → Port) : (s.modPort i f).classes = s.classes := rfl
@[simp] theorem modPort_detectors (i : Station) (f : Port → Port) : (s.modPort i f).detectors = s.detectors := rfl
@[simp] theorem modPort_doors (i : Station) (f : Port → Port) : (s.modPort i f).doors = s.doors := rfl
@[simp] theorem modPort_points (i : Station) (f : Port → Port) : (s.modPort i f).points = s.points := rfl
@[simp] theorem modPort_callQueue (i : Station) (f : Port → Port) : (s.modPort i f).callQueue = s.callQueue := rfl
@[simp] theorem modPort_desks (i : Station) (f : Port → Port) : (s.modPort i f).desks = s.desks := rfl
@[simp] theorem modPort_exits (i : Station) (f : Port → Port) : (s.modPort i f).exits = s.exits := rfl
@[simp] theorem modPort_descriptors (i : Station) (f : Port → Port) : (s.modPort i f).descriptors = s.descriptors := rfl
@[simp] theorem modPort_routeLists (i : Station) (f : Port → Port) : (s.modPort i f).routeLists = s.routeLists := rfl
@[simp] theorem modPort_signs (i : Station) (f : Port → Port) : (s.modPort i f).signs = s.signs := rfl
@[simp] theorem modPort_engine (i : Station) (f : Port → Port) : (s.modPort i f).engine = s.engine := rfl
@[simp] theorem modPort_channels (i : Station) (f : Port → Port) : (s.modPort i f).channels = s.channels := rfl
@[simp] theorem modPort_log (i : Station) (f : Port → Port) : (s.modPort i f).log = s.log := rfl
@[simp] theorem modPort_nextSequence (i : Station) (f : Port → Port) : (s.modPort i f).nextSequence = s.nextSequence := rfl
@[simp] theorem modPort_routing (i : Station) (f : Port → Port) : (s.modPort i f).routing = s.routing := rfl
@[simp] theorem modPort_authority (i : Station) (f : Port → Port) : (s.modPort i f).authority = s.authority := rfl
@[simp] theorem modPort_rotation (i : Station) (f : Port → Port) : (s.modPort i f).rotation = s.rotation := rfl
@[simp] theorem modPort_fireBurst (i : Station) (f : Port → Port) : (s.modPort i f).fireBurst = s.fireBurst := rfl
@[simp] theorem modPort_lastQuery (i : Station) (f : Port → Port) : (s.modPort i f).lastQuery = s.lastQuery := rfl
@[simp] theorem modPort_fieldOut (i : Station) (f : Port → Port) : (s.modPort i f).fieldOut = s.fieldOut := rfl
@[simp] theorem modPort_stationOut (i : Station) (f : Port → Port) : (s.modPort i f).stationOut = s.stationOut := rfl
@[simp] theorem modPort_pending (i : Station) (f : Port → Port) : (s.modPort i f).pending = s.pending := rfl
@[simp] theorem zone_modPort (i : Station) (f : Port → Port) (j : Fin 64) : (s.modPort i f).zone j = s.zone j := rfl
@[simp] theorem wing_modPort (i : Station) (f : Port → Port) (j : Fin 4) : (s.modPort i f).wing j = s.wing j := rfl
@[simp] theorem loop_modPort (i : Station) (f : Port → Port) (j : Fin 4) : (s.modPort i f).loop j = s.loop j := rfl
@[simp] theorem detector_modPort (i : Station) (f : Port → Port) (j : Fin 192) : (s.modPort i f).detector j = s.detector j := rfl
@[simp] theorem cls_modPort (i : Station) (f : Port → Port) (j : Fin 8) : (s.modPort i f).cls j = s.cls j := rfl
@[simp] theorem door_modPort (i : Station) (f : Port → Port) (j : Fin 48) : (s.modPort i f).door j = s.door j := rfl
@[simp] theorem point_modPort (i : Station) (f : Port → Port) (j : Fin 64) : (s.modPort i f).point j = s.point j := rfl
@[simp] theorem desk_modPort (i : Station) (f : Port → Port) (j : Fin 8) : (s.modPort i f).desk j = s.desk j := rfl
@[simp] theorem exit_modPort (i : Station) (f : Port → Port) (j : Fin 16) : (s.modPort i f).exit j = s.exit j := rfl
@[simp] theorem sign_modPort (i : Station) (f : Port → Port) (j : Fin 96) : (s.modPort i f).sign j = s.sign j := rfl
@[simp] theorem channel_modPort (i : Station) (f : Port → Port) (j : Fin 276) : (s.modPort i f).channel j = s.channel j := rfl
theorem port_modPort (i : Station) (f : Port → Port) (j : Station) :
    (s.modPort i f).port j = if j = i then f (s.port j) else s.port j := by
  cases i <;> cases j <;> rfl
@[simp] theorem port_modPort_self (i : Station) (f : Port → Port) : (s.modPort i f).port i = f (s.port i) := by
  cases i <;> rfl
@[simp] theorem slot_modPort (i : Station) (f : Port → Port) (l : Fin 4) (m : Fin 48) : (s.modPort i f).slot l m = s.slot l m := rfl

end Sys2Proof.Machine.State
end

