-- ==== Sys2Proof/Laws/Frames.lean ====
section
/-! SUPPORT. How frames and log extensions compose, and what each operation of Machine/Ops.lean changes. -/

set_option autoImplicit false

namespace Sys2Proof.Machine

/-! ### Frames -/

theorem Same.refl (s : State) (p : Piece) : Same s s p := by cases p <;> simp [Same]

theorem Same.trans {s t u : State} {p : Piece} (h : Same s t p) (k : Same t u p) : Same s u p := by
  cases p <;> simp_all [Same]

theorem OnlyIn.refl (ps : List Piece) (s : State) : OnlyIn ps s s := fun p _ => Same.refl s p

theorem OnlyIn.trans {ps : List Piece} {s t u : State} (h : OnlyIn ps s t) (k : OnlyIn ps t u) : OnlyIn ps s u :=
  fun p hp => (h p hp).trans (k p hp)

/-- A frame over more pieces follows from one over fewer. -/
theorem OnlyIn.mono {ps qs : List Piece} {s t : State} (h : OnlyIn ps s t) (k : ∀ p ∈ ps, p ∈ qs) : OnlyIn qs s t :=
  fun p hp => h p fun hm => hp (k p hm)

/-- Two changes in a row stay within the pieces of both. -/
theorem OnlyIn.andThen {ps qs rs : List Piece} {s t u : State} (h : OnlyIn ps s t) (k : OnlyIn qs t u)
    (hp : ∀ p ∈ ps, p ∈ rs) (hq : ∀ p ∈ qs, p ∈ rs) : OnlyIn rs s u :=
  (h.mono hp).trans (k.mono hq)

/-- A fold stays within the pieces that each of its steps stays within. -/
theorem OnlyIn.foldl {α : Type} {ps : List Piece} {f : State → α → State} (h : ∀ s x, OnlyIn ps s (f s x)) :
    ∀ (xs : List α) (s : State), OnlyIn ps s (xs.foldl f s)
  | [], s => OnlyIn.refl ps s
  | x :: xs, s => (h s x).trans (OnlyIn.foldl h xs (f s x))

/-- A frame is decided piece by piece. -/
theorem onlyIn_of {ps : List Piece} {s t : State} (h : ∀ p : Piece, p ∈ ps ∨ Same s t p) : OnlyIn ps s t :=
  fun p hp => (h p).resolve_left hp

theorem modZone_onlyIn (s : State) (z : Fin 64) (f : Zone → Zone) : OnlyIn [.zones] s (s.modZone z f) :=
  onlyIn_of fun p => by cases p <;> simp [Same]

theorem modWing_onlyIn (s : State) (w : Fin 4) (f : Wing → Wing) : OnlyIn [.wings] s (s.modWing w f) :=
  onlyIn_of fun p => by cases p <;> simp [Same]

theorem modLoop_onlyIn (s : State) (l : Fin 4) (f : Loop → Loop) : OnlyIn [.loops] s (s.modLoop l f) :=
  onlyIn_of fun p => by cases p <;> simp [Same]

theorem putDetector_onlyIn (s : State) (n : Fin 192) (x : Option Detector) :
    OnlyIn [.detectors] s (s.putDetector n x) :=
  onlyIn_of fun p => by cases p <;> simp [Same]

theorem modDoor_onlyIn (s : State) (n : Fin 48) (f : Door → Door) : OnlyIn [.doors] s (s.modDoor n f) :=
  onlyIn_of fun p => by cases p <;> simp [Same]

theorem modPoint_onlyIn (s : State) (c : Fin 64) (f : CallPoint → CallPoint) : OnlyIn [.points] s (s.modPoint c f) :=
  onlyIn_of fun p => by cases p <;> simp [Same]

theorem modDesk_onlyIn (s : State) (k : Fin 8) (f : Desk → Desk) : OnlyIn [.desks] s (s.modDesk k f) :=
  onlyIn_of fun p => by cases p <;> simp [Same]

theorem modExit_onlyIn (s : State) (e : Fin 16) (f : ExitRecord → ExitRecord) : OnlyIn [.exits] s (s.modExit e f) :=
  onlyIn_of fun p => by cases p <;> simp [Same]

theorem modChannel_onlyIn (s : State) (n : Fin 276) (f : Channel → Channel) :
    OnlyIn [.channels] s (s.modChannel n f) :=
  onlyIn_of fun p => by cases p <;> simp [Same]

theorem putSlot_onlyIn (s : State) (l : Fin 4) (k : Fin 48) (x : ScanSlot) :
    OnlyIn [.scanLists] s (s.putSlot l k x) :=
  onlyIn_of fun p => by cases p <;> simp [Same]

theorem modPort_onlyIn (s : State) (st : Station) (f : Port → Port) : OnlyIn [.ports] s (s.modPort st f) :=
  onlyIn_of fun p => by cases p <;> simp [Same]

theorem writeSource_onlyIn (s : State) (n : Fin 276) (v : ChannelValue) : OnlyIn [.channels] s (writeSource s n v) :=
  modChannel_onlyIn s n _

theorem trigger_onlyIn (s : State) : OnlyIn [.engine] s (trigger s) :=
  onlyIn_of fun p => by cases p <;> simp [Same, trigger] <;> split <;> simp

/-! ### Output channels -/

/-- What a write of a source value does to the channels (R149). -/
theorem channel_writeSource (s : State) (n m : Fin 276) (v : ChannelValue) :
    (writeSource s n v).channel m = if m = n then withSource v (s.channel m) else s.channel m :=
  State.channel_modChannel ..

@[simp] theorem withSource_source (v : ChannelValue) (c : Channel) : (withSource v c).source = v := by
  simp only [withSource]; split <;> rfl

/-- A write of a source value leaves a lawful channel lawful (R149). -/
theorem withSource_lawful (v : ChannelValue) (c : Channel) : (withSource v c).lawful := by
  cases h : c.latch <;> cases k : c.drive <;> simp [withSource, h, k, takeEffective, effectiveOf, Channel.lawful]

/-- A write keeps all but the values. -/
@[simp] theorem withSource_kept (v : ChannelValue) (c : Channel) : (withSource v c).kept = c.kept := by
  cases h : c.latch <;> simp [withSource, h, takeEffective, Channel.kept]

/-- What one trigger leaves of the route engine (R137), in service. -/
theorem trigger_engine (s : State) :
    (trigger s).engine = if s.inService then s.engine.triggered else s.engine := by
  simp only [trigger]; split <;> rfl

/-! ### The log -/

theorem Logged.refl (s : State) : Logged s s [] := rfl

/-- The entries of two changes in a row follow each other. -/
theorem Logged.trans {s t u : State} {xs ys : List LogItem} (h : Logged s t xs) (k : Logged t u ys)
    (hs : t.seconds = s.seconds) : Logged s u (xs ++ ys) := by
  simp only [Logged] at *
  rw [k, hs, h, List.foldl_append]

/-- A change that leaves the log alone logs nothing. -/
theorem logged_nil {s t : State} (h : t.log = s.log) (k : t.nextSequence = s.nextSequence) : Logged s t [] := by
  simp [Logged, h, k]

/-- A change that leaves the log alone keeps what was logged before it. -/
theorem Logged.keep {s t u : State} {xs : List LogItem} (h : Logged s t xs) (k : Same t u .log) : Logged s u xs := by
  simp only [Logged, Same] at *
  rw [k.1, k.2, h]

theorem Logged.first {s t : State} {xs : List LogItem} (h : Logged s t xs) : LoggedFirst s t xs :=
  ⟨[], by simpa using h⟩

theorem LoggedFirst.andThen {s t u : State} {xs ys : List LogItem} (h : LoggedFirst s t xs) (k : Logged t u ys)
    (hs : t.seconds = s.seconds) : LoggedFirst s u xs := by
  obtain ⟨more, hm⟩ := h
  exact ⟨more ++ ys, by rw [← List.append_assoc]; exact hm.trans k hs⟩

/-! ### Appending an entry (R158 to R163) -/

@[simp] theorem offerNotice_link (n : Notice) (p : Port) : (offerNotice n p).link = p.link := by
  simp only [offerNotice]; split <;> (try split) <;> rfl

@[simp] theorem offerNotice_received (n : Notice) (p : Port) : (offerNotice n p).received = p.received := by
  simp only [offerNotice]; split <;> (try split) <;> rfl

@[simp] theorem offerNotice_commands (n : Notice) (p : Port) : (offerNotice n p).commands = p.commands := by
  simp only [offerNotice]; split <;> (try split) <;> rfl

@[simp] theorem offerNotice_queries (n : Notice) (p : Port) : (offerNotice n p).queries = p.queries := by
  simp only [offerNotice]; split <;> (try split) <;> rfl

@[simp] theorem offerNotice_replies (n : Notice) (p : Port) : (offerNotice n p).replies = p.replies := by
  simp only [offerNotice]; split <;> (try split) <;> rfl

@[simp] theorem offerNotice_sending (n : Notice) (p : Port) : (offerNotice n p).sending = p.sending := by
  simp only [offerNotice]; split <;> (try split) <;> rfl

theorem offerTo_get (x : StationSet) (n : Notice) (p : Ports) (st : Station) :
    (offerTo x n p).get st = if x.has st then offerNotice n (p.get st) else p.get st := by
  cases st <;> rfl

@[simp] theorem setGaps_get (p : Ports) (st : Station) : (setGaps p).get st = { p.get st with gap := true } := by
  cases st <;> rfl

theorem wrapSequence_onlyIn (s : State) : OnlyIn [.log, .ports] s (wrapSequence s) :=
  onlyIn_of fun p => by cases p <;> simp [Same, wrapSequence] <;> split <;> simp

theorem stampWing_onlyIn (s : State) (w : Option (Fin 4)) : OnlyIn [.wings] s (stampWing s w) := by
  cases w with
  | none => exact OnlyIn.refl _ s
  | some w => exact modWing_onlyIn s w _

/-- An append changes wings' revisions, the log and the ports' notices alone. -/
theorem append_onlyIn (s : State) (k : EntryKind) (x : Subject) (w : Option (Fin 4)) (d : Detail) :
    OnlyIn [.wings, .log, .ports] s (append s k x w d) := by
  refine onlyIn_of fun p => ?_
  cases w <;> cases p <;> simp [Same, append, sendNotices, recordEntry, stampWing, wrapSequence] <;> split <;> simp

@[simp] theorem append_seconds (s : State) (k : EntryKind) (x : Subject) (w : Option (Fin 4)) (d : Detail) :
    (append s k x w d).seconds = s.seconds := append_onlyIn s k x w d .seconds (by decide)

/-- An append stamps the wing it names (R12) and leaves every wing else alone. -/
theorem append_wing (s : State) (k : EntryKind) (x : Subject) (w : Option (Fin 4)) (d : Detail) (v : Fin 4) :
    (append s k x w d).wing v
      = if w = some v then { s.wing v with revision := (s.wing v).revision + 1 } else s.wing v := by
  have hw : (wrapSequence s).wings = s.wings := wrapSequence_onlyIn s .wings (by decide)
  cases w with
  | none => simp [append, sendNotices, recordEntry, stampWing, State.wing, hw]
  | some w =>
    simp only [append, sendNotices, recordEntry, stampWing, State.wing, State.modWing, Tbl.get_modify, hw,
      Option.some.injEq, eq_comm]

/-- An append adds its one entry to the log (R158, R159). -/
theorem append_logged (s : State) (k : EntryKind) (x : Subject) (w : Option (Fin 4)) (d : Detail) :
    Logged s (append s k x w d) [{ kind := k, subject := x, wing := w, detail := d }] := by
  by_cases h : s.nextSequence > Config.sequenceMax <;> cases w <;>
    simp [Logged, append, sendNotices, recordEntry, stampWing, wrapSequence, pushEntry, LogState.extend, h]

/-- An append leaves the links, the requests and the replies of the ports alone. -/
theorem append_portsQuiet (s : State) (k : EntryKind) (x : Subject) (w : Option (Fin 4)) (d : Detail) :
    PortsQuiet s (append s k x w d) := by
  intro st
  have key : ∀ (y : StationSet) (n : Notice) (p : Ports), (∀ st, (p.get st).link = (s.port st).link
      ∧ (p.get st).received = (s.port st).received ∧ (p.get st).commands = (s.port st).commands
      ∧ (p.get st).queries = (s.port st).queries ∧ (p.get st).replies = (s.port st).replies) →
      ((offerTo y n p).get st).link = (s.port st).link
      ∧ ((offerTo y n p).get st).received = (s.port st).received
      ∧ ((offerTo y n p).get st).commands = (s.port st).commands
      ∧ ((offerTo y n p).get st).queries = (s.port st).queries
      ∧ ((offerTo y n p).get st).replies = (s.port st).replies := by
    intro y n p hp
    rw [offerTo_get]
    split <;> simpa using hp st
  have hp : ∀ st, ((wrapSequence s).ports.get st).link = (s.port st).link
      ∧ ((wrapSequence s).ports.get st).received = (s.port st).received
      ∧ ((wrapSequence s).ports.get st).commands = (s.port st).commands
      ∧ ((wrapSequence s).ports.get st).queries = (s.port st).queries
      ∧ ((wrapSequence s).ports.get st).replies = (s.port st).replies := by
    intro st
    simp only [wrapSequence]
    split <;> simp [State.port]
  cases w <;> exact key _ _ _ hp

theorem PortsQuiet.refl (s : State) : PortsQuiet s s := fun _ => ⟨rfl, rfl, rfl, rfl, rfl⟩

theorem PortsQuiet.trans {s t u : State} (h : PortsQuiet s t) (k : PortsQuiet t u) : PortsQuiet s u := fun st =>
  ⟨(k st).1.trans (h st).1, (k st).2.1.trans (h st).2.1, (k st).2.2.1.trans (h st).2.2.1,
    (k st).2.2.2.1.trans (h st).2.2.2.1, (k st).2.2.2.2.trans (h st).2.2.2.2⟩

/-- Ports left alone are quiet. -/
theorem PortsQuiet.of_same {s t : State} (h : Same s t .ports) : PortsQuiet s t := fun st => by
  simp only [Same] at h
  simp [State.port, h]

theorem PortsQuiet.foldl {α : Type} {f : State → α → State} (h : ∀ s x, PortsQuiet s (f s x)) :
    ∀ (xs : List α) (s : State), PortsQuiet s (xs.foldl f s)
  | [], s => PortsQuiet.refl s
  | x :: xs, s => (h s x).trans (PortsQuiet.foldl h xs (f s x))

end Sys2Proof.Machine
end

