-- ==== Sys2Proof/Laws/Blocks.lean ====
section
/-! SUPPORT. What the operations that several commands share change: the Presence and Arming Unit, the Output
Stage, the Call Unit and the Fire Sequence Unit, each with the pieces it stays within and the ports it leaves quiet. -/

set_option autoImplicit false

namespace Sys2Proof.Machine

/-- A change that stays within `ps` and leaves the requests, replies and links of the ports alone. -/
def Within (ps : List Piece) (s t : State) : Prop := OnlyIn ps s t ∧ PortsQuiet s t

namespace Within

theorem refl (ps : List Piece) (s : State) : Within ps s s := ⟨OnlyIn.refl ps s, PortsQuiet.refl s⟩

theorem trans {ps : List Piece} {s t u : State} (h : Within ps s t) (k : Within ps t u) : Within ps s u :=
  ⟨h.1.trans k.1, h.2.trans k.2⟩

theorem mono {ps qs : List Piece} {s t : State} (h : Within ps s t) (k : ∀ p ∈ ps, p ∈ qs) : Within qs s t :=
  ⟨h.1.mono k, h.2⟩

theorem foldl {α : Type} {ps : List Piece} {f : State → α → State} (h : ∀ s x, Within ps s (f s x)) (xs : List α)
    (s : State) : Within ps s (xs.foldl f s) :=
  ⟨OnlyIn.foldl (fun s x => (h s x).1) xs s, PortsQuiet.foldl (fun s x => (h s x).2) xs s⟩

/-- A change of other pieces leaves the ports quiet. -/
theorem of_onlyIn {ps : List Piece} {s t : State} (h : OnlyIn ps s t) (hp : Piece.ports ∉ ps) : Within ps s t :=
  ⟨h, PortsQuiet.of_same (h .ports hp)⟩

end Within

/-! ### The log -/

/-- The pieces an entry reaches. -/
def logward : List Piece := [.wings, .log, .ports]

theorem append_within (s : State) (k : EntryKind) (x : Subject) (w : Option (Fin 4)) (d : Detail) :
    Within logward s (append s k x w d) := ⟨append_onlyIn s k x w d, append_portsQuiet s k x w d⟩

theorem appendDoor_within (s : State) (k : EntryKind) (n : Fin 48) (d : Detail) :
    Within logward s (appendDoor s k n d) := by
  simp only [appendDoor]
  split
  · split
    · exact append_within s _ _ _ _
    · exact (append_within s _ _ _ _).trans (append_within _ _ _ _ _)
  · exact append_within s _ _ _ _

/-! ### The Presence and Arming Unit -/

/-- The pieces the security state and the activities of a zone reach. -/
def zoneward : List Piece := [.zones] ++ logward

theorem setSecurity_within (s : State) (z : Fin 64) (x : Security) : Within zoneward s (setSecurity s z x) :=
  (Within.of_onlyIn (modZone_onlyIn s z _) (by decide)).mono (by decide)

theorem setSecurity_append_within (s : State) (z : Fin 64) (x : Security) (k : EntryKind) (d : Detail) :
    Within zoneward s (appendZone (setSecurity s z x) k z d) :=
  (setSecurity_within s z x).trans ((append_within _ _ _ _ _).mono (by decide))

theorem securityTakes_within (s : State) (z : Fin 64) (a : ActivitySource) :
    Within zoneward s (securityTakes s z a) := by
  simp only [securityTakes, enterBreach]
  split
  · exact setSecurity_append_within ..
  · split
    · exact setSecurity_append_within ..
    · exact Within.refl _ s
    · exact Within.refl _ s
    · exact Within.refl _ s
  · exact Within.refl _ s
  · exact Within.refl _ s
  · exact Within.refl _ s

/-- An activity reaches zones, the log, wings' revisions and notices (R83). -/
theorem takeActivity_within (s : State) (z : Fin 64) (a : ActivitySource) :
    Within zoneward s (takeActivity s z a) := by
  simp only [takeActivity]
  split
  · split
    · exact Within.refl _ s
    · exact ((Within.of_onlyIn (modZone_onlyIn s z _) (by decide)).mono (by decide)).trans
        (securityTakes_within _ z a)
    · exact ((Within.of_onlyIn (modZone_onlyIn s z _) (by decide)).mono (by decide)).trans
        (securityTakes_within _ z a)
  · exact Within.refl _ s

theorem takeActivities_within (s : State) (zs : List (Fin 64)) (a : ActivitySource) :
    Within zoneward s (takeActivities s zs a) :=
  Within.foldl (fun t z => takeActivity_within t z a) zs s

theorem takeDoorEvent_within (s : State) (z : Fin 64) (b : BreachSource) :
    Within zoneward s (takeDoorEvent s z b) := by
  simp only [takeDoorEvent, enterBreach]
  split
  · exact setSecurity_append_within ..
  all_goals exact Within.refl _ s

theorem suspendZone_within (c : SuspendCause) (s : State) (z : Fin 64) :
    Within zoneward s (suspendZone c s z) := by
  simp only [suspendZone]
  split
  · exact setSecurity_append_within ..
  · exact setSecurity_append_within ..
  all_goals exact Within.refl _ s

theorem restoreZone_within (s : State) (z : Fin 64) : Within zoneward s (restoreZone s z) := by
  simp only [restoreZone]
  split
  · split <;> exact setSecurity_append_within ..
  all_goals exact Within.refl _ s

theorem suspendWing_within (s : State) (w : Fin 4) : Within zoneward s (suspendWing s w) :=
  Within.foldl (fun t z => suspendZone_within .stage t z) _ s

theorem restoreWing_within (s : State) (w : Fin 4) : Within zoneward s (restoreWing s w) :=
  Within.foldl (fun t z => restoreZone_within t z) _ s

/-! ### The Output Stage -/

/-- A wing that leaves STANDBY reaches its channels (R155). -/
theorem breakHolds_within (s : State) (w : Fin 4) : Within ([.channels] ++ logward) s (breakHolds s w) := by
  have h1 : Within ([.channels] ++ logward) s
      { s with channels := s.channels.map fun c => if c.wing = some w then returnChannel c else c } :=
    Within.of_onlyIn (ps := [.channels]) (onlyIn_of fun p => by cases p <;> simp [Same]) (by decide)
      |>.mono (by decide)
  have ha : ∀ t k d, Within ([.channels] ++ logward) t (appendWing t k w d) :=
    fun t k d => (append_within t _ _ _ _).mono (by decide)
  simp only [breakHolds]
  split <;> split
  · exact h1
  · exact h1.trans (ha _ _ _)
  · exact h1.trans (ha _ _ _)
  · exact (h1.trans (ha _ _ _)).trans (ha _ _ _)

/-! ### The Call Unit -/

/-- The pieces an offering round reaches. -/
def callward : List Piece := [.points, .desks] ++ logward

theorem setCall_within (s : State) (c : Fin 64) (h : HelpCall) : Within callward s (setCall s c h) :=
  (Within.of_onlyIn (modPoint_onlyIn s c _) (by decide)).mono (by decide)

theorem leaveDesk_within (s : State) (k : Fin 8) (c : Fin 64) : Within callward s (leaveDesk s k c) :=
  (Within.of_onlyIn (modDesk_onlyIn s k _) (by decide)).mono (by decide)

theorem offerCall_within (s : State) (c : Fin 64) (h : HelpCall) (p : Place) (k : Fin 8) :
    Within callward s (offerCall s c h p k) :=
  ((setCall_within s c _).trans ((Within.of_onlyIn (modDesk_onlyIn _ k _) (by decide)).mono (by decide))).trans
    ((append_within _ _ _ _ _).mono (by decide))

theorem offerOne_within (s : State) (c : Fin 64) : Within callward s (offerOne s c) := by
  simp only [offerOne]
  split
  · split
    · split
      · exact offerCall_within ..
      · exact Within.refl _ s
    all_goals exact Within.refl _ s
  · exact Within.refl _ s

/-- An offering round reaches points, desks, the log, wings' revisions and notices (R122). -/
theorem offeringRound_within (s : State) : Within callward s (offeringRound s) :=
  Within.foldl (fun t c => offerOne_within t c) _ s

theorem withdrawCall_within (s : State) (c : Fin 64) (h : HelpCall) (k : Fin 8) (n : Place) :
    Within callward s (withdrawCall s c h k n) :=
  ((leaveDesk_within s k c).trans (setCall_within _ c _)).trans ((append_within _ _ _ _ _).mono (by decide))

/-- The pieces an evacuation or a stand-down of calls reaches. -/
def queueward : List Piece := [.callQueue] ++ callward

theorem enqueueCall_within (s : State) (c : Fin 64) : Within queueward s (enqueueCall s c) :=
  Within.of_onlyIn (ps := [.callQueue]) (onlyIn_of fun p => by cases p <;> simp [Same, enqueueCall]) (by decide)
    |>.mono (by decide)

theorem dequeueCall_within (s : State) (c : Fin 64) : Within queueward s (dequeueCall s c) :=
  Within.of_onlyIn (ps := [.callQueue]) (onlyIn_of fun p => by cases p <;> simp [Same, dequeueCall]) (by decide)
    |>.mono (by decide)

/-- A call's new record takes its place in the queue, and an entry is appended. -/
theorem moveCall_within (s : State) (c : Fin 64) (h : HelpCall) (k : EntryKind) (d : Detail) :
    Within queueward s (appendPoint (enqueueCall (setCall s c h) c) k c d) :=
  (((setCall_within s c h).mono (by decide)).trans (enqueueCall_within _ c)).trans
    ((append_within _ _ _ _ _).mono (by decide))

theorem evacuateCall_within (w : Fin 4) (s : State) (c : Fin 64) : Within queueward s (evacuateCall w s c) := by
  simp only [evacuateCall]
  split
  · exact Within.refl _ s
  · split
    · exact (moveCall_within ..).trans ((setCall_within ..).mono (by decide))
    · split
      · exact (moveCall_within ..).trans ((setCall_within ..).mono (by decide))
      · exact (moveCall_within ..).trans ((withdrawCall_within ..).mono (by decide))
    · exact moveCall_within ..

theorem evacuateCalls_within (s : State) (w : Fin 4) : Within queueward s (evacuateCalls s w) :=
  Within.foldl (fun t c => evacuateCall_within w t c) _ s

/-- The round after an evacuation reaches what an offering round reaches. -/
theorem offerAfterEvacuation_within (b s : State) : Within callward s (offerAfterEvacuation b s) := by
  unfold offerAfterEvacuation
  split
  · exact offeringRound_within s
  · exact Within.refl _ s

/-- No round runs where no wing has entered EVACUATE. -/
theorem offerAfterEvacuation_of_same {b s : State}
    (h : ∀ w : Fin 4, s.evacuating w = true → b.evacuating w = true) : offerAfterEvacuation b s = s := by
  unfold offerAfterEvacuation
  rw [if_neg]
  simp only [List.any_eq_true, List.mem_finRange, true_and, Bool.and_eq_true, Bool.not_eq_true', not_exists, not_and]
  intro w hw
  simp [h w hw]

theorem standDownCalls_within (s : State) (w : Fin 4) : Within queueward s (standDownCalls s w) := by
  refine Within.foldl (fun t c => ?_) _ s
  simp only [standDownCall]
  split
  · exact Within.refl _ t
  · split
    · exact moveCall_within ..
    all_goals exact Within.refl _ t

/-! ### The Fire Sequence Unit -/

theorem trigger_within (s : State) : Within [.engine] s (trigger s) :=
  Within.of_onlyIn (trigger_onlyIn s) (by decide)

theorem sound_within (s : State) (w : Fin 4) : Within ([.channels] ++ logward) s (sound s w) :=
  (Within.of_onlyIn (writeSource_onlyIn s _ _) (by decide)).mono (by decide)

theorem refreshExits_within (s : State) (z : Fin 64) : Within [.exits, .engine] s (refreshExits s z) := by
  refine Within.foldl (fun t e => ?_) _ s
  simp only [refreshExit]
  split
  · exact ((Within.of_onlyIn (modExit_onlyIn t e _) (by decide)).mono (by decide)).trans
      ((trigger_within _).mono (by decide))
  · exact Within.refl _ t

/-- A write of a zone's fire state reaches the zone, its exits and the engine (R60, R132, R137). -/
theorem writeFire_within (s : State) (z : Fin 64) (f : FireState) :
    Within [.zones, .exits, .engine] s (writeFire s z f) := by
  simp only [writeFire]
  split
  · exact Within.refl _ s
  · exact (((Within.of_onlyIn (modZone_onlyIn s z _) (by decide)).mono (by decide)).trans
      ((trigger_within _).mono (by decide))).trans ((refreshExits_within _ z).mono (by decide))

theorem alertWing_within (v : Fin 4) (s : State) (w : Fin 4) :
    Within ([.channels] ++ logward) s (alertWing v s w) := by
  simp only [alertWing]
  split
  · exact (((Within.of_onlyIn (modWing_onlyIn s w _) (by decide)).mono (by decide)).trans
      ((append_within _ _ _ _ _).mono (by decide))).trans (sound_within _ w)
  · exact Within.refl _ s

theorem endAlert_within (v : Fin 4) (s : State) (w : Fin 4) :
    Within ([.channels] ++ logward) s (endAlert v s w) := by
  simp only [endAlert]
  split
  · exact (((Within.of_onlyIn (modWing_onlyIn s w _) (by decide)).mono (by decide)).trans
      ((append_within _ _ _ _ _).mono (by decide))).trans (sound_within _ w)
  · exact Within.refl _ s

theorem endTest_within (c : TestEndCause) (s : State) (z : Fin 64) :
    Within ([.zones, .detectors, .engine] ++ logward) s (endTest c s z) := by
  simp only [endTest]
  split
  · have h1 : ∀ t : State, Within ([.zones, .detectors, .engine] ++ logward) t
        { t with
          detectors := t.detectors.map fun d =>
            d.map fun d => if d.zone = z then { d with testArmed := none } else d } := fun t =>
      (Within.of_onlyIn (ps := [.detectors]) (onlyIn_of fun p => by cases p <;> simp [Same]) (by decide)).mono
        (by decide)
    have h2 := ((Within.of_onlyIn (modZone_onlyIn s z fun r => { r with testTimer := none }) (by decide)).mono
      (qs := [.zones, .detectors, .engine] ++ logward) (by decide)).trans (h1 _)
    have ha : ∀ t : State, Within ([.zones, .detectors, .engine] ++ logward) t (appendZone t .testEnded z (.testEnd c)) :=
      fun t => (append_within t _ _ _ _).mono (by decide)
    have h3 := h2.trans (ha _)
    split
    · exact h3
    · exact h3.trans ((trigger_within _).mono (by decide))
  · exact Within.refl _ s

/-- The pieces a wing's leaving of STANDBY reaches (R70). -/
def leavingStandby : List Piece := [.zones, .detectors, .engine, .channels] ++ logward

theorem leaveStandby_within (s : State) (w : Fin 4) : Within leavingStandby s (leaveStandby s w) := by
  refine ((((breakHolds_within s w).mono (by decide)).trans ((suspendWing_within _ w).mono (by decide))).trans
    ?_).trans (Within.foldl (fun t z => (endTest_within .stage t z).mono (by decide)) _ _)
  simp only [endLockdownByStage]
  split
  · exact ((Within.of_onlyIn (modWing_onlyIn _ w _) (by decide)).mono (by decide)).trans
      ((append_within _ _ _ _ _).mono (by decide))
  · exact Within.refl _ _

theorem changeStage_within (s : State) (w : Fin 4) (x : Stage) (c : StageCause) :
    Within logward s (changeStage s w x c) :=
  ((Within.of_onlyIn (modWing_onlyIn s w _) (by decide)).mono (by decide)).trans (append_within _ _ _ _ _)

theorem setEgress_within (s : State) (w : Fin 4) (x : Bool) : Within [.zones, .engine] s (setEgress s w x) := by
  simp only [setEgress]
  split
  · exact Within.refl _ s
  · exact (Within.foldl (fun t z => (Within.of_onlyIn (modZone_onlyIn t z _) (by decide)).mono (by decide)) _ s).trans
      ((trigger_within _).mono (by decide))

/-- The pieces a stage change of a wing reaches (R69 to R73). -/
def stageward : List Piece := leavingStandby ++ queueward

theorem clearAlerted_within (s : State) (w : Fin 4) : Within stageward s (clearAlerted s w) :=
  (Within.of_onlyIn (modWing_onlyIn s w _) (by decide)).mono (by decide)

/-- An entry into ACK_WAIT (R63, R70). -/
theorem enterAckWait_within (s : State) (w : Fin 4) : Within stageward s (enterAckWait s w) :=
  ((((changeStage_within s w _ _).mono (by decide)).trans ((leaveStandby_within _ w).mono (by decide))).trans
    (clearAlerted_within _ w)).trans ((sound_within _ w).mono (by decide))

/-- An entry into EVACUATE (R69 to R71, R73, R126). -/
theorem enterEvacuate_within (s : State) (w : Fin 4) (c : StageCause) : Within stageward s (enterEvacuate s w c) := by
  have h1 : Within stageward s (changeStage s w .evacuate c) := (changeStage_within s w _ c).mono (by decide)
  have h2 : Within stageward s
      (if s.atStandby w then clearAlerted (leaveStandby (changeStage s w .evacuate c) w) w
        else changeStage s w .evacuate c) := by
    split
    · exact (h1.trans ((leaveStandby_within _ w).mono (by decide))).trans (clearAlerted_within _ w)
    · exact h1
  simp only [enterEvacuate]
  exact ((((h2.trans ((setEgress_within _ w true).mono (by decide))).trans
    ((Within.of_onlyIn (modWing_onlyIn _ w _) (by decide)).mono (by decide))).trans
    ((evacuateCalls_within _ w).mono (by decide))).trans ((sound_within _ w).mono (by decide))).trans
    (Within.foldl (fun t v => (alertWing_within w t v).mono (by decide)) _ _)

/-- What a return to STANDBY reaches (R72, R73, R92, R126). -/
theorem returnEffects_within (s : State) (w : Fin 4) (left : StageName) :
    Within stageward s (returnEffects s w left) := by
  have h0 : ∀ t : State, Within stageward t (t.modWing w fun r => { r with spreadTimer := none, silenced := false }) :=
    fun t => (Within.of_onlyIn (modWing_onlyIn t w _) (by decide)).mono (by decide)
  simp only [returnEffects]
  refine ((Within.trans ?_ ((sound_within _ w).mono (by decide))).trans ((restoreWing_within _ w).mono (by decide))).trans
    ((standDownCalls_within _ w).mono (by decide))
  have h2 := (h0 s).trans ((setEgress_within _ w false).mono (by decide))
  have h3 : Within stageward s
      (if left = .evacuate then
        (spreadOf (setEgress (s.modWing w fun r => { r with spreadTimer := none, silenced := false }) w false) w).foldl
          (endAlert w) (setEgress (s.modWing w fun r => { r with spreadTimer := none, silenced := false }) w false)
        else setEgress (s.modWing w fun r => { r with spreadTimer := none, silenced := false }) w false) := by
    split
    · exact h2.trans (Within.foldl (fun t v => (endAlert_within w t v).mono (by decide)) _ _)
    · exact h2
  split
  · exact h3.trans ((alertWing_within _ _ w).mono (by decide))
  · exact h3

end Sys2Proof.Machine
end

