-- ==== Sys2Proof/Laws/EventEnd.lean ====
section
/-! SUPPORT. What the end of an event changes: doors whose inputs changed, a pass that was started, transmitters
that were free, and the messages. -/

set_option autoImplicit false

namespace Sys2Proof.Machine

/-! ### The doors -/

theorem computeDoor_onlyIn (s : State) (n : Fin 48) : OnlyIn doorward s (computeDoor s n) :=
  (modDoor_onlyIn s n _).andThen (writeSource_onlyIn _ _ _) (by decide) (by decide)

theorem computeDoors_onlyIn (b s : State) : OnlyIn doorward s (computeDoors b s) :=
  OnlyIn.foldl (fun t n => by
    by_cases h : doorInputs b n = doorInputs s n
    · simp only [h, if_true]; exact OnlyIn.refl _ t
    · simp only [h, if_false]; exact computeDoor_onlyIn t n) _ s

theorem followEffective_onlyIn (b s : State) (n : Fin 48) : OnlyIn [.doors] s (followEffective b s n) := by
  simp only [followEffective]
  split
  · exact modDoor_onlyIn s n _
  · exact OnlyIn.refl _ s

theorem superviseClosing_onlyIn (b s : State) (n : Fin 48) : OnlyIn [.doors] s (superviseClosing b s n) := by
  simp only [superviseClosing]
  split
  · exact OnlyIn.refl _ s
  · exact modDoor_onlyIn s n _

/-- What an event leaves of the doors reaches doors and channels alone. -/
theorem settleDoors_onlyIn (b s : State) : OnlyIn doorward s (settleDoors b s) := by
  refine (computeDoors_onlyIn b s).trans (OnlyIn.foldl (fun t n => ?_) _ _)
  have hf := followEffective_onlyIn b t n
  split
  · exact (hf.trans (superviseClosing_onlyIn b _ n)).mono (by decide)
  · exact hf.mono (by decide)

/-- The pieces that a door's precedence, status and supervision read. -/
def doorReads : List Piece := [.zones, .wings, .doors, .channels]

theorem doorInputs_congr {s t : State} (h : ∀ p ∈ doorReads, Same s t p) (n : Fin 48) :
    doorInputs t n = doorInputs s n := by
  have hz : t.zones = s.zones := h .zones (by decide)
  have hw : t.wings = s.wings := h .wings (by decide)
  have hd : t.doors = s.doors := h .doors (by decide)
  simp only [doorInputs, State.door, State.wing, State.wingOf, State.zone, egressLine, State.evacuating, hz, hw, hd]
  rfl

/-- An event that changed none of a door's inputs leaves every door as it stood. -/
theorem settleDoors_of_same {b s : State} (h : ∀ p ∈ doorReads, Same b s p) : settleDoors b s = s := by
  have hd : s.doors = b.doors := h .doors (by decide)
  have hc : s.channels = b.channels := h .channels (by decide)
  have h1 : computeDoors b s = s := by
    have key : ∀ (l : List (Fin 48)),
        l.foldl (fun t n => if doorInputs b n = doorInputs s n then t else computeDoor t n) s = s := by
      intro l
      induction l with
      | nil => rfl
      | cons n l ih => simp only [List.foldl_cons, doorInputs_congr h n, if_true]; exact ih
    exact key _
  have h2 : ∀ n, followEffective b s n = s := by
    intro n
    simp only [followEffective, State.door, State.channel, hd, hc]
    simp
  have h3 : ∀ n, superviseClosing b s n = s := by
    intro n
    have : notClosedAfter (b.door n) (s.door n) = (s.door n).notClosedTimer := by
      simp only [State.door, hd, notClosedAfter]
      cases (b.doors.get n).expectedToClose <;> simp
    simp [superviseClosing, this]
  have key : ∀ (l : List (Fin 48)),
      l.foldl (fun t n => if t.inService then superviseClosing b (followEffective b t n) n
        else followEffective b t n) s = s := by
    intro l
    induction l with
    | nil => rfl
    | cons n l ih => simp only [List.foldl_cons, h2, h3, ite_self]; exact ih
  simp only [settleDoors, h1]
  exact key _

/-! ### Passes and transmitters -/

theorem openPass_onlyIn (s : State) : OnlyIn [.engine] s (openPass s) := by
  simp only [openPass]
  split
  · exact onlyIn_of fun p => by cases p <;> simp [Same]
  · exact OnlyIn.refl _ s
  · exact OnlyIn.refl _ s

/-- No pass is left half started (R137). -/
theorem openPass_engine (s : State) : (openPass s).engine ≠ .opening := by
  simp only [openPass]
  split <;> simp_all

theorem openPass_of_ne {s : State} (h : s.engine ≠ .opening) : openPass s = s := by
  simp only [openPass]
  split <;> simp_all

/-- A transmitter that starts changes what it sends, and no queue, link or gap. -/
theorem startSending_eq (p : Port) : p.startSending = { p with sending := p.startSending.sending } := by
  simp only [Port.startSending]
  repeat' split
  all_goals rfl

theorem startTransmitters_onlyIn (s : State) : OnlyIn [.ports] s (startTransmitters s) :=
  onlyIn_of fun p => by cases p <;> simp [Same, startTransmitters]

theorem startTransmitters_port (s : State) (st : Station) :
    (startTransmitters s).port st = (s.port st).startSending := by cases st <;> rfl

theorem startTransmitters_portsQuiet (s : State) : PortsQuiet s (startTransmitters s) := fun st => by
  rw [startTransmitters_port, startSending_eq]
  exact ⟨rfl, rfl, rfl, rfl, rfl⟩

/-! ### The end of an event -/

/-- The end of an event changes doors, channels, the engine, what the ports send, and the messages. -/
theorem endEvent_onlyIn (b s : State) : OnlyIn (doorward ++ [.engine] ++ outward) s (endEvent b s) := by
  have h1 : OnlyIn (doorward ++ [.engine] ++ outward) s (startTransmitters (openPass (settleDoors b s))) :=
    (((settleDoors_onlyIn b s).mono (by decide)).trans ((openPass_onlyIn _).mono (by decide))).trans
      ((startTransmitters_onlyIn _).mono (by decide))
  refine h1.trans (onlyIn_of fun p => ?_)
  cases p <;> simp [Same, endEvent, outward]

/-- The end of an event leaves the links, the requests and the replies of the ports alone. -/
theorem endEvent_portsQuiet (b s : State) : PortsQuiet s (endEvent b s) := by
  have hp : ∀ st, (openPass (settleDoors b s)).port st = s.port st := by
    intro st
    have h1 : (openPass (settleDoors b s)).ports = (settleDoors b s).ports :=
      openPass_onlyIn _ .ports (by decide)
    have h2 : (settleDoors b s).ports = s.ports := settleDoors_onlyIn b s .ports (by decide)
    simp [State.port, h1, h2]
  have hq : PortsQuiet s (startTransmitters (openPass (settleDoors b s))) := fun st => by
    have := startTransmitters_portsQuiet (openPass (settleDoors b s)) st
    rwa [hp st] at this
  have he : (endEvent b s).ports = (startTransmitters (openPass (settleDoors b s))).ports := by simp only [endEvent]
  exact hq.trans (PortsQuiet.of_same he)

/-- The end of an event logs nothing. -/
theorem endEvent_log (b s : State) : Same s (endEvent b s) .log := endEvent_onlyIn b s .log (by decide)

/-- Channels that stand as before send no message (R150). -/
theorem channelMessages_self (x : Tbl 276 Channel) : channelMessages x x = [] := by
  have key : ∀ (l : List (Fin 276)) (xs : List Channel),
      ((List.zip l (List.zip xs xs)).filterMap fun y =>
        if sendsMessage y.2.1 y.2.2 then some (messageOf y.1 y.2.2) else none) = [] := by
    intro l
    induction l with
    | nil => intro xs; rfl
    | cons n l ih =>
      intro xs
      cases xs with
      | nil => rfl
      | cons c xs =>
        simp only [List.zip_cons_cons, List.filterMap_cons, ih xs]
        simp [sendsMessage]
  exact key _ _

/-- An event that left the doors' inputs and the engine alone changes what the ports send alone at its end, and
sends no message to the field. -/
theorem endEvent_of_same {b s : State} (h : ∀ p ∈ doorReads, Same b s p) (he : s.engine ≠ .opening) :
    endEvent b s = { startTransmitters s with fieldOut := [], stationOut := [] } := by
  have hs : (startTransmitters s).channels = b.channels := h .channels (by decide)
  rw [endEvent, settleDoors_of_same h, openPass_of_ne he, hs, channelMessages_self]
  simp only [hs]

end Sys2Proof.Machine
end

