-- ==== Sys2Proof/Laws/Executor.lean ====
section
/-! SUPPORT. What the taking of a command and the answering of a query leave: the state in which the owner judges,
the end of a refusal, of a command that is done, and of a query (R167 to R169). -/

set_option autoImplicit false

namespace Sys2Proof.Machine

/-! ### The request taken -/

/-- A taken command is the oldest of its port, and the taking leaves the rest of that queue. -/
theorem nextCommand_spec {s : State} {x : TakenRequest} (h : nextCommand s = some x) :
    ∃ rest, (s.port x.port).commands = x.request :: rest
      ∧ x.state = { (s.modPort x.port fun p => { p with commands := rest }) with
          rotation := x.state.rotation, fireBurst := x.state.fireBurst } := by
  simp only [nextCommand] at h
  split at h
  · cases h
  · split at h
    · cases h
    · cases h
      exact ⟨_, by assumption, rfl⟩

/-- The taking of a command reaches the ports and the executor alone. -/
theorem nextCommand_onlyIn {s : State} {x : TakenRequest} (h : nextCommand s = some x) :
    OnlyIn [.executor, .ports] s x.state := by
  obtain ⟨rest, -, hx⟩ := nextCommand_spec h
  rw [hx]
  exact onlyIn_of fun p => by cases p <;> simp [Same]

/-- The ports after the taking of a command. -/
theorem nextCommand_port {s : State} {x : TakenRequest} (h : nextCommand s = some x) (st : Station) :
    x.state.port st
      = if st = x.port then { s.port st with commands := (s.port st).commands.tail } else s.port st := by
  obtain ⟨rest, hc, hx⟩ := nextCommand_spec h
  have : x.state.port st = (s.modPort x.port fun p => { p with commands := rest }).port st := by rw [hx]; rfl
  rw [this, State.port_modPort]
  split
  · rename_i e
    subst e
    rw [hc]; rfl
  · rfl

/-- A taken query is the oldest of its port, and the taking leaves the rest of that queue. -/
theorem nextQuery_spec {s : State} {x : TakenRequest} (h : nextQuery s = some x) :
    ∃ rest, (s.port x.port).queries = x.request :: rest
      ∧ x.state = { (s.modPort x.port fun p => { p with queries := rest }) with lastQuery := x.port } := by
  simp only [nextQuery] at h
  split at h
  · cases h
  · split at h
    · cases h
    · cases h
      exact ⟨_, by assumption, rfl⟩

/-- The taking of a query reaches the ports and the query server alone. -/
theorem nextQuery_onlyIn {s : State} {x : TakenRequest} (h : nextQuery s = some x) :
    OnlyIn [.queryServer, .ports] s x.state := by
  obtain ⟨rest, -, hx⟩ := nextQuery_spec h
  rw [hx]
  exact onlyIn_of fun p => by cases p <;> simp [Same]

/-- The ports after the taking of a query. -/
theorem nextQuery_port {s : State} {x : TakenRequest} (h : nextQuery s = some x) (st : Station) :
    x.state.port st
      = if st = x.port then { s.port st with queries := (s.port st).queries.tail } else s.port st := by
  obtain ⟨rest, hc, hx⟩ := nextQuery_spec h
  have : x.state.port st = (s.modPort x.port fun p => { p with queries := rest }).port st := by rw [hx]; rfl
  rw [this, State.port_modPort]
  split
  · rename_i e
    subst e
    rw [hc]; rfl
  · rfl

/-! ### Replies -/

theorem addReply_onlyIn (s : State) (st : Station) (r : Reply) : OnlyIn [.ports] s (addReply s st r) :=
  modPort_onlyIn s st _

theorem addReply_port (s : State) (a st : Station) (r : Reply) :
    (addReply s a r).port st = if st = a then { s.port st with replies := (s.port st).replies ++ [r] } else s.port st :=
  State.port_modPort ..

/-! ### Commands -/

/-- A ready command's event ends with its owner's verdict applied. -/
theorem runCommand_of_ready {i : Instr} {s : State} {x : TakenRequest} (h : Ready i s x)
    (act : Station → State → Verdict) :
    runCommand i act s = .next (endEvent s (applyVerdict x (act x.port x.state))) := by
  simp [runCommand, h.2.1, h.2.2]

/-- The ports are answered where the owner leaves them quiet. -/
theorem takenAs_of_quiet {s u : State} {x : TakenRequest} {code : ReplyCode} {data : ReplyData}
    (h : nextCommand s = some x) (hq : PortsQuiet x.state u) (he : Same x.state u .executor) :
    TakenAs x code data s (endEvent s (addReply u x.port (replyTo x.request code data))) := by
  have ho := endEvent_onlyIn s (addReply u x.port (replyTo x.request code data)) .executor (by decide)
  have ha := addReply_onlyIn u x.port (replyTo x.request code data) .executor (by decide)
  simp only [Same] at ho ha he
  refine ⟨fun st => ?_, by rw [ho.1, ha.1, he.1], by rw [ho.2, ha.2, he.2]⟩
  have hp := endEvent_portsQuiet s (addReply u x.port (replyTo x.request code data)) st
  have hr := addReply_port u x.port st (replyTo x.request code data)
  have hu := hq st
  have hn := nextCommand_port h st
  obtain ⟨p1, p2, p3, p4, p5⟩ := hp
  obtain ⟨u1, u2, u3, u4, u5⟩ := hu
  rw [p1, p2, p3, p4, p5, hr]
  by_cases e : st = x.port <;> simp_all

/-- A command that its owner takes completes in the state that the end of the event leaves. -/
theorem completes_of_taken {i : Instr} {s u : State} {x : TakenRequest} {code : ReplyCode} {data : ReplyData}
    {act : Station → State → Verdict} (h : Ready i s x) (hx : exec i s = runCommand i act s)
    (ha : act x.port x.state = .taken u code data) (hq : PortsQuiet x.state u) (he : Same x.state u .executor) :
    Completes i s x code data fun t => t = endEvent s (addReply u x.port (replyTo x.request code data)) :=
  ⟨_, by rw [hx, runCommand_of_ready h, ha]; rfl, takenAs_of_quiet h.2.1 hq he, rfl⟩

/-- A reply added to the state a command was taken in, at the end of the event. -/
theorem answersOnly_end {s : State} {x : TakenRequest} {code : ReplyCode} (h : nextCommand s = some x)
    (hs : s.engine ≠ .opening) :
    let t := endEvent s (addReply x.state x.port (replyTo x.request code .none))
    TakenAs x code .none s t ∧ OnlyIn answering s t ∧ t.fieldOut = [] := by
  intro t
  have hn := nextCommand_onlyIn h
  have ha := addReply_onlyIn x.state x.port (replyTo x.request code .none)
  have hall : OnlyIn [.executor, .ports] s (addReply x.state x.port (replyTo x.request code .none)) :=
    hn.trans (ha.mono (by decide))
  have hsame : ∀ p ∈ doorReads, Same s (addReply x.state x.port (replyTo x.request code .none)) p :=
    fun p hp => hall p (by revert p; decide)
  have heng : (addReply x.state x.port (replyTo x.request code .none)).engine ≠ .opening := by
    rw [hall .engine (by decide)]; exact hs
  have ht : t = { startTransmitters (addReply x.state x.port (replyTo x.request code .none)) with
      fieldOut := [], stationOut := [] } := endEvent_of_same hsame heng
  refine ⟨takenAs_of_quiet h (PortsQuiet.refl _) (Same.refl _ _), ?_, by rw [ht]⟩
  rw [ht]
  refine ((hall.mono (by decide)).trans ((startTransmitters_onlyIn _).mono (by decide))).trans
    (onlyIn_of fun p => ?_)
  cases p <;> simp [Same, answering, outward]

/-- A refusal answers and does nothing else (R169). -/
theorem answersOnly_of_refused {i : Instr} {s : State} {x : TakenRequest} {code : ReplyCode}
    {act : Station → State → Verdict} (h : Ready i s x) (hx : exec i s = runCommand i act s)
    (ha : act x.port x.state = .refused code .none) : AnswersOnly i s x code := by
  have he := answersOnly_end (code := code) h.2.1 h.1
  exact ⟨_, by rw [hx, runCommand_of_ready h, ha]; rfl, he.1, he.2⟩

/-- A command whose owner finds nothing to change answers and does nothing else. -/
theorem answersOnly_of_unchanged {i : Instr} {s : State} {x : TakenRequest} {code : ReplyCode}
    {act : Station → State → Verdict} (h : Ready i s x) (hx : exec i s = runCommand i act s)
    (ha : act x.port x.state = .taken x.state code .none) : AnswersOnly i s x code := by
  have he := answersOnly_end (code := code) h.2.1 h.1
  exact ⟨_, by rw [hx, runCommand_of_ready h, ha]; rfl, he.1, he.2⟩

/-! ### Queries -/

/-- A query is answered with the code and data its answer gives, and changes no record (R167). -/
theorem answers_of_asked {i : Instr} {s : State} {x : TakenRequest} {answer : State → Answer} (h : Asked i s x)
    (hx : exec i s = runQuery i answer s) :
    Answers i s x (answer x.state).code (answer x.state).data := by
  have hn := nextQuery_onlyIn h.2.1
  have hsp := nextQuery_port h.2.1
  obtain ⟨rest, -, hst⟩ := nextQuery_spec h.2.1
  generalize hr : replyTo x.request (answer x.state).code (answer x.state).data = r at *
  have ha := addReply_onlyIn x.state x.port r
  have hall : OnlyIn [.queryServer, .ports] s (addReply x.state x.port r) := hn.trans (ha.mono (by decide))
  have hsame : ∀ p ∈ doorReads, Same s (addReply x.state x.port r) p :=
    fun p hp => hall p (by revert p; decide)
  have heng : (addReply x.state x.port r).engine ≠ .opening := by rw [hall .engine (by decide)]; exact h.1
  have ht := endEvent_of_same hsame heng
  refine ⟨endEvent s (addReply x.state x.port r), ?_, fun st => ?_, ?_, ?_, by rw [ht]⟩
  · simp [hx, runQuery, h.2.1, h.2.2, hr]
  · have hs : (endEvent s (addReply x.state x.port r)).port st = ((addReply x.state x.port r).port st).startSending := by
      rw [ht]; exact startTransmitters_port _ st
    rw [hs, startSending_eq, addReply_port, hsp, hr]
    by_cases e : st = x.port <;> simp [e]
  · have h1 : (endEvent s (addReply x.state x.port r)).lastQuery = (addReply x.state x.port r).lastQuery :=
      endEvent_onlyIn s _ .queryServer (by decide)
    have h2 : (addReply x.state x.port r).lastQuery = x.state.lastQuery := ha .queryServer (by decide)
    rw [h1, h2, hst]
  · rw [ht]
    refine ((hall.mono (by decide)).trans ((startTransmitters_onlyIn _).mono (by decide))).trans
      (onlyIn_of fun p => ?_)
    cases p <;> simp [Same, outward]

end Sys2Proof.Machine
end

