-- ==== Sys2Proof/Laws/LoopScan.lean ====
section
/-! SUPPORT. What the Loop Scan Unit's shared operations can do: the winner among contenders, what the arbiters hand
out, the slots and the common fields of a mirrored pair, and the break judgment. -/

set_option autoImplicit false

namespace Sys2Proof.Machine

/-- The winner is one of the contenders, and no contender has started earlier (R23). -/
theorem winner_eq_some {s : State} {us : List ScanUnit} {u : ScanUnit} (h : winner s us = some u) :
    u ∈ us ∧ ∀ v ∈ us, startRank s u ≤ startRank s v := by
  induction us generalizing u with
  | nil => simp [winner] at h
  | cons a rest ih =>
    simp only [winner] at h
    split at h
    next hn =>
      cases h
      have hr : rest = [] := by
        cases rest with
        | nil => rfl
        | cons b more => simp only [winner] at hn; split at hn <;> [cases hn; (split at hn <;> cases hn)]
      simp [hr]
    next v hv =>
      obtain ⟨hm, hle⟩ := ih hv
      split at h
      next hlt =>
        cases h
        refine ⟨List.mem_cons_of_mem _ hm, fun x hx => ?_⟩
        rcases List.mem_cons.mp hx with rfl | hx
        · omega
        · exact hle x hx
      next hge =>
        cases h
        refine ⟨List.mem_cons_self, fun x hx => ?_⟩
        rcases List.mem_cons.mp hx with rfl | hx
        · omega
        · have := hle x hx; omega

/-- Nobody wins only where nobody contends (R23). -/
theorem winner_eq_none {s : State} {us : List ScanUnit} : winner s us = none ↔ us = [] := by
  cases us with
  | nil => simp [winner]
  | cons a rest =>
    simp only [winner, reduceCtorEq, iff_false]
    split <;> [exact nofun; (split <;> exact nofun)]

/-- A converter that is not free is not handed out (R23). -/
theorem arbiterPick_of_held {s : State} {c : Converter} (h : s.converter c ≠ .free) : arbiterPick s c = none := by
  unfold arbiterPick
  split <;> simp_all

/-- With both converters held the arbiters do nothing (R23). -/
theorem handOut_of_held {s : State} (ha : s.converter .a ≠ .free) (hb : s.converter .b ≠ .free) : handOut s = s := by
  simp [handOut, arbiterPick_of_held ha, arbiterPick_of_held hb, giveConverter]

/-- The upper loop of a mirrored pair has no slot (R28). -/
theorem slotOf_of_mirroredUpper {s : State} {l : Fin 4} (a : Nat) (h : isMirroredUpper s l = true) :
    slotOf s l a = none := by
  simp [slotOf, h]

/-- A loop that is no upper loop of a mirrored pair keeps its own record (R28). -/
theorem pairRecord_of_not_upper {s : State} {l : Fin 4} (h : isMirroredUpper s l = false) : pairRecord s l = s.loop l := by
  simp [pairRecord, h]

/-- The upper loop of a mirrored pair has the common fields of the lower one (R28). -/
theorem pairRecord_of_upper {s : State} {l : Fin 4} (h : isMirroredUpper s l = true) :
    pairRecord s l = Loop.joined (s.loop (lowerLoop (pairOf l))) (s.loop l) := by
  simp [pairRecord, h]

/-- What joining a loop to its pair does: its own record becomes the pair's, and every other record stays (R28). -/
theorem joinPair_loop (s : State) (l k : Fin 4) :
    (joinPair s l).loop k = if k = l then pairRecord s l else s.loop k := by
  by_cases h : k = l <;> simp [joinPair, State.modLoop, State.loop, Tbl.get_modify, h]

/-- Joining a loop that is no upper loop of a mirrored pair changes nothing (R28). -/
theorem joinPair_of_not_upper {s : State} {l k : Fin 4} (h : isMirroredUpper s l = false) :
    (joinPair s l).loop k = s.loop k := by
  rw [joinPair_loop, pairRecord_of_not_upper h]
  split <;> simp_all

/-- A scan in which no end answered clears no break (R31). -/
theorem breakClears_of_allSilent {polls : List PollNote} (h : allSilent polls = true) : breakClears polls = false := by
  simp [breakClears, h]

/-- What the break judgment does (R31): a new break is recorded with its entry, a recorded one is cleared with its
entry, and otherwise nothing changes. -/
theorem judgeBreak_cases (s : State) (u : ScanUnit) (polls : List PollNote) :
    judgeBreak s u polls = s
      ∨ (∃ k, breakFound polls = some k ∧ judgeBreak s u polls
        = appendLoop (modUnit s u fun x => { x with breakPosition := some k }) .loopBreak u.head (.number k.val))
      ∨ (breakFound polls = none ∧ breakClears polls = true ∧ judgeBreak s u polls
        = appendLoop (modUnit s u fun x => { x with breakPosition := none }) .loopBreakCleared u.head .none) := by
  unfold judgeBreak
  split
  next k hk =>
    by_cases h : (s.loop u.head).breakPosition = some k
    · left; simp [h]
    · right; left; exact ⟨k, hk, by simp [h]⟩
  next hn =>
    by_cases h : (breakClears polls && (s.loop u.head).breakPosition.isSome) = true
    · right; right; exact ⟨hn, (Bool.and_eq_true _ _ ▸ h).1, by simp [h]⟩
    · left; simp [h]

end Sys2Proof.Machine
end

