-- ==== Sys2Proof/Laws/Notices.lean ====
section
/-! SUPPORT. What an append offers the ports as notices (R158, R162, R163), and what the end of an event sends the
field (R150): one lemma for each, which a proof about a command cites in place of unfolding them. -/

set_option autoImplicit false

namespace Sys2Proof.Machine

/-! ### Notices -/

/-- What the offer of a notice leaves of a port, after a wrap or without one (R162, R163). -/
theorem offerNotice_taken (wraps : Bool) (n : Notice) (p : Port) :
    NoticeTaken wraps true n p (offerNotice n { p with gap := p.gap || wraps }) := by
  simp only [NoticeTaken, offerNotice, Port.up]
  cases p.link <;> by_cases h : p.notices.length < Config.noticeQueueMax <;> simp [h]

/-- A port that an entry is not sent to keeps its notices; a wrap sets its marker (R158). -/
theorem notSent_taken (wraps : Bool) (n : Notice) (p : Port) :
    NoticeTaken wraps false n p { p with gap := p.gap || wraps } := by
  simp [NoticeTaken]

/-- The ports after the wrap of the sequence, if it wraps (R158). -/
theorem wrapSequence_port (s : State) (st : Station) :
    (wrapSequence s).port st
      = { s.port st with gap := (s.port st).gap || decide (Config.sequenceMax < s.nextSequence) } := by
  by_cases h : Config.sequenceMax < s.nextSequence
  · simp [wrapSequence, h, State.port]
  · simp [wrapSequence, h]

/-- The sequence that the next entry takes (R158). -/
theorem wrapSequence_next (s : State) :
    (wrapSequence s).nextSequence = if Config.sequenceMax < s.nextSequence then 1 else s.nextSequence := by
  simp only [wrapSequence]; split <;> rfl

@[simp] theorem wrapSequence_seconds (s : State) : (wrapSequence s).seconds = s.seconds :=
  wrapSequence_onlyIn s .seconds (by decide)

theorem stampWing_ports (s : State) (w : Option (Fin 4)) : (stampWing s w).ports = s.ports :=
  stampWing_onlyIn s w .ports (by decide)

/-- Only a CALL_OFFER carries a call (R122). -/
theorem offeredCall_none (s : State) {e : Entry} (h : e.kind ≠ .callOffer) : offeredCall s e = none := by
  simp only [offeredCall]; split <;> simp_all

/-- The stations of an entry depend on its kind, subject and detail, and on the records that R162 names. -/
theorem noticeStations_congr {s t : State} {e f : Entry} (hk : f.kind = e.kind) (hx : f.subject = e.subject)
    (hd : f.detail = e.detail) (hr : t.routing = s.routing) (hk' : t.desks = s.desks) (hp : t.points = s.points)
    (hz : t.zones = s.zones) (hw : t.wings = s.wings) : noticeStations t f = noticeStations s e := by
  simp only [noticeStations, withOwners, pointDesks, State.desk, State.point, State.wing, State.wingOf, State.zone,
    hk, hx, hd, hr, hk', hp, hz, hw]

/-- What the sending of an entry's notices leaves of a port that was `p` before the sequence wrapped, or did not (R162,
R163). -/
theorem sendNotices_taken (u : State) {e : Entry} (he : e.kind ≠ .callOffer) (st : Station) (wraps : Bool) (p : Port)
    (hp : u.port st = { p with gap := p.gap || wraps }) :
    NoticeTaken wraps ((noticeStations u e).has st)
      { entry := e, revision := e.wing.map fun w => (u.wing w).revision, call := none, gap := false } p
      ((sendNotices u e).port st) := by
  have h : (sendNotices u e).port st
      = if (noticeStations u e).has st then
          offerNotice { entry := e, revision := e.wing.map fun w => (u.wing w).revision, call := none, gap := false }
            (u.port st)
        else u.port st := by
    simp only [State.port, sendNotices, offerTo_get, offeredCall_none u he]
  rw [h, hp]
  cases (noticeStations u e).has st
  · exact notSent_taken _ _ _
  · exact offerNotice_taken _ _ _

/-- An append offers its entry as a notice to the stations that R162 gives, and to no other. -/
theorem append_noticed (s : State) (k : EntryKind) (x : Subject) (w : Option (Fin 4)) (d : Detail)
    (hk : k ≠ .callOffer) :
    Noticed s (append s k x w d) { kind := k, subject := x, wing := w, detail := d }
      (noticeStations (append s k x w d)
        { sequence := 0, time := 0, kind := k, subject := x, wing := w, detail := d }).has := by
  intro st
  have he : ({ sequence := (wrapSequence s).nextSequence, time := (wrapSequence s).seconds, kind := k, subject := x
               wing := w, detail := d } : Entry)
      = LogItem.entryIn { kind := k, subject := x, wing := w, detail := d } s := by
    rw [wrapSequence_next, wrapSequence_seconds]; rfl
  have ha : append s k x w d
      = sendNotices (recordEntry (wrapSequence s) (LogItem.entryIn { kind := k, subject := x, wing := w, detail := d } s))
        (LogItem.entryIn { kind := k, subject := x, wing := w, detail := d } s) := by rw [← he]; rfl
  have hs : ∀ u : State, noticeStations (sendNotices u (LogItem.entryIn { kind := k, subject := x, wing := w, detail := d } s))
      { sequence := 0, time := 0, kind := k, subject := x, wing := w, detail := d }
      = noticeStations u (LogItem.entryIn { kind := k, subject := x, wing := w, detail := d } s) :=
    fun _ => noticeStations_congr rfl rfl rfl rfl rfl rfl rfl rfl
  rw [ha, hs]
  refine sendNotices_taken _ hk st _ _ ?_
  rw [← wrapSequence_port]
  simp only [State.port, recordEntry, stampWing_ports]

theorem NoticesKept.refl (s : State) : NoticesKept s s := fun _ => ⟨rfl, rfl⟩

theorem NoticesKept.trans {s t u : State} (h : NoticesKept s t) (k : NoticesKept t u) : NoticesKept s u := fun st =>
  ⟨(k st).1.trans (h st).1, (k st).2.trans (h st).2⟩

/-- A reply joins no notice queue (R167). -/
theorem addReply_noticesKept (s : State) (y : Station) (r : Reply) : NoticesKept s (addReply s y r) := fun st => by
  cases y <;> cases st <;> exact ⟨rfl, rfl⟩

/-- The end of an event offers no notice. -/
theorem endEvent_noticesKept (b s : State) : NoticesKept s (endEvent b s) := fun st => by
  have hd : (settleDoors b s).ports = s.ports := settleDoors_onlyIn b s .ports (by decide)
  have h1 : (openPass (settleDoors b s)).ports = (settleDoors b s).ports := openPass_onlyIn _ .ports (by decide)
  have he : (endEvent b s).ports = (startTransmitters (openPass (settleDoors b s))).ports := by simp only [endEvent]
  have h2 : (endEvent b s).port st = ((openPass (settleDoors b s)).port st).startSending := by
    rw [← startTransmitters_port]; simp only [State.port, he]
  rw [h2, startSending_eq]
  simp [State.port, h1, hd]

/-- What an event has offered stands where only other pieces change after it. -/
theorem Noticed.keep {s t u : State} {x : LogItem} {f : Station → Bool} (h : Noticed s t x f)
    (k : NoticesKept t u) (hl : ∀ st, (u.port st).link = (t.port st).link) (hw : u.wings = t.wings) :
    Noticed s u x f := by
  intro st
  have hu : (u.port st).up = (t.port st).up := by simp [Port.up, hl st]
  have := h st
  simp only [NoticeTaken, State.wing, hw, hu, (k st).1, (k st).2] at this ⊢
  exact this

/-! ### Messages -/

/-- When a channel that was `a` and is `b` has a message (R150). -/
theorem sendsMessage_iff (a b : Channel) :
    sendsMessage a b = true ↔ b.drive ≠ a.drive ∨ b.drive = .enabled ∧ b.effective ≠ a.effective := by
  simp only [sendsMessage, Bool.or_eq_true, Bool.and_eq_true, decide_eq_true_eq]
  exact or_congr ne_comm (and_comm.trans (and_congr Iff.rfl ne_comm))

/-- The channels that `channelMessages` reports, with their messages (R150). -/
theorem mem_channelMessages (a b : Tbl 276 Channel) (m : ChannelMessage) :
    m ∈ channelMessages a b
      ↔ sendsMessage (a.get m.channel) (b.get m.channel) = true ∧ m = messageOf m.channel (b.get m.channel) := by
  simp only [channelMessages, List.mem_filterMap, Option.ite_none_right_eq_some, Option.some.injEq]
  constructor
  · rintro ⟨⟨n, c, d⟩, hm, hs, rfl⟩
    obtain ⟨k, hk, he⟩ := List.mem_iff_getElem.mp hm
    simp only [List.getElem_zip, List.getElem_finRange, Prod.mk.injEq] at he
    obtain ⟨rfl, rfl, rfl⟩ := he
    exact ⟨hs, rfl⟩
  · rintro ⟨hs, he⟩
    refine ⟨(m.channel, a.get m.channel, b.get m.channel), ?_, hs, he.symm⟩
    refine List.mem_iff_getElem.mpr ⟨m.channel.val, ?_, ?_⟩
    · simp [a.size_eq, b.size_eq]
    · simp [Tbl.get]

/-- No channel has two messages in one event (R150). -/
theorem channelMessages_nodup (a b : Tbl 276 Channel) : ((channelMessages a b).map fun m => m.channel).Nodup := by
  have key : ∀ (l : List (Fin 276)) (xs : List (Channel × Channel)), l.Nodup →
      (((List.zip l xs).filterMap fun x =>
        if sendsMessage x.2.1 x.2.2 then some (messageOf x.1 x.2.2) else none).map fun m => m.channel).Sublist l := by
    intro l
    induction l with
    | nil => intro xs _; simp
    | cons n l ih =>
      intro xs hl
      cases xs with
      | nil => simp
      | cons x xs =>
        have hn := ih xs (List.nodup_cons.mp hl).2
        simp only [List.zip_cons_cons, List.filterMap_cons]
        by_cases hs : sendsMessage x.1 x.2 = true
        · simpa [hs, messageOf] using hn
        · simpa [hs] using hn.cons n
  exact (key _ _ (List.nodup_finRange 276)).nodup (List.nodup_finRange 276)

/-- The message of a channel in the words of R150. -/
theorem messageOf_eq (n : Fin 276) (c : Channel) : messageOf n c = fieldMessage n c := by
  have hw : wireValue (channelKind n) c = wireSense n c := by
    simp only [channelKind, wireSense]
    have h : n.val < 48 ∨ (¬ n.val < 48 ∧ n.val < 144) ∨ (¬ n.val < 144 ∧ n.val < 208)
      ∨ (¬ n.val < 208 ∧ n.val < 272) ∨ ¬ n.val < 272 := by omega
    rcases h with h | ⟨h, k⟩ | ⟨h, k⟩ | ⟨h, k⟩ | h
    · rw [if_pos h, if_pos (.inl h)]
      simp only [wireValue]; cases c.polarity <;> cases c.effective <;> simp
    · rw [if_neg h, if_pos k, if_neg (by omega)]; simp only [wireValue]
    · rw [if_neg (by omega), if_neg h, if_pos k, if_neg (by omega)]; simp only [wireValue]
    · rw [if_neg (by omega), if_neg (by omega), if_neg h, if_pos k, if_pos (by omega)]
      simp only [wireValue]; cases c.polarity <;> cases c.effective <;> simp
    · rw [if_neg (by omega), if_neg (by omega), if_neg (by omega), if_neg h, if_neg (by omega)]; simp only [wireValue]
  cases h : c.drive <;> simp [messageOf, fieldMessage, h, hw]

/-- What an event sends the field where its messages are taken from the channels before it and after it (R150). -/
theorem messagesSent_of {s t : State} (h : t.fieldOut = channelMessages s.channels t.channels) : MessagesSent s t := by
  refine ⟨by rw [h]; exact channelMessages_nodup _ _, fun n => ?_, fun m hm => ?_⟩
  · rw [h, List.mem_map]
    constructor
    · rintro ⟨m, hm, rfl⟩
      exact (sendsMessage_iff _ _).mp ((mem_channelMessages _ _ m).mp hm).1
    · exact fun hn =>
        ⟨messageOf n (t.channels.get n), (mem_channelMessages _ _ _).mpr ⟨(sendsMessage_iff _ _).mpr hn, rfl⟩, rfl⟩
  · rw [h] at hm
    exact ((mem_channelMessages _ _ m).mp hm).2.trans (messageOf_eq _ _)

/-- The end of an event sends the messages of the channels that it finds changed (R150). -/
theorem endEvent_messagesSent (b s : State) : MessagesSent b (endEvent b s) :=
  messagesSent_of (by simp only [endEvent])

end Sys2Proof.Machine
end

