-- ==== Sys2Proof/Tests/Slice0.lean ====
section
/-! SUPPORT. Tests of the model: ill-formed commands, words from the manual's code tables, the manual's worked
cases, and for every obligation with hypotheses a state and operands that meet them. -/

set_option autoImplicit false
set_option Elab.async false

namespace Sys2Proof.Tests

open Sys2Proof Sys2Proof.Machine

/-! ### Ill-formed commands, one for each check of WellFormed -/

theorem test_wf_byte : (Instr.evacuateWing 256).wf = false := by decide
theorem test_wf_wide : (Instr.holdChannels 0 65536).wf = false := by decide
theorem test_wf_option : (Instr.writeEntryExit 0 (.configured 0 (some 255))).wf = false := by decide
theorem test_wf_wide_option :
    (Instr.writeEntryClass 0
      { kind := some .smoke, preAlarm := 0, alarm := 0, riseStep := 0, riseCount := 0, night := 0
        tracking := some true, bmin := 0, bmax := 0, fixedBaseline := 0, window := some 65535 }).wf = false := by decide
theorem test_wf_bytes : (Instr.writeSettingDeskList 0 [256]).wf = false := by decide
theorem test_wf_bytes_length : (Instr.writeSettingDeskList 0 (List.replicate 237 0)).wf = false := by decide +kernel
theorem test_wf_side :
    (Instr.writeEntryDoor 0 (.configured 0 (.zone 256) none none false .absent)).wf = false := by decide
theorem test_wf_reading : (Instr.pollComplete 0 (.raw 4096)).wf = false := by decide
theorem test_wf_routes :
    (Instr.writeEntryRouteList 0 (List.replicate 80 { head := 0, exit := 0 })).wf = false := by decide +kernel
theorem test_wf_route_head : (Instr.writeEntryRouteList 0 [{ head := 65536, exit := 0 }]).wf = false := by decide
theorem test_wf_log_start : (Instr.readLog 4294967296 1).wf = false := by decide

/-! ### Words from the code tables of section 11.6 -/

theorem test_word_reset_zone : decodeCommand [0x13#8, 0x15#8, 0x01#8, 0xA1#8] = .row (.resetZone 21 417#16) := by decide
theorem test_word_lockdown : decodeCommand [0x25#8, 0x02#8] = .row (.lockdownWing 2) := by decide
theorem test_word_hold : decodeCommand [0x29#8, 0x01#8, 0x10#8, 0x00#8, 0x04#8] = .row (.holdChannels 272 4) := by decide
theorem test_word_clear_call : decodeCommand [0x31#8, 0x3F#8] = .row (.clearCall 63) := by decide
theorem test_word_test_on : decodeCommand [0x28#8, 0x07#8, 0x01#8] = .row (.testZoneOn 7) := by decide
theorem test_word_read_log :
    decodeQuery [0x4B#8, 0x00#8, 0x01#8, 0x00#8, 0x00#8, 0x00#8, 0x10#8] = .row (.readLog 65536 16) := by decide
/-- A body that is too long is malformed (R169). -/
theorem test_word_too_long : decodeCommand [0x1B#8, 0x00#8] = .unknown := by decide
/-- A query's code is no command. -/
theorem test_word_query_as_command : decodeCommand [0x40#8] = .unknown := by decide
theorem test_no_table_word : decodeTableWord 32 19 = none := rfl

/-- The check of the nine characters 123456789 is 29B1 (R165). -/
theorem test_crc :
    crc [0x31#8, 0x32#8, 0x33#8, 0x34#8, 0x35#8, 0x36#8, 0x37#8, 0x38#8, 0x39#8] = 0x29B1#16 := by decide +kernel

/-- A discarded frame's bytes are hunted again from behind its marker (R165). -/
theorem test_hunt_again :
    hunt (0xA5#8 :: 0xF1#8 :: 0x00#8 :: 0xF1#8 :: (Frame.mk 0x02#8 7#8 [0x40#8]).bytes)
      = { frame := some (Frame.mk 0x02#8 7#8 [0x40#8]), held := [] } := by decide +kernel

/-! ### The worked cases of chapter 3 -/

/-- The smoke class of section 3.6. -/
def smoke : DetectorClass :=
  { configured := true, kind := .smoke, preAlarm := 200, alarm := 320, riseStep := 12, riseCount := 4, night := 60
    tracking := true, bmin := 256, bmax := 1536, fixedBaseline := 992, window := 20 }

/-- Section 3.6.1: the level, the rise run and the tracked baseline of a quiet reading. -/
theorem test_quiet_reading :
    levelOf 1005 15880 = 13 ∧ riseRunAfter 0 (riseOf 13 (some 11)) 12 (some 11) = 0
      ∧ trackedBaseline smoke 1005 15880 = 15883 := by decide

/-- Section 3.6.2: the thresholds by day and by night, and what the level 268 does under each. -/
theorem test_day_and_night :
    thresholds smoke .openHours = { pre := 200, alarm := 320, hasLevelAlarm := true }
      ∧ thresholds smoke .night = { pre := 140, alarm := 260, hasLevelAlarm := true }
      ∧ (moveState smoke (thresholds smoke .openHours) .normal 268 false).state = .preAlarm
      ∧ (moveState smoke (thresholds smoke .night) .normal 268 false).state = .verifying 20
      ∧ (moveState smoke (thresholds smoke .night) (.verifying 18) 283 false).state = .alarm := by decide

/-- Section 3.6.3: the limits of the level and of the baseline. -/
theorem test_limits :
    levelOf 4031 15883 = 2047 ∧ levelOf 900 15883 = 0 ∧ trackedBaseline smoke 900 15883 = 15875
      ∧ trackedBaseline smoke 1560 24576 = 24576 ∧ limitAfter smoke 24576 false = true
      ∧ trackedBaseline smoke 995 15883 = 15883 ∧ levelOf 3000 4096 = 2047 := by decide

/-- Section 3.6.3: night thresholds at their floors. -/
theorem test_night_floor :
    thresholds { smoke with preAlarm := 30, alarm := 60, night := 100 } .night
      = { pre := 16, alarm := 32, hasLevelAlarm := true } := by decide

/-- Section 3.6.5: the readings of mirrored ends. -/
theorem test_mirrored_ends :
    combineEnds (.raw 1240) (.raw 1300) = .raw 1300 ∧ mismatchAfter false (.raw 1240) (.raw 1300) = false
      ∧ mismatchAfter false (.raw 1240) (.raw 1320) = true := by decide

/-- The polls of section 2.5.1. -/
def brokenRing : List PollNote :=
  [ { slot := 0, endA := .raw 812, endB := .noReply }, { slot := 1, endA := .raw 930, endB := .noReply }
  , { slot := 2, endA := .raw 1044, endB := .noReply }, { slot := 3, endA := .noReply, endB := .raw 998 }
  , { slot := 4, endA := .noReply, endB := .raw 1021 }, { slot := 5, endA := .noReply, endB := .noReply } ]

/-- Section 2.5.1: the break lies at slot 3, and the pair does not enter LINE_FAULT. -/
theorem test_broken_ring :
    breakFound brokenRing = some 3 ∧ allSilent brokenRing = false ∧ breakClears brokenRing = false := by decide

/-- A scan in which neither end answered clears no break (R31). -/
theorem test_silent_ring : breakClears [{ slot := 0, endA := .noReply, endB := .noReply }] = false := by decide

/-! ### Door values (R102, R104) and wire sense (R150) -/

theorem test_fail_secure_wire :
    wireValue .door
      { wing := none, source := .lock, latch := .follow, latched := .lock, drive := .enabled, polarity := .inverted
        failValue := .lock, lineFault := false, effective := .lock } = .negated := by decide

/-- The second line of the precedence beats the third (R102). -/
theorem test_rex_beats_lockdown :
    doorValue
      { configured := true, fireHold := false, egress := false, rex := true, lockdown := true, armed := true
        pass := false, freeHours := false, fire := false, evacuate := false, night := false } = (.unlock, .rex) := by
  decide

/-! ### A small gallery -/

/-- A detector record at the last address of a loop. -/
def detector (state : DetectorState) : Detector :=
  { loop := 3, address := 48, zone := 63, cls := 7, state := state, missed := 0, validRun := 0, baseline := 15880
    level := some 11, riseRun := 0, compLimit := false, testArmed := none, mismatch := false, waiting := none }

/-- A part in service: every zone in wing 3, detector 191 in zone 63, every door, point and exit at zone 63, every
desk of the services station. -/
def house : State :=
  { State.reset with
    part := .inService, seconds := 5000
    zones := .fill 64 { Zone.powerOn with configured := true, wing := 3, occupancy := .vacant }
    wings := .fill 4 { Wing.powerOn with evacDesk := some 7 }
    loops := .fill 4 { Loop.powerOn with inUse := true, state := .running, power := true }
    scanLists := .fill 4 (((Tbl.fill 48 ScanSlot.endMark).set 0 (.address 48 true)).set 1 (.address 1 true))
    classes := .fill 8 smoke, detectors := (Tbl.fill 192 none).set 191 (some (detector .normal))
    doors := .fill 48
      { Door.powerOn with configured := true, sideA := 63, contact := .closed, status := .closedLocked, value := .lock }
    points := .fill 64 { CallPoint.powerOn with configured := true, zone := 63, deskList := [7] }
    desks := .fill 8 { Desk.powerOn with owner := some .services, capacity := 1 }
    exits := .fill 16 { ExitRecord.powerOn with configured := true, zone := 63 } }

/-- The same part in CONFIGURING. -/
def shut : State := { house with part := .configuring }

/-- A help call. -/
def call (presses : Nat) (phase : CallPhase) : HelpCall :=
  { presses := presses, firstPress := 0, priority := .normal, next := .position 1, phase := phase }

def wing3 (f : Wing → Wing) : State := house.modWing 3 f
def stage3 (x : Stage) : State := wing3 fun w => { w with stage := x }
def zone63 (f : Zone → Zone) : State := house.modZone 63 f
def door47 (f : Door → Door) : State := house.modDoor 47 f
def loop3 (f : Loop → Loop) : State := house.modLoop 3 f
def point63 (f : CallPoint → CallPoint) : State := house.modPoint 63 f
def active63 (x : CallPhase) : State := point63 fun p => { p with state := .active (call 2 x) }
def secured (x : Security) : State := zone63 fun z => { z with security := x }
def inAlarm : State := zone63 fun z => { z with fire := .alarm .station 9 }

/-- A request of a station alone at the head of its queue. -/
def send (s : State) (st : Station) (i : Instr) : State :=
  s.modPort st fun p => { p with link := .connected 10, commands := [{ tag := 7#8, body := encodeRequest i }] }

/-- That request as the executor takes it. -/
def taken (s : State) (st : Station) (i : Instr) : TakenRequest :=
  { port := st, request := { tag := 7#8, body := encodeRequest i }
    state := { ((send s st i).modPort st fun p => { p with commands := [] }) with
      rotation := match st with | .fire => s.rotation | .guard => .services | .services => .fire
      fireBurst := 0 } }

theorem ready {s : State} (st : Station) {i : Instr} (hd : decodeCommand (encodeRequest i) = .row i)
    (hp : s.ports = State.reset.ports) (hr : s.rotation = .fire) (hf : s.fireBurst = 0) (he : s.engine = .idle) :
    Ready i (send s st i) (taken s st i) := by
  refine ⟨by simp [send, State.modPort, he], ?_, hd⟩
  cases st <;>
    simp [nextCommand, choosePort, send, taken, State.modPort, State.port, Ports.get, Ports.set, hp, hr, hf,
      Port.holdsCommand, State.reset, Port.powerOn, Config.replyMax, Config.fireBurstMax, cycleFrom, Station.after]

/-- A state in which a command is ready and a condition holds. -/
theorem meets {i : Instr} {P : State → TakenRequest → Prop} (s : State) (st : Station)
    (h : P (send s st i) (taken s st i)) (hd : decodeCommand (encodeRequest i) = .row i := by decide)
    (hp : s.ports = State.reset.ports := by rfl) (hr : s.rotation = .fire := by rfl)
    (hf : s.fireBurst = 0 := by rfl) (he : s.engine = .idle := by rfl) : ∃ s x, Ready i s x ∧ P s x :=
  ⟨_, _, ready st hd hp hr hf he, h⟩

/-- A query of the services station alone at the head of its queue. -/
def ask (s : State) (i : Instr) : State :=
  s.modPort .services fun p => { p with link := .connected 10, queries := [{ tag := 9#8, body := encodeRequest i }] }

/-- That query as the query server takes it. -/
def asked (s : State) (i : Instr) : TakenRequest :=
  { port := .services, request := { tag := 9#8, body := encodeRequest i }
    state := { ((ask s i).modPort .services fun p => { p with queries := [] }) with lastQuery := .services } }

/-- A state in which a query is asked and a condition holds. -/
theorem asks {i : Instr} {P : State → Prop} (s : State) (h : P (ask s i))
    (hd : decodeQuery (encodeRequest i) = .row i := by decide) (hp : s.ports = State.reset.ports := by rfl)
    (hl : s.lastQuery = .services := by rfl) (he : s.engine = .idle := by rfl) : ∃ s x, Asked i s x ∧ P s := by
  refine ⟨ask s i, asked s i, ⟨by simp [ask, State.modPort, he], ?_, hd⟩, h⟩
  simp [nextQuery, ask, asked, State.modPort, State.port, Ports.get, Ports.set, hp, hl, Port.holdsQuery, State.reset,
    Port.powerOn, Config.replyMax, cycleFrom, Station.after]

theorem settled_of {s : State} (h : s.channels = State.reset.channels := by rfl) (he : s.engine = .idle := by rfl) :
    Settled s := by
  refine ⟨fun n => ?_, by rw [he]; exact nofun⟩
  have : s.channel n = channelsPowerOn.get n := by rw [State.channel, h]; rfl
  rw [this]
  simp only [channelsPowerOn, Tbl.get_tabulate]
  repeat' split
  all_goals exact ⟨rfl, fun _ => rfl⟩

/-! ### Single steps -/

/-- Whether a command's next state has a property. -/
def leaves (i : Instr) (s : State) (p : State → Bool) : Bool :=
  match exec i s with
  | .next t => p t
  | _ => false

/-- R65: an acknowledgement gives the wing INVESTIGATE with T_inv and raises its revision by the one entry. -/
theorem test_acknowledge :
    leaves (.acknowledgeWing 3) (send (stage3 (.ackWait 4)) .fire (.acknowledgeWing 3)) (fun t => decide ((t.wing 3).stage = .investigate 180 ∧ (t.wing 3).revision = 1#16)) := by decide +kernel

/-- R108: a lockdown is refused in a wing that is not in STANDBY. -/
theorem test_lockdown_refused :
    leaves (.lockdownWing 3) (send (stage3 .evacuate) .guard (.lockdownWing 3)) (fun t => decide ((t.wing 3).lockdown = false ∧ t.ports.guard.replies.map (fun r => r.code) = [.evacActive])) := by decide +kernel

/-- R13: a carried revision that differs is STALE_VIEW. -/
theorem test_stale_view :
    leaves (.resetWing 3 417#16) (send (stage3 .evacuate) .fire (.resetWing 3 417#16)) (fun t => decide ((t.wing 3).stage = .evacuate ∧ t.ports.fire.replies.map (fun r => r.code) = [.staleView])) := by decide +kernel

/-- R87, R88: presence breaches an armed zone and makes it OCCUPIED. -/
theorem test_breach :
    leaves (.presenceInput 63) (secured .armed) (fun t => decide ((t.zone 63).security = .breach ∧ (t.zone 63).occupancy = .occupied ∧ t.nextSequence = 2)) := by decide +kernel

/-- R97: an opening without right is a forced opening. -/
theorem test_forced :
    leaves (.contactInput 47 .opened) (house.modChannel 47 (withSource .lock)
        |>.modChannel 47 (fun c => { c with drive := .enabled, effective := .lock })) (fun t => decide ((t.door 47).status = .forced ∧ t.nextSequence = 2)) := by decide +kernel

/-- R120: a first press raises a call, offered at once to the only desk of its list when the desk's station is up. -/
theorem test_call_raised :
    leaves (.callPointInput 63 .pressed)
        (point63 id |>.modPort .services fun p => { p with link := .connected 10 })
      (fun t => decide (t.callQueue = [63] ∧ t.call 63 = some { call 1 (.offered 7 30) with firstPress := 5000 }
          ∧ (t.desk 7).offered = [63])) := by decide +kernel

/-- R23: at the end of a mirrored scan a loop of converter B that waited through it wins B, and the pair, due again, keeps
A. -/
def waitedThrough : State :=
  let ring : Loop := { Loop.powerOn with
    inUse := true, mode := .mirrored, state := .running, power := true, due := true, lastStart := some 100
    scan := some { slot := 1, polls := [] } }
  { house with
    loops := ((Tbl.fill 4 ring).set 1 { Loop.powerOn with inUse := true, state := .running, power := true }).set 3
      { Loop.powerOn with inUse := true, state := .running, power := true, due := true, lastStart := some 90 }
    converterA := .pair 0, converterB := .pair 0 }
theorem test_waited_through :
    leaves (.mirroredPollComplete 0 .noReply (.raw 998)) waitedThrough (fun t =>
      decide (t.converterA = .kept 0 ∧ t.converterB = .loop 3 ∧ (t.loop 0).due = true)) := by decide +kernel

/-- The power-on reset leaves the values of the manual, with the message of the one channel it takes from ENABLED to
RELEASED (R157, R174). -/
theorem test_power_on :
    leaves .powerOn (house.modChannel 275 fun c => { c with drive := .enabled }) (fun t =>
      decide (t.part = .configuring ∧ t.nextSequence = 1 ∧ (t.zone 63).configured = false
        ∧ t.fieldOut = [{ channel := 275, drive := .released, value := none }])) = true := by decide +kernel

/-- R161: in CONFIGURING CONFIG authority comes before the group, and the services station's groups stay its own. -/
theorem test_routing_configuring :
    leaves (.writeSettingRouting none (some .empty) false) (send shut .guard (.writeSettingRouting none (some .empty) false))
        (fun t => decide (t.ports.guard.replies.map (fun r => r.code) = [.notPermitted]))
      && leaves (.writeSettingRouting (some .fire) (some .empty) false)
        (send shut .services (.writeSettingRouting (some .fire) (some .empty) false))
        (fun t => decide (t.ports.services.replies.map (fun r => r.code) = [.notPermitted])) := by decide +kernel

/-- R163: the guard port of section 10.6 with 15 notices takes one, drops the next and sets its gap marker. -/
theorem test_full_queue :
    let p : Port :=
      { Port.powerOn with
        link := .connected 10
        notices := List.replicate 15
          { entry := { sequence := 1, time := 0, kind := .breach, subject := .none, wing := none, detail := .none }
            revision := none, call := none, gap := false } }
    let t := appendZone (appendZone (house.modPort .guard fun _ => p) .breach 63 .none) .breach 63 .none
    t.ports.guard.notices.length = 16 ∧ t.ports.guard.gap = true ∧ t.nextSequence = 3 := by decide +kernel

/-! ### What meets the hypotheses of each obligation -/

/-- A reset state with the end of a transmission waiting, and what a step makes of it. -/
def waiting : State := { State.reset with pending := [.transmissionEnd .fire] }
theorem witness_step : waiting.pending = .transmissionEnd .fire :: [] ∧ step waiting = .next State.reset := ⟨rfl, rfl⟩
theorem witness_tick :
    ∃ s : State, s.pending = [] ∧ (s.port .fire).link = .connected 1 ∧ (s.wing 3).stage = .ackWait 1
      ∧ (s.zone 63).vacancyTimer = some 1 :=
  ⟨(stage3 (.ackWait 1)).modZone 63 (fun z => { z with vacancyTimer := some 1 })
    |>.modPort .fire fun p => { p with link := .connected 1 }, by decide +kernel⟩
theorem witness_log : LogOk waiting ∧ step waiting = .next State.reset := ⟨by unfold LogOk; decide, rfl⟩
theorem witness_ports : PortsOk waiting ∧ step waiting = .next State.reset :=
  ⟨⟨fun st => by cases st <;> exact ⟨by decide, by decide, by decide, by decide, rfl, rfl, rfl, rfl, rfl⟩, by decide⟩, rfl⟩
theorem witness_settled : Settled waiting ∧ step waiting = .next State.reset := ⟨settled_of, rfl⟩
theorem witness_counts : CountsOk waiting ∧ step waiting = .next State.reset :=
  ⟨by unfold CountsOk; decide +kernel, rfl⟩
theorem witness_settings : SettingsOk waiting ∧ step waiting = .next State.reset :=
  ⟨by unfold SettingsOk; decide +kernel, rfl⟩
theorem witness_egress : EgressOk waiting ∧ step waiting = .next State.reset := by
  refine ⟨⟨fun _ => ⟨?_, ?_, ?_, fun n d h => ?_, ?_, ?_, rfl, rfl, ?_⟩, ?_⟩, rfl⟩
  · unfold Wing.quiet; decide +kernel
  · unfold Zone.quiet; decide +kernel
  · unfold Loop.quiet; decide +kernel
  · simp [waiting, State.reset, State.detector] at h
  · unfold Door.quiet; decide +kernel
  · decide +kernel
  · decide +kernel
  · decide +kernel
theorem witness_pairs : LoopPairsOk waiting ∧ step waiting = .next State.reset :=
  ⟨by unfold LoopPairsOk Loop.quiet; decide +kernel, rfl⟩

/-- Every door of the house closed and unlocked, with its value computed, and the end of a transmission waiting. -/
def computed : State :=
  computeAllDoors { house with
    pending := [.transmissionEnd .fire]
    doors := .fill 48
      { Door.powerOn with configured := true, sideA := 63, contact := .closed, status := .closedUnlocked } }
theorem witness_precedence : DoorsOk computed ∧ ∃ t, step computed = .next t :=
  ⟨by unfold DoorsOk; decide +kernel, _, rfl⟩

theorem witness_round_trip :
    (Instr.resetZone 255 0xFFFF#16).wf = true ∧ (Instr.resetZone 255 0xFFFF#16).isCommand = true
      ∧ (Instr.readLog 4294967295 65535).wf = true ∧ (Instr.readLog 4294967295 65535).isQuery = true := by decide
theorem witness_frame : (Frame.mk 0x04#8 0#8 (List.replicate 240 0#8)).body.length ≤ Config.bodyMax := by
  decide +kernel
theorem witness_choice :
    (∃ s : State, (s.port .fire).holdsCommand = true ∧ s.fireBurst = 3)
      ∧ (∃ s : State, s.fireBurst = 4 ∧ s.rotation = .fire ∧ (s.port .guard).holdsCommand = true)
      ∧ choosePort State.reset = none :=
  ⟨⟨{ send house .fire .start with fireBurst := 3 }, by decide⟩
  , ⟨{ send house .guard .start with fireBurst := 4 }, by decide⟩, by decide⟩
theorem witness_judged :
    (∃ s x, Ready (.restart) s x ∧ s.part = .configuring ∧ isRuntime .restart = true)
      ∧ (∃ s x, Ready .start s x ∧ s.part = .inService ∧ isConfiguring .start = true)
      ∧ (∃ s x, Ready (.acknowledgeWing 4) s x ∧ s.part = .inService ∧ NamesMissing s (.acknowledgeWing 4))
      ∧ (∃ s x, Ready (.disableDetector 190) s x ∧ s.part = .inService ∧ NamesMissing s (.disableDetector 190))
      ∧ (∃ s x, Ready (.passDoor 47) s x ∧ s.part = .inService ∧ ¬ NamesMissing s (.passDoor 47)
        ∧ Unauthorised s x.port (.passDoor 47))
      ∧ ∃ s x, Ready (.writeEntryZone 63 (.configured 4)) s x ∧ s.part = .configuring
        ∧ isConfiguring (.writeEntryZone 63 (.configured 4)) = true
        ∧ Instr.writeEntryZone 63 (.configured 4) ≠ .start ∧ x.port = .guard :=
  ⟨meets shut .fire (by decide), meets house .fire (by decide), meets house .fire ⟨rfl, Nat.le_refl 4⟩
  , meets house .fire (by unfold NamesMissing namesNone; decide +kernel)
  , meets house .services (by unfold NamesMissing Unauthorised namesNone; decide +kernel)
  , meets shut .guard (by decide)⟩

/-- A whole frame with a START command. -/
def startFrame : Frame := { kind := 0x01#8, tag := 7#8, body := [0x1B#8] }
theorem witness_frame_received :
    (∃ s : State, s.engine ≠ .opening ∧ (s.port .fire).link = .connected 0
      ∧ hunt ((s.port .fire).received ++ startFrame.bytes) = { frame := some startFrame, held := [] })
      ∧ ∃ s : State, s.engine ≠ .opening ∧ (s.port .services).link = .disconnected ∧ s.callQueue = []
        ∧ hunt ((s.port .services).received ++ startFrame.bytes) = { frame := some startFrame, held := [] } :=
  ⟨⟨house.modPort .fire fun p => { p with link := .connected 0 }, by decide +kernel⟩, ⟨house, by decide +kernel⟩⟩

/-- A reply and a notice that wait. -/
def waitingReply : Reply := { tag := 7#8, request := some 0x1B#8, code := .done, data := .none }
def waitingNotice : Notice :=
  { entry := { sequence := 1, time := 0, kind := .linkUp, subject := .station .fire, wing := none, detail := .none }
    revision := none, call := none, gap := false }
theorem witness_transmission :
    (∃ s : State, s.engine ≠ .opening ∧ (s.port .guard).sending = some .reply
      ∧ (s.port .guard).replies = waitingReply :: [])
      ∧ (∃ s : State, s.engine ≠ .opening ∧ (s.port .guard).sending = some .notice
        ∧ (s.port .guard).notices = waitingNotice :: [])
      ∧ (house.port .guard).sending = none :=
  ⟨⟨house.modPort .guard fun p => { p with sending := some .reply, replies := [waitingReply] }, by decide⟩
  , ⟨house.modPort .guard fun p => { p with sending := some .notice, notices := [waitingNotice] }, by decide⟩
  , by decide⟩
theorem witness_silence :
    ∃ s : State, (s.port .fire).link = .connected 0 ∧ (s.wing 3).stage.waits = true ∧ (63 : Fin 64) ∈ s.callQueue :=
  ⟨{ (stage3 (.investigate 300)).modPort .fire (fun p => { p with link := .connected 0 }) with callQueue := [63] }
  , by decide +kernel⟩

theorem witness_acknowledge :
    (∃ s x, Ready (.acknowledgeWing 3) s x ∧ s.inService = true ∧ x.port = .fire ∧ (s.wing 3).stage = .ackWait 0)
      ∧ (∃ s x, Ready (.acknowledgeWing 3) s x ∧ s.inService = true ∧ x.port = .fire ∧ (s.wing 3).stage = .standby)
      ∧ ∃ s x, Ready (.acknowledgeWing 3) s x ∧ s.inService = true ∧ x.port ≠ .fire :=
  ⟨meets (stage3 (.ackWait 0)) .fire (by decide +kernel), meets house .fire (by decide +kernel)
  , meets house .guard (by decide)⟩
theorem witness_evacuate :
    (∃ s x, Ready (.evacuateWing 3) s x ∧ s.inService = true ∧ x.port = .fire ∧ (s.wing 3).stage ≠ .evacuate)
      ∧ (∃ s x, Ready (.evacuateWing 3) s x ∧ s.inService = true ∧ x.port = .fire ∧ (s.wing 3).stage = .evacuate)
      ∧ ∃ s x, Ready (.evacuateWing 3) s x ∧ s.inService = true ∧ x.port ≠ .fire :=
  ⟨meets house .fire (by decide +kernel), meets (stage3 .evacuate) .fire (by decide +kernel)
  , meets house .services (by decide)⟩
theorem witness_silence_wing :
    (∃ s x, Ready (.silenceWing 3 0#16) s x ∧ s.inService = true ∧ x.port = .fire ∧ (s.wing 3).revision = 0#16
      ∧ (s.wing 3).stage = .evacuate ∧ (s.wing 3).silenced = false)
      ∧ (∃ s x, Ready (.silenceWing 3 0#16) s x ∧ s.inService = true ∧ x.port = .fire ∧ (s.wing 3).revision = 0#16
        ∧ (s.wing 3).stage = .evacuate ∧ (s.wing 3).silenced = true)
      ∧ (∃ s x, Ready (.silenceWing 3 65535#16) s x ∧ s.inService = true ∧ x.port = .fire
        ∧ (s.wing 3).revision ≠ 65535#16)
      ∧ (∃ s x, Ready (.silenceWing 3 0#16) s x ∧ s.inService = true ∧ x.port = .fire ∧ (s.wing 3).revision = 0#16
        ∧ (s.wing 3).stage ≠ .evacuate)
      ∧ ∃ s x, Ready (.silenceWing 3 0#16) s x ∧ s.inService = true ∧ x.port ≠ .fire :=
  ⟨meets (stage3 .evacuate) .fire (by decide +kernel)
  , meets (wing3 fun w => { w with stage := .evacuate, silenced := true }) .fire (by decide +kernel)
  , meets house .fire (by decide +kernel), meets house .fire (by decide +kernel), meets house .guard (by decide)⟩
theorem witness_reset_zone :
    (∃ s x, Ready (.resetZone 63 0#16) s x ∧ s.inService = true ∧ (s.zone 63).configured = true ∧ x.port = .fire
      ∧ (s.wing (s.wingOf 63)).revision = 0#16 ∧ (s.zone 63).fire.inAlarm = true ∧ passesReset s 63 = true)
      ∧ (∃ s x, Ready (.resetZone 63 1#16) s x ∧ s.inService = true ∧ (s.zone 63).configured = true ∧ x.port = .fire
        ∧ (s.wing (s.wingOf 63)).revision ≠ 1#16)
      ∧ (∃ s x, Ready (.resetZone 63 0#16) s x ∧ s.inService = true ∧ (s.zone 63).configured = true ∧ x.port = .fire
        ∧ (s.wing (s.wingOf 63)).revision = 0#16 ∧ (s.zone 63).fire.inAlarm = false)
      ∧ ∃ s x, Ready (.resetZone 63 0#16) s x ∧ s.inService = true ∧ (s.zone 63).configured = true ∧ x.port = .fire
        ∧ (s.wing (s.wingOf 63)).revision = 0#16 ∧ (s.zone 63).fire.inAlarm = true ∧ passesReset s 63 = false :=
  ⟨meets inAlarm .fire (by decide +kernel), meets house .fire (by decide +kernel)
  , meets house .fire (by decide +kernel)
  , meets (inAlarm.putDetector 191 (some { detector .alarm with level := some 320 })) .fire (by decide +kernel)⟩
theorem witness_reset_wing :
    (∃ s x, Ready (.resetWing 3 0#16) s x ∧ s.inService = true ∧ x.port = .fire ∧ (s.wing 3).revision = 0#16
      ∧ (s.wing 3).stage ≠ .standby
      ∧ ∀ z ∈ s.zonesOf 3, (s.zone z).fire.inAlarm = true → passesReset s z = true)
      ∧ (∃ s x, Ready (.resetWing 3 9#16) s x ∧ s.inService = true ∧ x.port = .fire ∧ (s.wing 3).revision ≠ 9#16)
      ∧ (∃ s x, Ready (.resetWing 3 0#16) s x ∧ s.inService = true ∧ x.port = .fire ∧ (s.wing 3).revision = 0#16
        ∧ (s.wing 3).stage = .standby)
      ∧ ∃ s x, Ready (.resetWing 3 0#16) s x ∧ s.inService = true ∧ x.port = .fire ∧ (s.wing 3).revision = 0#16
        ∧ (s.wing 3).stage ≠ .standby ∧ (63 : Fin 64) ∈ s.zonesOf 3 ∧ (s.zone 63).fire.inAlarm = true
        ∧ passesReset s 63 = false :=
  ⟨meets (stage3 .evacuate) .fire (by decide +kernel), meets house .fire (by decide +kernel)
  , meets house .fire (by decide +kernel)
  , meets ((inAlarm.modWing 3 fun w => { w with stage := .evacuate }).putDetector 191
      (some { detector .alarm with level := some 320 })) .fire (by decide +kernel)⟩
theorem witness_manual_alarm :
    ∃ s x, Ready (.manualAlarmZone 63) s x ∧ s.inService = true ∧ (s.zone 63).configured = true ∧ x.port = .fire :=
  meets house .fire (by decide +kernel)
theorem witness_mark_exit :
    (∃ s x, Ready (.markExitBlocked 15) s x ∧ s.inService = true ∧ (s.exit 15).configured = true ∧ x.port = .fire
      ∧ (s.exit 15).stationBlocked ≠ true)
      ∧ (∃ s x, Ready (.markExitOpen 15) s x ∧ s.inService = true ∧ (s.exit 15).configured = true ∧ x.port = .fire
        ∧ (s.exit 15).stationBlocked = false)
      ∧ ∃ s x, Ready (.markExitOpen 15) s x ∧ s.inService = true ∧ (s.exit 15).configured = true
        ∧ x.port ≠ .fire :=
  ⟨meets house .fire (by decide +kernel), meets house .fire (by decide +kernel)
  , meets house .guard (by decide +kernel)⟩
theorem witness_detector_requests :
    (∃ s x, Ready (.disableDetector 191) s x ∧ s.inService = true ∧ s.detector 191 = some (detector .normal)
      ∧ holdsService s x.port (s.wingOf (detector .normal).zone) = true)
      ∧ ∃ s x, Ready (.enableDetector 191) s x ∧ s.inService = true ∧ s.detector 191 = some (detector .normal)
        ∧ x.port ≠ .fire ∧ holdsService s x.port (s.wingOf (detector .normal).zone) = false :=
  ⟨meets house .services (by decide +kernel), meets house .guard (by decide +kernel)⟩
theorem witness_restart_loop :
    (∃ s x, Ready (.restartLoop 3) s x ∧ LoopPairsOk s ∧ s.inService = true ∧ (s.loop 3).inUse = true ∧ x.port = .fire
      ∧ ∀ k ∈ restartReach s 3, (s.loop k).state.isRestarting = false)
      ∧ ∃ s x, Ready (.restartLoop 3) s x ∧ LoopPairsOk s ∧ s.inService = true ∧ (s.loop 3).inUse = true
        ∧ x.port = .fire ∧ (3 : Fin 4) ∈ restartReach s 3 ∧ (s.loop 3).state.isRestarting = true :=
  ⟨meets house .fire ⟨by unfold LoopPairsOk Loop.quiet; decide +kernel, by decide +kernel⟩
  , meets (loop3 fun l => { l with state := .restarting .settle 60 }) .fire
      ⟨by unfold LoopPairsOk Loop.quiet; decide +kernel, by decide +kernel⟩⟩
/-- A part in CONFIGURING that START accepts, with a help point or a broken fire point at number 63. -/
def startable (broken : Bool) : State :=
  { shut with scanLists := .fill 4 (.fill 48 .endMark) }.modPoint 63 fun p =>
    if broken then { p with kind := .fire, input := .pressed } else p
theorem witness_start :
    (∃ s x, Ready .start s x ∧ s.part = .configuring ∧ x.port = .fire ∧ startCheck s = none ∧ NoneBroken s)
      ∧ (∃ s x, Ready .start s x ∧ s.part = .configuring ∧ x.port = .fire ∧ startCheck s = none
        ∧ (s.point 63).configured = true ∧ (s.point 63).kind = .fire ∧ (s.point 63).input = .pressed)
      ∧ (∃ s x, Ready .start s x ∧ s.part = .configuring ∧ x.port = .fire ∧ startCheck s = some (7, .desk 0))
      ∧ ∃ s x, Ready .start s x ∧ s.part = .configuring ∧ x.port ≠ .fire :=
  ⟨meets (startable false) .fire (by unfold NoneBroken; decide +kernel)
  , meets (startable true) .fire (by decide +kernel)
  , meets State.reset .fire (by decide +kernel), meets shut .services (by decide)⟩
theorem witness_restart :
    (∃ s x, Ready .restart s x ∧ s.part = .inService ∧ x.port = .fire ∧ (∀ w, (s.wing w).stage = .standby)
      ∧ ∀ c h, (s.point c).state ≠ .active h)
      ∧ (∃ s x, Ready .restart s x ∧ s.part = .inService ∧ x.port = .fire ∧ (∀ w, (s.wing w).stage = .standby)
        ∧ ∃ c h, (s.point c).state = .active h)
      ∧ (∃ s x, Ready .enterConfiguration s x ∧ s.part = .inService ∧ x.port = .fire
        ∧ ∀ w, (s.wing w).stage = .standby)
      ∧ (∃ s x, Ready .restart s x ∧ s.part = .inService ∧ x.port = .fire ∧ (s.wing 3).stage ≠ .standby)
      ∧ ∃ s x, Ready .enterConfiguration s x ∧ s.part = .inService ∧ x.port = .fire
        ∧ (s.wing 3).stage ≠ .standby :=
  ⟨meets house .fire ⟨rfl, rfl, by decide +kernel, fun c h => by
    have : ∀ c, ((send house .fire .restart).point c).state = .idle := by decide +kernel
    rw [this c]; exact nofun⟩
  , meets (active63 .raised) .fire ⟨rfl, rfl, by decide +kernel, 63, call 2 .raised, by decide +kernel⟩
  , meets house .fire (by decide +kernel), meets (stage3 .evacuate) .fire (by decide +kernel)
  , meets (stage3 (.ackWait 0)) .fire (by decide +kernel)⟩
/-- The house meets the condition of a RESTART without a fire call. -/
theorem witness_restart_unbroken : NoneBroken house := by unfold NoneBroken; decide +kernel

theorem witness_wing_mode :
    (∃ s x, Ready (.setWingMode 3 (some .night)) s x ∧ s.inService = true ∧ holdsGuard s x.port 3 = true
      ∧ (s.wing 3).mode ≠ .night)
      ∧ (∃ s x, Ready (.setWingMode 3 (some .openHours)) s x ∧ s.inService = true ∧ holdsGuard s x.port 3 = true
        ∧ (s.wing 3).mode = .openHours)
      ∧ (∃ s x, Ready (.setWingMode 3 none) s x ∧ s.inService = true ∧ holdsGuard s x.port 3 = true)
      ∧ ∃ s x, Ready (.setWingMode 3 none) s x ∧ s.inService = true ∧ holdsGuard s x.port 3 = false :=
  ⟨meets house .guard (by decide +kernel), meets (wing3 fun w => { w with mode := .openHours }) .guard (by decide +kernel)
  , meets house .guard (by decide +kernel), meets house .fire (by decide +kernel)⟩

/-- What an ARM ZONE needs before its own conditions. -/
def armable (s : State) (x : TakenRequest) : Prop :=
  Ready (.armZone 63) s x ∧ s.inService = true ∧ (s.zone 63).configured = true
    ∧ holdsGuard s x.port (s.wingOf 63) = true
theorem armable_of (s : State) {P : State → Prop} (h : P (send s .guard (.armZone 63)))
    (k : (s.inService && (s.zone 63).configured && holdsGuard (send s .guard (.armZone 63)) .guard (s.wingOf 63)) = true :=
      by decide +kernel)
    (hp : s.ports = State.reset.ports := by rfl) (hr : s.rotation = .fire := by rfl)
    (hf : s.fireBurst = 0 := by rfl) (he : s.engine = .idle := by rfl) : ∃ s x, armable s x ∧ P s := by
  simp only [Bool.and_eq_true] at k
  exact ⟨_, _, ⟨ready .guard (by decide) hp hr hf he, k.1.1, k.1.2, k.2⟩, h⟩
theorem witness_arm :
    (∃ s x, armable s x ∧ (s.zone 63).security = .disarmed ∧ s.atStandby (s.wingOf 63) = true
      ∧ (s.zone 63).transit = 0 ∧ (s.zone 63).occupancy = .vacant ∧ (s.zone 63).activeCalls = 0
      ∧ borderOpen s 63 = false)
      ∧ (∃ s x, armable s x ∧ (s.zone 63).security ≠ .disarmed)
      ∧ (∃ s x, armable s x ∧ (s.zone 63).security = .disarmed ∧ s.atStandby (s.wingOf 63) = false)
      ∧ (∃ s x, armable s x ∧ (s.zone 63).security = .disarmed ∧ s.atStandby (s.wingOf 63) = true
        ∧ (s.zone 63).transit = 0 ∧ (s.zone 63).occupancy = .occupied)
      ∧ ∃ s x, armable s x ∧ (s.zone 63).security = .disarmed ∧ s.atStandby (s.wingOf 63) = true
        ∧ (s.zone 63).transit ≠ 0 :=
  ⟨armable_of house (by decide +kernel), armable_of (secured .breach) (by decide +kernel)
  , armable_of (stage3 .evacuate) (by decide +kernel)
  , armable_of (zone63 fun z => { z with occupancy := .occupied }) (by decide +kernel)
  , armable_of (zone63 fun z => { z with transit := 1 }) (by decide +kernel)⟩
theorem witness_disarm_refused :
    (∃ s x, Ready (.disarmZone 63) s x ∧ s.inService = true ∧ (s.zone 63).configured = false)
      ∧ ∃ s x, Ready (.clearBreach 63 5#16) s x ∧ s.inService = true ∧ (s.zone 63).configured = true
        ∧ holdsGuard s x.port (s.wingOf 63) = false :=
  ⟨meets (zone63 fun z => { z with configured := false }) .guard (by decide +kernel)
  , meets house .fire (by decide +kernel)⟩
theorem witness_disarm :
    (∃ s x, Ready (.disarmZone 63) s x ∧ s.inService = true ∧ (s.zone 63).configured = true
      ∧ holdsGuard s x.port (s.wingOf 63) = true ∧ (s.zone 63).security = .suspended .armed)
      ∧ (∃ s x, Ready (.disarmZone 63) s x ∧ s.inService = true ∧ (s.zone 63).configured = true
        ∧ holdsGuard s x.port (s.wingOf 63) = true ∧ (s.zone 63).security = .disarmed)
      ∧ (∃ s x, Ready (.disarmZone 63) s x ∧ s.inService = true ∧ (s.zone 63).configured = true
        ∧ holdsGuard s x.port (s.wingOf 63) = true ∧ (s.zone 63).security = .breach)
      ∧ (∃ s x, Ready (.clearBreach 63 0#16) s x ∧ s.inService = true ∧ (s.zone 63).configured = true
        ∧ holdsGuard s x.port (s.wingOf 63) = true ∧ (s.wing (s.wingOf 63)).revision = 0#16
        ∧ (s.zone 63).security = .breach)
      ∧ (∃ s x, Ready (.clearBreach 63 5#16) s x ∧ s.inService = true ∧ (s.zone 63).configured = true
        ∧ holdsGuard s x.port (s.wingOf 63) = true ∧ (s.wing (s.wingOf 63)).revision ≠ 5#16)
      ∧ ∃ s x, Ready (.clearBreach 63 0#16) s x ∧ s.inService = true ∧ (s.zone 63).configured = true
        ∧ holdsGuard s x.port (s.wingOf 63) = true ∧ (s.wing (s.wingOf 63)).revision = 0#16
        ∧ (s.zone 63).security ≠ .breach :=
  ⟨meets (secured (.suspended .armed)) .guard (by decide +kernel), meets house .guard (by decide +kernel)
  , meets (secured .breach) .guard (by decide +kernel), meets (secured .breach) .guard (by decide +kernel)
  , meets house .guard (by decide +kernel), meets house .guard (by decide +kernel)⟩
theorem witness_pass_door :
    (∃ s x, Ready (.passDoor 47) s x ∧ s.inService = true ∧ (s.door 47).configured = true
      ∧ holdsGuard s x.port (s.doorWing 47) = true ∧ (s.door 47).kind ≠ .fireHold
      ∧ ∀ z ∈ (s.door 47).sides, (s.zone z).security ≠ .armed)
      ∧ ∃ s x, Ready (.passDoor 47) s x ∧ s.inService = true ∧ (s.door 47).configured = true
        ∧ holdsGuard s x.port (s.doorWing 47) = true ∧ ∃ z ∈ (s.door 47).sides, (s.zone z).security = .armed :=
  ⟨meets house .guard (by decide +kernel), meets (secured .armed) .guard (by decide +kernel)⟩
theorem witness_lockdown :
    (∃ s x, Ready (.lockdownWing 3) s x ∧ s.inService = true ∧ holdsGuard s x.port 3 = true
      ∧ (s.wing 3).stage = .standby ∧ (s.wing 3).lockdown = false)
      ∧ (∃ s x, Ready (.lockdownWing 3) s x ∧ s.inService = true ∧ holdsGuard s x.port 3 = true
        ∧ (s.wing 3).stage = .standby ∧ (s.wing 3).lockdown = true)
      ∧ (∃ s x, Ready (.lockdownWing 3) s x ∧ s.inService = true ∧ holdsGuard s x.port 3 = true
        ∧ (s.wing 3).stage ≠ .standby)
      ∧ (∃ s x, Ready (.endLockdown 3) s x ∧ s.inService = true ∧ holdsGuard s x.port 3 = true
        ∧ (s.wing 3).lockdown = true)
      ∧ (∃ s x, Ready (.endLockdown 3) s x ∧ s.inService = true ∧ holdsGuard s x.port 3 = true
        ∧ (s.wing 3).lockdown = false)
      ∧ ∃ s x, Ready (.endLockdown 3) s x ∧ s.inService = true ∧ holdsGuard s x.port 3 = false :=
  ⟨meets house .guard (by decide +kernel), meets (wing3 fun w => { w with lockdown := true }) .guard (by decide +kernel)
  , meets (stage3 .evacuate) .guard (by decide +kernel)
  , meets (wing3 fun w => { w with lockdown := true }) .guard (by decide +kernel)
  , meets house .guard (by decide +kernel), meets house .fire (by decide +kernel)⟩
theorem witness_patrol :
    (∃ s x, Ready (.reportPatrol 63) s x ∧ s.inService = true ∧ (s.zone 63).configured = true
      ∧ holdsGuard s x.port (s.wingOf 63) = true)
      ∧ (∃ s x, Ready (.reportPatrol 63) s x ∧ s.inService = true ∧ (s.zone 63).configured = false)
      ∧ ∃ s x, Ready (.reportPatrol 63) s x ∧ s.inService = true ∧ (s.zone 63).configured = true
        ∧ holdsGuard s x.port (s.wingOf 63) = false :=
  ⟨meets (secured .armed) .guard (by decide +kernel)
  , meets (zone63 fun z => { z with configured := false }) .guard (by decide +kernel)
  , meets house .fire (by decide +kernel)⟩
theorem witness_test_zone :
    (∃ s x, Ready (.testZoneOn 63) s x ∧ s.inService = true ∧ (s.zone 63).configured = true
      ∧ holdsService s x.port (s.wingOf 63) = true ∧ s.atStandby (s.wingOf 63) = true)
      ∧ (∃ s x, Ready (.testZoneOff 63) s x ∧ s.inService = true ∧ (s.zone 63).configured = true
        ∧ holdsService s x.port (s.wingOf 63) = true ∧ s.atStandby (s.wingOf 63) = true
        ∧ (s.zone 63).testTimer = some 0)
      ∧ (∃ s x, Ready (.testZoneOff 63) s x ∧ s.inService = true ∧ (s.zone 63).configured = true
        ∧ holdsService s x.port (s.wingOf 63) = true ∧ s.atStandby (s.wingOf 63) = true
        ∧ (s.zone 63).testTimer = none)
      ∧ ∃ s x, Ready (.testZoneOff 63) s x ∧ s.inService = true ∧ (s.zone 63).configured = true
        ∧ holdsService s x.port (s.wingOf 63) = true ∧ s.atStandby (s.wingOf 63) = false :=
  ⟨meets house .services (by decide +kernel)
  , meets (zone63 fun z => { z with testTimer := some 0 }) .services (by decide +kernel)
  , meets house .services (by decide +kernel), meets (stage3 .evacuate) .services (by decide +kernel)⟩
theorem witness_maintenance :
    (∃ s x, Ready (.holdChannels 275 1) s x ∧ Settled s ∧ s.inService = true
      ∧ servesRange s x.port (rangeWings s 275 1) = true ∧ ∀ w ∈ rangeWings s 275 1, s.atStandby w = true)
      ∧ (∃ s x, Ready (.restoreDrive 0 276) s x ∧ Settled s ∧ s.inService = true
        ∧ servesRange s x.port (rangeWings s 0 276) = false)
      ∧ (∃ s x, Ready (.freeChannels 275 1) s x ∧ s.inService = true
        ∧ servesRange s x.port (rangeWings s 275 1) = true ∧ (3 : Fin 4) ∈ rangeWings s 275 1
        ∧ s.atStandby 3 = false)
      ∧ (∃ s x, Ready (.releaseDrive 0 0) s x ∧ Settled s ∧ s.inService = true)
      ∧ (∃ s x, Ready (.releaseDrive 0 277) s x ∧ Settled s ∧ s.inService = true)
      ∧ ∃ s x, Ready (.holdChannels 275 2) s x ∧ Settled s ∧ s.inService = true :=
  ⟨meets house .services ⟨settled_of, by decide +kernel⟩, meets house .guard ⟨settled_of, by decide +kernel⟩
  , meets ((stage3 .evacuate).modChannel 275 fun c => { c with wing := some 3 }) .services (by decide +kernel)
  , meets house .services ⟨settled_of, rfl⟩, meets house .services ⟨settled_of, rfl⟩
  , meets house .services ⟨settled_of, rfl⟩⟩
theorem witness_desks :
    (∃ s x, Ready (.acceptCall 63 7) s x ∧ s.inService = true ∧ (s.point 63).configured = true
      ∧ (s.point 63).kind = .help ∧ (s.desk 7).owner = some x.port ∧ s.call 63 = some (call 2 (.offered 7 0)))
      ∧ (∃ s x, Ready (.acceptCall 63 7) s x ∧ s.inService = true ∧ (s.point 63).configured = true
        ∧ (s.point 63).kind = .help ∧ (s.desk 7).owner = some x.port ∧ s.call 63 = none)
      ∧ (∃ s x, Ready (.acceptCall 63 7) s x ∧ s.inService = true ∧ (s.point 63).configured = true
        ∧ (s.desk 7).owner ≠ some x.port)
      ∧ (∃ s x, Ready (.clearCall 63) s x ∧ s.inService = true ∧ (s.point 63).configured = true
        ∧ (s.point 63).kind = .help ∧ s.call 63 = some (call 2 (.accepted 7)) ∧ (s.desk 7).owner = some x.port)
      ∧ (∃ s x, Ready (.clearCall 63) s x ∧ s.inService = true ∧ (s.point 63).configured = true
        ∧ (s.point 63).kind = .help ∧ s.call 63 = none
        ∧ holdsGuard s x.port (s.wingOf (s.point 63).zone) = true)
      ∧ (∃ s x, Ready (.setDeskCapacity 7 5) s x ∧ s.inService = true ∧ (s.desk 7).owner = some x.port
        ∧ (s.desk 7).offered.length ≤ clamp 1 4 5)
      ∧ (∃ s x, Ready (.setDeskCapacity 7 0) s x ∧ s.inService = true ∧ (s.desk 7).owner = some x.port
        ∧ clamp 1 4 0 < (s.desk 7).offered.length)
      ∧ (∃ s x, Ready (.acceptCall 63 7) s x ∧ s.inService = true ∧ (s.point 63).configured = true
        ∧ (s.point 63).kind = .help ∧ (s.desk 7).owner = some x.port ∧ s.call 63 = some (call 2 (.accepted 7)))
      ∧ (∃ s x, Ready (.acceptCall 63 7) s x ∧ s.inService = true ∧ (s.point 63).configured = true
        ∧ (s.point 63).kind = .fire ∧ (s.desk 7).owner = some x.port)
      ∧ (∃ s x, Ready (.clearCall 63) s x ∧ s.inService = true ∧ (s.point 63).configured = true
        ∧ (s.point 63).kind = .help ∧ s.call 63 = some (call 2 .raised)
        ∧ holdsGuard s x.port (s.wingOf (s.point 63).zone) = false)
      ∧ (∃ s x, Ready (.clearCall 63) s x ∧ s.inService = true ∧ (s.point 63).configured = true
        ∧ (s.point 63).kind = .fire ∧ holdsGuard s x.port (s.wingOf (s.point 63).zone) = true)
      ∧ (∃ s x, Ready (.clearCall 63) s x ∧ s.inService = true ∧ (s.point 63).configured = true
        ∧ (s.point 63).kind = .fire ∧ holdsGuard s x.port (s.wingOf (s.point 63).zone) = false ∧ s.call 63 = none)
      ∧ (∃ s x, Ready (.acceptCall 63 7) s x ∧ s.inService = true ∧ (s.point 63).configured = true ∧ s.callQueue = [63]
        ∧ (s.point 63).kind = .help ∧ (s.desk 7).owner = some x.port ∧ s.call 63 = some (call 2 (.offered 7 0)))
      ∧ ∃ s x, Ready (.clearCall 63) s x ∧ s.inService = true ∧ (s.point 63).configured = true ∧ s.callQueue = [63]
        ∧ (s.point 63).kind = .help ∧ s.call 63 = some (call 2 (.accepted 7)) ∧ (s.desk 7).owner = some x.port :=
  ⟨meets (active63 (.offered 7 0)) .services (by decide +kernel), meets house .services (by decide +kernel)
  , meets house .guard (by decide +kernel), meets (active63 (.accepted 7)) .services (by decide +kernel)
  , meets house .guard (by decide +kernel), meets house .services (by decide +kernel)
  , meets (house.modDesk 7 fun d => { d with offered := [0, 63] }) .services (by decide +kernel)
  , meets (active63 (.accepted 7)) .services (by decide +kernel)
  , meets (point63 fun p => { p with kind := .fire }) .services (by decide +kernel)
  , meets (active63 .raised) .services (by decide +kernel)
  , meets (point63 fun p => { p with kind := .fire }) .guard (by decide +kernel)
  , meets (point63 fun p => { p with kind := .fire }) .fire (by decide +kernel)
  , meets { active63 (.offered 7 0) with callQueue := [63] } .services (by decide +kernel)
  , meets { active63 (.accepted 7) with callQueue := [63] } .services (by decide +kernel)⟩

/-- The fields of a class entry. -/
def heatFields : ClassFields :=
  { kind := some .heat, preAlarm := 400, alarm := 600, riseStep := 12, riseCount := 4, night := 0
    tracking := some false, bmin := 256, bmax := 1536, fixedBaseline := 1000, window := none }
def wingFields (spread : List Nat) : WingFields :=
  { initialMode := some .closed, staged := true, spreadList := spread, evacDesk := some 7 }
theorem witness_entries_zones :
    (∃ s x, Ready (.writeEntryZone 63 (.configured 3)) s x ∧ s.part = .configuring ∧ x.port ≠ .guard)
      ∧ (∃ s x, Ready (.writeEntryZone 63 .unconfigured) s x ∧ s.part = .configuring ∧ x.port ≠ .guard)
      ∧ (∃ s x, Ready (.writeEntryWing 3 (wingFields [0, 1, 2])) s x ∧ s.part = .configuring ∧ x.port ≠ .guard
        ∧ (3 : Fin 4) ∉ ([0, 1, 2] : List (Fin 4)) ∧ ([0, 1, 2] : List (Fin 4)).Nodup)
      ∧ (∃ s x, Ready (.writeEntryWing 3 (wingFields [3])) s x ∧ s.part = .configuring ∧ x.port ≠ .guard
        ∧ (3 : Fin 4) ∈ ([3] : List (Fin 4)))
      ∧ ∃ s x, Ready (.writeEntryClass 7 heatFields) s x ∧ s.part = .configuring ∧ x.port ≠ .guard
        ∧ heatFields.kind = some .heat ∧ heatFields.tracking = some false :=
  ⟨meets shut .fire (by decide), meets shut .services (by decide), meets shut .fire (by decide)
  , meets shut .fire (by decide), meets shut .fire (by decide)⟩
theorem witness_entries_detection :
    (∃ s x, Ready (.writeEntryDetector 191 (.placed 3 48 63 7)) s x ∧ s.part = .configuring ∧ x.port ≠ .guard)
      ∧ (∃ s x, Ready (.writeEntryDetector 191 (.placed 3 49 63 7)) s x ∧ s.part = .configuring ∧ x.port ≠ .guard)
      ∧ (∃ s x, Ready (.writeEntryDetector 191 .removed) s x ∧ s.part = .configuring ∧ x.port ≠ .guard)
      ∧ (∃ s x, Ready (.writeEntryLoop 1 true (some .mirrored)) s x ∧ s.part = .configuring ∧ x.port ≠ .guard)
      ∧ (∃ s x, Ready (.writeEntryLoop 2 true (some .mirrored)) s x ∧ s.part = .configuring ∧ x.port ≠ .guard)
      ∧ (∃ s x, Ready (.writeEntryLoop 3 true (some .independent)) s x ∧ s.part = .configuring ∧ x.port ≠ .guard
        ∧ (s.loop 3).mode = .mirrored)
      ∧ (∃ s x, Ready (.writeEntryLoop 3 true (some .independent)) s x ∧ s.part = .configuring ∧ x.port ≠ .guard
        ∧ (s.loop 3).mode = .independent)
      ∧ (∃ s x, Ready (.writeEntryScanList 3 47 (.address 48 true)) s x ∧ s.part = .configuring ∧ x.port ≠ .guard)
      ∧ (∃ s x, Ready (.writeEntryScanList 3 47 .endMark) s x ∧ s.part = .configuring ∧ x.port ≠ .guard)
      ∧ ∃ s x, Ready (.writeEntryScanList 3 47 (.address 0 true)) s x ∧ s.part = .configuring ∧ x.port ≠ .guard :=
  ⟨meets shut .fire (by decide), meets shut .fire (by decide), meets shut .fire (by decide)
  , meets shut .fire (by decide), meets shut .fire (by decide)
  , meets (shut.modLoop 3 fun l => { l with mode := .mirrored }) .fire (by decide), meets shut .fire (by decide)
  , meets shut .services (by decide), meets shut .services (by decide), meets shut .services (by decide)⟩
theorem witness_entries_doors :
    (∃ s x, Ready (.writeEntryDoor 47 (.configured 63 (.zone 62) (some .store) (some .failSecure) true .sideB)) s x
      ∧ s.part = .configuring ∧ x.port ≠ .guard)
      ∧ (∃ s x, Ready (.writeEntryDoor 47 (.configured 63 .outside (some .fireHold) (some .failSafe) false .absent)) s x
        ∧ s.part = .configuring ∧ x.port ≠ .guard)
      ∧ (∃ s x, Ready (.writeEntryDoor 47 (.configured 63 (.zone 63) (some .secureEgress) (some .failSafe) false
        .absent)) s x ∧ s.part = .configuring ∧ x.port ≠ .guard)
      ∧ (∃ s x, Ready (.writeEntryDoor 47 (.configured 63 .outside (some .store) (some .failSafe) false .sideB)) s x
        ∧ s.part = .configuring ∧ x.port ≠ .guard)
      ∧ (∃ s x, Ready (.writeEntryDoor 47 .unconfigured) s x ∧ s.part = .configuring ∧ x.port ≠ .guard)
      ∧ (∃ s x, Ready (.writeEntryCallPoint 63 .unconfigured) s x ∧ s.part = .configuring ∧ x.port ≠ .guard)
      ∧ (∃ s x, Ready (.writeEntryCallPoint 63 (.configured 63 (some .help) (([5, 6, 7] : List (Fin 8)).map Fin.val))) s x
        ∧ s.part = .configuring ∧ x.port ≠ .guard ∧ ([5, 6, 7] : List (Fin 8)).Nodup)
      ∧ (∃ s x, Ready (.writeEntryCallPoint 63 (.configured 63 (some .help) (([4, 5, 6, 7] : List (Fin 8)).map Fin.val))) s x
        ∧ s.part = .configuring ∧ x.port ≠ .guard)
      ∧ (∃ s x, Ready (.writeEntryCallPoint 63 (.configured 63 (some .fire) [])) s x ∧ s.part = .configuring
        ∧ x.port ≠ .guard)
      ∧ ∃ s x, Ready (.writeEntryDesk 7 { owner := some .services, capacity := 5, tOffer := 9 }) s x
        ∧ s.part = .configuring ∧ x.port ≠ .guard :=
  ⟨meets shut .fire (by decide), meets shut .fire (by decide), meets shut .fire (by decide)
  , meets shut .fire (by decide), meets shut .services (by decide), meets shut .services (by decide)
  , meets shut .services (by decide), meets shut .services (by decide), meets shut .services (by decide)
  , meets shut .services (by decide)⟩
theorem witness_entries_routes :
    (∃ s x, Ready (.writeEntryExit 15 (.configured 63 (some 47))) s x ∧ s.part = .configuring ∧ x.port ≠ .guard)
      ∧ (∃ s x, Ready (.writeEntryExit 15 .unconfigured) s x ∧ s.part = .configuring ∧ x.port ≠ .guard)
      ∧ (∃ s x, Ready (.writeEntryDescriptor 511 { zone := 63, sign := some 95, arrow := .arrow .back, lastStep := true })
        s x ∧ s.part = .configuring ∧ x.port ≠ .guard)
      ∧ (∃ s x, Ready (.writeEntryDescriptor 511 { zone := 63, sign := none, arrow := .absent, lastStep := false }) s x
        ∧ s.part = .configuring ∧ x.port ≠ .guard)
      ∧ (∃ s x, Ready (.writeEntryRouteList 63 (List.replicate 4 { head := 511, exit := 15 })) s x
        ∧ s.part = .configuring ∧ x.port ≠ .guard)
      ∧ (∃ s x, Ready (.writeEntryRouteList 63 (List.replicate 5 { head := 511, exit := 15 })) s x
        ∧ s.part = .configuring ∧ x.port ≠ .guard)
      ∧ (∃ s x, Ready (.writeEntrySign 95 63) s x ∧ s.part = .configuring ∧ x.port ≠ .guard)
      ∧ (∃ s x, Ready (.writeEntryChannel 47 (some .inverted)) s x ∧ s.part = .configuring ∧ x.port ≠ .guard)
      ∧ ∃ s x, Ready (.writeEntryChannel 48 (some .inverted)) s x ∧ s.part = .configuring ∧ x.port ≠ .guard :=
  ⟨meets shut .fire (by decide), meets shut .fire (by decide), meets shut .fire (by decide)
  , meets shut .fire (by decide), meets shut .fire (by decide), meets shut .fire (by decide)
  , meets shut .fire (by decide), meets shut .fire (by decide), meets shut .fire (by decide)⟩

/-- A refused entry of each table: each of these words spells its command, in CONFIGURING from the fire station. -/
def Refused (i : Instr) : Prop := ∃ s x, Ready i s x ∧ s.part = .configuring ∧ x.port ≠ .guard
theorem refused (i : Instr) (h : decodeCommand (encodeRequest i) = .row i := by decide) : Refused i :=
  meets shut .fire ⟨rfl, nofun⟩ h
theorem witness_refused_records :
    Refused (.writeEntryZone 64 .unconfigured) ∧ Refused (.writeEntryZone 63 (.configured 4))
      ∧ Refused (.writeEntryWing 4 (wingFields [])) ∧ Refused (.writeEntryWing 3 (wingFields [4]))
      ∧ Refused (.writeEntryWing 3 { wingFields [] with evacDesk := some 8 })
      ∧ Refused (.writeEntryWing 3 { wingFields [] with initialMode := none })
      ∧ Refused (.writeEntryClass 8 heatFields) ∧ Refused (.writeEntryClass 7 { heatFields with kind := none })
      ∧ Refused (.writeEntryClass 7 { heatFields with tracking := none })
      ∧ Refused (.writeEntryDetector 192 .removed) ∧ Refused (.writeEntryDetector 191 (.placed 4 1 0 0))
      ∧ Refused (.writeEntryDetector 191 (.placed 3 1 64 0)) ∧ Refused (.writeEntryDetector 191 (.placed 3 1 63 8))
      ∧ Refused (.writeEntryLoop 4 true none) ∧ Refused (.writeEntryLoop 3 true none)
      ∧ Refused (.writeEntryScanList 4 0 .endMark) ∧ Refused (.writeEntryScanList 3 48 .endMark) :=
  ⟨refused _, refused _, refused _, refused _, refused _, refused _, refused _, refused _, refused _, refused _
  , refused _, refused _, refused _, refused _, refused _, refused _, refused _⟩
theorem witness_refused_doors :
    Refused (.writeEntryDoor 48 .unconfigured)
      ∧ Refused (.writeEntryDoor 48 (.configured 0 .outside (some .store) (some .failSafe) false .sideA))
      ∧ Refused (.writeEntryDoor 47 (.configured 64 .outside (some .store) (some .failSafe) false .sideA))
      ∧ Refused (.writeEntryDoor 47 (.configured 63 (.zone 64) (some .store) (some .failSafe) false .sideA))
      ∧ Refused (.writeEntryDoor 47 (.configured 63 .other (some .store) (some .failSafe) false .sideA))
      ∧ Refused (.writeEntryDoor 47 (.configured 63 .outside none (some .failSafe) false .absent))
      ∧ Refused (.writeEntryCallPoint 64 .unconfigured)
      ∧ Refused (.writeEntryCallPoint 64 (.configured 63 (some .fire) []))
      ∧ Refused (.writeEntryCallPoint 63 (.configured 63 (some .help) [8]))
      ∧ Refused (.writeEntryCallPoint 63 (.configured 63 (some .fire) [7]))
      ∧ Refused (.writeEntryCallPoint 63 (.configured 63 none []))
      ∧ Refused (.writeEntryDesk 8 { owner := some .fire, capacity := 1, tOffer := 10 })
      ∧ Refused (.writeEntryDesk 7 { owner := none, capacity := 1, tOffer := 10 }) :=
  ⟨refused _, refused _, refused _, refused _, refused _, refused _, refused _, refused _, refused _, refused _
  , refused _, refused _, refused _⟩
theorem witness_refused_routes :
    Refused (.writeEntryExit 16 .unconfigured) ∧ Refused (.writeEntryExit 15 (.configured 64 none))
      ∧ Refused (.writeEntryExit 15 (.configured 63 (some 48)))
      ∧ Refused (.writeEntryDescriptor 512 { zone := 63, sign := none, arrow := .absent, lastStep := true })
      ∧ Refused (.writeEntryDescriptor 511 { zone := 64, sign := none, arrow := .absent, lastStep := true })
      ∧ Refused (.writeEntryDescriptor 511 { zone := 63, sign := some 96, arrow := .arrow .left, lastStep := true })
      ∧ Refused (.writeEntryDescriptor 511 { zone := 63, sign := some 95, arrow := .other, lastStep := true })
      ∧ Refused (.writeEntryDescriptor 511 { zone := 63, sign := some 95, arrow := .absent, lastStep := true })
      ∧ Refused (.writeEntryRouteList 64 []) ∧ Refused (.writeEntryRouteList 63 [{ head := 512, exit := 15 }])
      ∧ Refused (.writeEntryRouteList 63 [{ head := 511, exit := 16 }])
      ∧ Refused (.writeEntrySign 96 63) ∧ Refused (.writeEntrySign 95 64)
      ∧ Refused (.writeEntryChannel 276 (some .normal)) ∧ Refused (.writeEntryChannel 275 none) :=
  ⟨refused _, refused _, refused _, refused _, refused _, refused _, refused _, refused _, refused _, refused _
  , refused _, refused _, refused _, refused _, refused _⟩
theorem witness_wing_settings :
    (∃ s x, Ready (.writeSettingZoneWing (.tSpread 3 901)) s x ∧ s.inService = true ∧ x.port = .fire)
      ∧ (∃ s x, Ready (.writeSettingZoneWing (.tAck 3 4)) s x ∧ s.inService = false ∧ x.port ≠ .guard)
      ∧ (∃ s x, Ready (.writeSettingZoneWing (.exitDelay 3 10)) s x ∧ s.inService = true
        ∧ holdsGuard s x.port 3 = true)
      ∧ (∃ s x, Ready (.writeSettingZoneWing (.vacancyPeriod 63 61)) s x ∧ s.inService = true
        ∧ (s.zone 63).configured = true ∧ holdsGuard s x.port (s.wingOf 63) = true ∧ 120 ∈ vacancySteps ∧ 61 ≤ 120
        ∧ ∀ b ∈ vacancySteps, 61 ≤ b → 120 ≤ b)
      ∧ ∃ s x, Ready (.writeSettingZoneWing (.activityClass 63 .patrol (some .ignored))) s x ∧ s.inService = true
        ∧ (s.zone 63).configured = true ∧ holdsGuard s x.port (s.wingOf 63) = true :=
  ⟨meets house .fire (by decide), meets shut .fire (by decide), meets house .guard (by decide +kernel)
  , meets house .guard (by decide +kernel), meets house .guard (by decide +kernel)⟩
theorem witness_loop_settings :
    (∃ s x, Ready (.writeSettingLoop 3 (.scanInterval 11)) s x ∧ s.inService = true ∧ (s.loop 3).inUse = true
      ∧ servesLoop s x.port 3 = true)
      ∧ (∃ s x, Ready (.writeSettingLoop 1 (.mode (some .mirrored))) s x ∧ s.inService = true ∧ (s.loop 1).inUse = true
        ∧ servesLoop s x.port 1 = true ∧ s.slot (upperLoop (pairOf 1)) 0 = .endMark)
      ∧ (∃ s x, Ready (.writeSettingLoop 2 (.mode (some .mirrored))) s x ∧ s.inService = true ∧ (s.loop 2).inUse = true
        ∧ servesLoop s x.port 2 = true)
      ∧ (∃ s x, Ready (.writeSettingLoop 1 (.mode (some .mirrored))) s x ∧ s.inService = true ∧ (s.loop 1).inUse = true
        ∧ servesLoop s x.port 1 = true ∧ (s.loop 1).mode = .independent
        ∧ s.slot (upperLoop (pairOf 1)) 0 ≠ .endMark)
      ∧ (∃ s x, Ready (.writeSettingLoop 3 (.mode (some .independent))) s x ∧ s.inService = false ∧ x.port ≠ .guard)
      ∧ (∃ s x, Ready (.writeSettingDoor 47 (.tHeld 601)) s x ∧ s.inService = true ∧ (s.door 47).configured = true
        ∧ holdsGuard s x.port (s.doorWing 47) = true)
      ∧ (∃ s x, Ready (.writeSettingTOffer 7 9) s x ∧ s.inService = true ∧ (s.desk 7).owner = some x.port)
      ∧ (∃ s x, Ready (.writeSettingDeskList 63 (([5, 6, 7] : List (Fin 8)).map Fin.val)) s x ∧ (s.point 63).kind = .help
        ∧ s.inService = true ∧ (s.point 63).configured = true
        ∧ holdsService s x.port (s.wingOf (s.point 63).zone) = true ∧ ([5, 6, 7] : List (Fin 8)).Nodup)
      ∧ ∃ s x, Ready (.writeSettingDeskList 63 []) s x ∧ (s.point 63).kind = .help ∧ s.inService = true
        ∧ (s.point 63).configured = true ∧ holdsService s x.port (s.wingOf (s.point 63).zone) = true :=
  ⟨meets house .services (by decide +kernel)
  , meets (house.putSlot 3 0 .endMark) .services (by decide +kernel), meets house .services (by decide +kernel)
  , meets house .services (by decide +kernel), meets shut .fire (by decide), meets house .guard (by decide +kernel)
  , meets house .services (by decide +kernel), meets house .services (by decide +kernel)
  , meets house .services (by decide +kernel)⟩
theorem witness_routing :
    (∃ s x, Ready (.writeSettingRouting (some .system) (some .empty) true) s x ∧ x.port = .fire)
      ∧ (∃ s x, Ready (.writeSettingRouting (some .output) (some .empty) true) s x ∧ x.port = .services
        ∧ s.inService = false)
      ∧ (∃ s x, Ready (.writeSettingRouting (some .call) (some .empty) true) s x ∧ x.port = .guard ∧ s.inService = true)
      ∧ (∃ s x, Ready (.writeSettingAuthority (some .services) 3 (some .service) false) s x ∧ x.port = .fire)
      ∧ ∃ s x, Ready (.writeSettingAuthority (some .services) 3 (some .service) false) s x ∧ x.port ≠ .fire :=
  ⟨meets house .fire (by decide), meets shut .services (by decide), meets house .guard (by decide)
  , meets house .fire (by decide), meets house .guard (by decide)⟩

/-- A station whose WRITE SETTING is refused: the command is ready, in service or not. -/
def Refuses (i : Instr) (P : State → Station → Prop) : Prop := ∃ s x, Ready i s x ∧ P s x.port
theorem witness_refused_wing_settings :
    Refuses (.writeSettingZoneWing (.tAck 4 5)) (fun s _ => s.inService = true)
      ∧ Refuses (.writeSettingZoneWing (.tSpread 3 0)) (fun s st => s.inService = true ∧ st ≠ .fire)
      ∧ Refuses (.writeSettingZoneWing (.exitDelay 3 120)) (fun s st => s.inService = true ∧ holdsGuard s st 3 = false)
      ∧ Refuses (.writeSettingZoneWing (.tInv 3 30)) (fun s st => s.inService = false ∧ st = .guard)
      ∧ Refuses (.writeSettingZoneWing (.vacancyPeriod 64 60)) (fun s _ => s.inService = false)
      ∧ Refuses (.writeSettingZoneWing (.activityClass 63 .call none)) (fun s st =>
        s.inService = true ∧ (s.zone 63).configured = true ∧ holdsGuard s st (s.wingOf 63) = false)
      ∧ Refuses (.writeSettingZoneWing (.activityClass 63 .call none)) (fun s st =>
        s.inService = true ∧ (s.zone 63).configured = true ∧ holdsGuard s st (s.wingOf 63) = true) :=
  ⟨meets house .fire rfl, meets house .guard ⟨rfl, nofun⟩, meets house .fire (by decide +kernel)
  , meets shut .guard ⟨rfl, rfl⟩, meets shut .fire rfl, meets house .fire (by decide +kernel)
  , meets house .guard (by decide +kernel)⟩
theorem witness_refused_loop_settings :
    Refuses (.writeSettingLoop 4 (.mode none)) (fun s _ => s.inService = false)
      ∧ Refuses (.writeSettingLoop 3 (.mode none)) (fun s st =>
        s.inService = true ∧ (s.loop 3).inUse = true ∧ servesLoop s st 3 = false)
      ∧ Refuses (.writeSettingLoop 3 (.mode none)) (fun s st =>
        s.inService = true ∧ (s.loop 3).inUse = true ∧ servesLoop s st 3 = true)
      ∧ Refuses (.writeSettingLoop 2 (.mode (some .mirrored))) (fun s st => s.inService = false ∧ st ≠ .guard)
      ∧ Refuses (.writeSettingDoor 48 (.tPass 3)) (fun s _ => s.inService = true)
      ∧ Refuses (.writeSettingDoor 47 (.tHeld 10)) (fun s st =>
        s.inService = true ∧ (s.door 47).configured = true ∧ holdsGuard s st (s.doorWing 47) = false)
      ∧ Refuses (.writeSettingTOffer 8 10) (fun s _ => s.inService = true)
      ∧ Refuses (.writeSettingTOffer 7 120) (fun s st =>
        s.inService = true ∧ st ≠ .fire ∧ (s.desk 7).owner ≠ some st)
      ∧ Refuses (.writeSettingDeskList 63 [8]) (fun s _ => s.inService = true)
      ∧ Refuses (.writeSettingDeskList 63 [7]) (fun s st => s.inService = true ∧ (s.point 63).configured = true
        ∧ holdsService s st (s.wingOf (s.point 63).zone) = false)
      ∧ Refuses (.writeSettingDeskList 63 [7]) (fun s st => s.inService = true ∧ (s.point 63).configured = true
        ∧ holdsService s st (s.wingOf (s.point 63).zone) = true ∧ (s.point 63).kind = .fire) :=
  ⟨meets shut .fire rfl, meets house .guard (by decide +kernel), meets house .services (by decide +kernel)
  , meets shut .fire ⟨rfl, nofun⟩, meets house .guard rfl, meets house .fire (by decide +kernel), meets house .fire rfl
  , meets house .guard (by decide +kernel), meets house .services rfl, meets house .guard (by decide +kernel)
  , meets (point63 fun p => { p with kind := .fire }) .services (by decide +kernel)⟩
theorem witness_refused_routing :
    Refuses (.writeSettingRouting none (some .empty) false) (fun s st => s.inService = true ∧ st = .fire)
      ∧ Refuses (.writeSettingRouting none (some .empty) false) (fun s st => s.inService = false ∧ st = .services)
      ∧ Refuses (.writeSettingRouting none (some .empty) false) (fun s st => s.inService = false ∧ st = .guard)
      ∧ Refuses (.writeSettingRouting (some .fire) (some .empty) false) (fun s st => s.inService = false ∧ st = .services)
      ∧ Refuses (.writeSettingRouting (some .fault) (some .empty) false) (fun s st => s.inService = true ∧ st = .guard)
      ∧ Refuses (.writeSettingRouting (some .call) none false) (fun _ st => st = .fire)
      ∧ Refuses (.writeSettingRouting (some .call) none true) (fun s st => s.inService = true ∧ st = .guard)
      ∧ Refuses (.writeSettingAuthority (some .guard) 4 (some .guard) true) (fun _ st => st = .fire)
      ∧ Refuses (.writeSettingAuthority none 3 (some .guard) true) (fun _ st => st = .fire) :=
  ⟨meets house .fire ⟨rfl, rfl⟩, meets shut .services ⟨rfl, rfl⟩, meets shut .guard ⟨rfl, rfl⟩
  , meets shut .services ⟨rfl, rfl⟩, meets house .guard ⟨rfl, rfl⟩, meets house .fire rfl
  , meets house .guard ⟨rfl, rfl⟩, meets house .fire rfl, meets house .fire rfl⟩

theorem witness_queries :
    (∃ s x, Asked .status s x ∧ s.part = .inService) ∧ (∃ s x, Asked (.readZone 63) s x ∧ s.part = .inService)
      ∧ (∃ s x, Asked (.readWing 3) s x ∧ s.part = .inService)
      ∧ (∃ s x, Asked (.readDetector 191) s x ∧ s.detector 191 = some (detector .normal))
      ∧ (∃ s x, Asked (.readDetector 190) s x ∧ s.detector 190 = none)
      ∧ (∃ s x, Asked (.readLoop 3) s x ∧ s.part = .inService)
      ∧ (∃ s x, Asked (.readDoor 47) s x ∧ s.part = .inService) ∧ (∃ s x, Asked .readCallQueue s x ∧ s.part = .inService)
      ∧ (∃ s x, Asked (.readCallPoint 63) s x ∧ s.part = .inService)
      ∧ (∃ s x, Asked (.readRoute 63) s x ∧ s.part = .inService)
      ∧ (∃ s x, Asked (.readExit 15) s x ∧ s.part = .inService)
      ∧ (∃ s x, Asked (.readChannel 275) s x ∧ s.part = .inService)
      ∧ (∃ s x, Asked (.readLog 4294967295 16) s x ∧ s.part = .inService)
      ∧ ∃ s x, Asked (.readZone 64) s x ∧ 64 ≤ 64 :=
  ⟨asks house rfl, asks house rfl, asks house rfl, asks house (by decide +kernel), asks house (by decide +kernel)
  , asks house rfl, asks house rfl, asks house rfl, asks house rfl, asks house rfl, asks house rfl, asks house rfl
  , asks house rfl, asks (P := fun _ => 64 ≤ 64) house (by decide)⟩

theorem witness_loop_timers :
    (∃ s : State, LoopPairsOk s ∧ s.engine ≠ .opening ∧ (s.loop 3).intervalTimer = some 0
      ∧ (s.loop 3).state.scans = true)
      ∧ (∃ s : State, LoopPairsOk s ∧ s.engine ≠ .opening ∧ (s.loop 3).state = .restarting .powerOff 0)
      ∧ ∃ s : State, LoopPairsOk s ∧ s.engine ≠ .opening ∧ (s.loop 3).state = .restarting .settle 0 :=
  ⟨⟨loop3 fun l => { l with intervalTimer := some 0 }, by unfold LoopPairsOk Loop.quiet; decide +kernel⟩
  , ⟨loop3 fun l => { l with state := .restarting .powerOff 0 }, by unfold LoopPairsOk Loop.quiet; decide +kernel⟩
  , ⟨loop3 fun l => { l with state := .restarting .settle 0 }, by unfold LoopPairsOk Loop.quiet; decide +kernel⟩⟩

/-- A scan of loop 3, and of the mirrored pair 1, at a slot. -/
def scanAt (k : Fin 48) : State := loop3 fun l => { l with scan := some { slot := k, polls := [] } }
def mirroredLoop : Loop :=
  { Loop.powerOn with
    inUse := true, mode := .mirrored, state := .running, power := true, scan := some { slot := 0, polls := [] } }
def mirrored : State := { house with loops := Tbl.fill 4 mirroredLoop }
theorem witness_polls :
    (∃ s : State, (s.loop 3).mode = .independent ∧ (s.loop 3).scan = some { slot := 0, polls := [] }
      ∧ enabledSlot (s.scanLists.get 3) 1 = some 1)
      ∧ (∃ s : State, (s.loop 3).mode = .independent ∧ (s.loop 3).scan = some { slot := 1, polls := [] }
        ∧ LoopPairsOk s ∧ enabledSlot (s.scanLists.get 3) 2 = none)
      ∧ (∃ s : State, (s.loop (lowerLoop 1)).mode = .mirrored
        ∧ (s.loop (lowerLoop 1)).scan = some { slot := 0, polls := [] }
        ∧ enabledSlot (s.scanLists.get (lowerLoop 1)) 1 = some 1)
      ∧ (∃ (s : State) (n : Fin 192) (d : Detector), (s.loop (lowerLoop 1)).mode = .mirrored
        ∧ (s.loop (lowerLoop 1)).scan = some { slot := 0, polls := [] }
        ∧ detectorPolled s (lowerLoop 1) 0 = some n ∧ s.detector n = some d ∧ d.mismatch = false)
      ∧ ∃ s : State, (s.loop (lowerLoop 1)).mode = .mirrored
        ∧ (s.loop (lowerLoop 1)).scan = some { slot := 1, polls := brokenRing } ∧ LoopPairsOk s
        ∧ enabledSlot (s.scanLists.get (lowerLoop 1)) 2 = none :=
  ⟨⟨scanAt 0, by decide +kernel⟩, ⟨scanAt 1, by unfold LoopPairsOk Loop.quiet; decide +kernel⟩
  , ⟨mirrored, by decide +kernel⟩
  , ⟨mirrored.putDetector 191 (some { detector .normal with loop := 1 }), 191, { detector .normal with loop := 1 }
    , by decide +kernel⟩
  , ⟨{ house with loops := .fill 4 { mirroredLoop with scan := some { slot := 1, polls := brokenRing } } }
    , by unfold LoopPairsOk Loop.quiet; decide +kernel⟩⟩
/-- The conditions of the judgments are met: a silent scan, the break of section 2.5.1, and a scan that clears one. -/
theorem witness_judgments :
    SilentScan [{ slot := 0, endA := .noReply, endB := .noReply }] ∧ BreakAt brokenRing 3
      ∧ (∀ k, ¬ BreakAt [{ slot := 0, endA := .raw 64, endB := .raw 4031 }] k)
      ∧ ¬ SilentScan [{ slot := 0, endA := .raw 64, endB := .raw 4031 }] := by
  refine ⟨by unfold SilentScan; decide, ?_, ?_, by unfold SilentScan; decide⟩
  · exact ⟨brokenRing.take 3, [], brokenRing.drop 4, { slot := 3, endA := .noReply, endB := .raw 998 }, rfl, by decide
      , by decide, rfl, by decide, by decide, rfl⟩
  · rintro k ⟨front, mid, rest, q, h, -, -, hq, -, -, -⟩
    have : q ∈ front ++ mid ++ q :: rest := by simp
    rw [← h] at this
    simp only [List.mem_singleton] at this
    rw [this] at hq
    exact absurd hq (by decide)
/-- A tick at which loop 2's interval has run out, beside loop 3 that is due and has never been scanned. -/
def contending : State :=
  { house with
    loops := (Tbl.fill 4 { Loop.powerOn with
      inUse := true, state := .running, power := true, intervalTimer := some 0, lastStart := some 7 }).set 3
        { Loop.powerOn with inUse := true, state := .running, power := true, due := true } }
/-- What two contenders of one converter need, at the tick of their intervals. -/
theorem witness_contenders :
    ∃ s : State, LoopPairsOk s ∧ (s.loop 2).intervalTimer = some 0 ∧ Contends s [] 2 ∧ Contends s [] 3
      ∧ StartsBefore s 3 2 ∧ s.converter .b = .free :=
  ⟨contending, by unfold LoopPairsOk Loop.quiet; decide +kernel, rfl, by unfold Contends; decide +kernel
  , by unfold Contends; decide +kernel, trivial, rfl⟩
/-- A scan at the slot of detector 191 in a given state of its record, and detector 190 beside it in its zone. -/
def polled (d : Detector) (beside : Option Detector) : State :=
  ((scanAt 0).putDetector 191 (some d)).putDetector 190 beside
/-- Detector 191 is polled next on loop 3, by a scan that goes on. -/
def Polled (d : Detector) (s : State) : Prop :=
  (s.loop 3).mode = .independent ∧ (s.loop 3).scan = some { slot := 0, polls := [] }
    ∧ enabledSlot (s.scanLists.get 3) 1 = some 1 ∧ detectorPolled s 3 0 = some 191 ∧ s.detector 191 = some d
    ∧ d.state ≠ .disabled
/-- Two missed replies, a fault that a second valid reply ends, and a reading alone in its zone. -/
theorem witness_readings :
    (∃ s d, Polled d s ∧ d.missed + 1 < 3) ∧ (∃ s d, Polled d s ∧ 3 ≤ d.missed + 1 ∧ ∀ g, d.state ≠ .fault g)
      ∧ (∃ s d, Polled d s ∧ d.state = .fault .noReply ∧ d.validRun = 0)
      ∧ ∃ s d, Polled d s ∧ (s.zone d.zone).testTimer = none
        ∧ ∀ m e, m ≠ 191 → s.detector m = some e → e.zone = d.zone → e.state.isVerifying = false := by
  refine ⟨⟨polled { detector .normal with missed := 1 } none, { detector .normal with missed := 1 }, ?_⟩
  , ⟨polled { detector .normal with missed := 2 } none, { detector .normal with missed := 2 }, ?_, by decide, nofun⟩
  , ⟨polled (detector (.fault .noReply)) none, detector (.fault .noReply), ?_⟩
  , ⟨polled { detector (.fault .noReply) with validRun := 1 } none, { detector (.fault .noReply) with validRun := 1 }, ?_
    , by decide +kernel, ?_⟩⟩
  any_goals unfold Polled; decide +kernel
  intro m e hm h
  have : ∀ k : Fin 192, k ≠ 191 →
      (polled { detector (.fault .noReply) with validRun := 1 } none).detector k = none := by decide +kernel
  rw [this m hm] at h
  exact absurd h nofun
/-- A level of 320 takes a NORMAL detector into VERIFYING, and a VERIFYING one of its zone with it (R50). -/
theorem witness_coincidence :
    ∃ s d, Polled d s ∧ (s.zone d.zone).testTimer = none ∧ s.detector 190 = some { detector (.verifying 9) with address := 1 }
      ∧ readLevel d 1312 = 320 ∧ readRun (s.cls d.cls) d.taken 320 = 1
      ∧ tableState s d.taken 320 1 = .verifying 20 ∧ tableState s d.taken 320 1 ≠ d.state :=
  ⟨polled (detector .normal) (some { detector (.verifying 9) with address := 1 }), detector .normal
  , by unfold Polled; decide +kernel⟩

/-- A reading that meets the alarm condition in a zone under test, of a detector that is armed, and of one that has just
come out of FAULT (R54). -/
theorem witness_test_readings :
    (∃ s d, Polled d s ∧ (s.zone d.zone).testTimer ≠ none ∧ d.state = .normal ∧ d.testArmed = some true
        ∧ alarmMet s d (readLevel d 1312) (readRun (s.cls d.cls) d.taken (readLevel d 1312)) = true)
      ∧ ∃ s d, Polled d s ∧ (s.zone d.zone).testTimer ≠ none ∧ d.state = .fault .noReply ∧ d.validRun ≠ 0 := by
  refine ⟨⟨(polled { detector .normal with testArmed := some true } none).modZone 63 fun z => { z with testTimer := some 9 }
    , { detector .normal with testArmed := some true }, ?_⟩
  , ⟨(polled { detector (.fault .noReply) with validRun := 1 } none).modZone 63 fun z => { z with testTimer := some 9 }
    , { detector (.fault .noReply) with validRun := 1 }, ?_⟩⟩
  all_goals unfold Polled; decide +kernel

/-- A verify timer that has run out at a level of 320, with another detector of the zone in VERIFYING (R50). -/
theorem witness_timer_coincidence :
    ∃ s : State, s.detector 191 = some { detector (.verifying 0) with level := some 320 }
      ∧ (s.thresholdsFor { detector (.verifying 0) with level := some 320 }).pre ≤ 320
      ∧ s.detector 190 = some { detector (.verifying 9) with address := 1 }
      ∧ ∀ q, q < 190 → s.detector q = none :=
  ⟨(house.putDetector 191 (some { detector (.verifying 0) with level := some 320 })).putDetector 190
    (some { detector (.verifying 9) with address := 1 }), by decide +kernel⟩

theorem witness_fire_timers :
    (∃ s : State, s.detector 191 = some (detector (.verifying 0))
      ∧ ∀ m, m ≠ 191 → s.detector m = none)
      ∧ (∃ s : State, (s.wing 3).stage = .ackWait 0) ∧ (∃ s : State, (s.wing 3).stage = .investigate 0)
      ∧ ∃ s : State, (s.wing 3).stage = .evacuate ∧ (s.wing 3).spreadTimer = some 0 ∧ (s.wing 3).spreadList = [0]
        ∧ s.atStandby 0 = true :=
  ⟨⟨house.putDetector 191 (some (detector (.verifying 0))), by decide +kernel⟩, ⟨stage3 (.ackWait 0), by decide +kernel⟩
  , ⟨stage3 (.investigate 0), by decide +kernel⟩
  , ⟨wing3 fun w => { w with stage := .evacuate, spreadTimer := some 0, spreadList := [0] }, by decide +kernel⟩⟩
theorem witness_zone_timers :
    (∃ s : State, s.engine ≠ .opening ∧ (s.zone 63).testTimer = some 0)
      ∧ (∃ s : State, s.engine ≠ .opening ∧ (s.zone 63).vacancyTimer = some 0)
      ∧ ∃ s : State, s.engine ≠ .opening ∧ (s.zone 63).security = .exitDelay 0 :=
  ⟨⟨zone63 fun z => { z with testTimer := some 0 }, by decide +kernel⟩
  , ⟨zone63 fun z => { z with vacancyTimer := some 0 }, by decide +kernel⟩, ⟨secured (.exitDelay 0), by decide +kernel⟩⟩
theorem witness_presence :
    (∃ s : State, s.engine ≠ .opening ∧ s.inService = true ∧ (s.zone 63).configured = true
      ∧ (s.zone 63).classes.presence = .primary ∧ (s.zone 63).security = .armed)
      ∧ (∃ s : State, s.engine ≠ .opening ∧ s.inService = true ∧ (s.zone 63).configured = true
        ∧ (s.zone 63).classes.presence = .secondary ∧ (s.zone 63).security = .exitDelay 0)
      ∧ ∃ s : State, s.engine ≠ .opening ∧ s.inService = false :=
  ⟨⟨secured .armed, by decide +kernel⟩
  , ⟨zone63 fun z => { z with security := .exitDelay 0, classes := { z.classes with presence := .secondary } }
    , by decide +kernel⟩, ⟨shut, by decide⟩⟩
/-- A channel whose line is faulty. -/
def lockedChannel : Channel := { Channel.powerOn .lock .lock with lineFault := true }
def lockedHouse : State := { house with channels := Tbl.fill 276 lockedChannel }
def faultDoor (d : Door) : Door := { d with contact := .lineFault, status := .fault }
theorem witness_contact :
    (∃ s : State, Settled s ∧ s.inService = true ∧ (s.door 47).configured = true ∧ (s.door 47).status ≠ .fault
      ∧ (s.door 47).contact = .closed ∧ (s.door 47).withRight (s.channel (doorChannel 47)).effective = true)
      ∧ (∃ s : State, Settled s ∧ s.inService = true ∧ (s.door 47).configured = true ∧ (s.door 47).status ≠ .fault
        ∧ (s.door 47).contact = .closed ∧ (s.door 47).withRight (s.channel (doorChannel 47)).effective = false)
      ∧ (∃ s : State, Settled s ∧ s.inService = true ∧ (s.door 47).configured = true ∧ (s.door 47).status ≠ .fault
        ∧ (s.door 47).contact = .opened)
      ∧ (∃ s : State, Settled s ∧ s.inService = true ∧ (s.door 47).configured = true ∧ (s.door 47).status = .fault
        ∧ (s.door 47).contact ≠ .closed ∧ (s.channel (doorChannel 47)).lineFault = false)
      ∧ (∃ s : State, Settled s ∧ s.inService = true ∧ (s.door 47).configured = true ∧ (s.door 47).status = .fault
        ∧ (s.channel (doorChannel 47)).lineFault = true ∧ (s.door 47).contact = .lineFault)
      ∧ ∃ s : State, Settled s ∧ s.inService = true ∧ (s.door 47).configured = true ∧ (s.door 47).status = .fault
        ∧ (s.door 47).contact ≠ .opened ∧ (s.channel (doorChannel 47)).lineFault = false := by
  have locked : Settled lockedHouse :=
    ⟨fun n => by rw [State.channel, lockedHouse, Tbl.get_fill]; exact ⟨rfl, fun _ => rfl⟩, nofun⟩
  exact ⟨⟨house, settled_of, by decide +kernel⟩, ⟨lockedHouse, locked, by decide +kernel⟩
  , ⟨door47 fun d => { d with contact := .opened, status := .openAuthorised }, settled_of, by decide +kernel⟩
  , ⟨door47 fun d => { d with contact := .lineFault, status := .fault }, settled_of, by decide +kernel⟩
  , ⟨lockedHouse.modDoor 47 faultDoor, locked, by decide +kernel⟩
  , ⟨door47 fun d => { d with contact := .lineFault, status := .fault }, settled_of, by decide +kernel⟩⟩
theorem witness_door_timers :
    (∃ s : State, s.engine ≠ .opening ∧ s.inService = true ∧ (s.door 47).configured = true
      ∧ (s.door 47).status = .openAuthorised ∧ (s.door 47).heldTimer = some 0
      ∧ (s.wing (s.doorWing 47)).mode ≠ .openHours ∧ (s.door 47).claims = 0
      ∧ (s.wing (s.doorWing 47)).stage ≠ .evacuate)
      ∧ (∃ s : State, s.engine ≠ .opening ∧ s.inService = true ∧ (s.door 47).configured = true
        ∧ (s.door 47).status = .openAuthorised ∧ (s.door 47).heldTimer = some 0 ∧ (s.door 47).claims ≠ 0)
      ∧ (∃ s : State, s.engine ≠ .opening ∧ s.inService = true ∧ (s.door 47).configured = true
        ∧ (s.door 47).notClosedTimer = some 0)
      ∧ (∃ s : State, s.engine ≠ .opening ∧ s.inService = true ∧ (s.door 47).configured = true
        ∧ (s.door 47).rex = some (.counting 0))
      ∧ ∃ s : State, s.engine ≠ .opening ∧ s.inService = true ∧ (s.door 47).configured = true
        ∧ (s.door 47).pass = some (.counting 0) :=
  ⟨⟨door47 fun d => { d with status := .openAuthorised, heldTimer := some 0 }, by decide +kernel⟩
  , ⟨door47 fun d => { d with status := .openAuthorised, heldTimer := some 0, claims := 1 }, by decide +kernel⟩
  , ⟨door47 fun d => { d with notClosedTimer := some 0 }, by decide +kernel⟩
  , ⟨door47 fun d => { d with rex := some (.counting 0) }, by decide +kernel⟩
  , ⟨door47 fun d => { d with pass := some (.counting 0) }, by decide +kernel⟩⟩
theorem witness_call_points :
    (∃ s : State, s.inService = true ∧ s.engine ≠ .opening ∧ (s.point 63).configured = true ∧ (s.point 63).input = .restored
      ∧ (s.point 63).kind = .help ∧ (s.point 63).state = .idle)
      ∧ (∃ s : State, s.inService = true ∧ s.engine ≠ .opening ∧ (s.point 63).configured = true ∧ (s.point 63).input = .restored
        ∧ (s.point 63).kind = .fire ∧ (s.point 63).state = .idle)
      ∧ (∃ s : State, s.inService = true ∧ s.engine ≠ .opening ∧ (s.point 63).configured = true ∧ (s.point 63).input = .restored
        ∧ (s.point 63).kind = .help ∧ s.call 63 = some (call 2 .raised))
      ∧ (∃ s : State, s.inService = true ∧ s.engine ≠ .opening ∧ (s.point 63).configured = true
        ∧ (s.point 63).input = .pressed)
      ∧ (∃ s : State, s.inService = true ∧ s.engine ≠ .opening ∧ (s.point 63).configured = false)
      ∧ ∃ s : State, s.inService = true ∧ s.engine ≠ .opening ∧ s.call 63 = some (call 2 (.offered 7 0)) :=
  ⟨⟨house, by decide +kernel⟩, ⟨point63 fun p => { p with kind := .fire }, by decide +kernel⟩
  , ⟨active63 .raised, by decide +kernel⟩, ⟨point63 fun p => { p with input := .pressed }, by decide +kernel⟩
  , ⟨point63 fun p => { p with configured := false }, by decide +kernel⟩, ⟨active63 (.offered 7 0), by decide +kernel⟩⟩
theorem witness_pass_end :
    (∃ (s : State) (v : View), s.engine = .passing v false ∧ v.leaves 63 = true ∧ v.leaves 0 = true)
      ∧ ∃ (s : State) (v : View), s.engine = .passing v true ∧ v.leaves 63 = false :=
  ⟨⟨{ house with engine := .passing (takeView { house with
      zones := .fill 64 { Zone.powerOn with configured := true, egress := true } }) false }, _, rfl, by decide +kernel⟩
  , ⟨{ house with engine := .passing (takeView house) true }, _, rfl, by decide +kernel⟩⟩
theorem witness_line_report :
    (∃ s : State, s.engine ≠ .opening ∧ (s.channel 275).lineFault ≠ saysFaulty .lineFault ∧ s.inService = true)
      ∧ (∃ s : State, s.engine ≠ .opening ∧ (s.channel 47).lineFault ≠ saysFaulty .lineFault ∧ s.inService = false)
      ∧ (∃ s : State, s.engine ≠ .opening ∧ (s.channel 48).lineFault = saysFaulty .lineOk)
      ∧ (∃ s : State, s.engine ≠ .opening ∧ s.inService = true ∧ (s.door 47).configured = true
        ∧ (s.channel (doorChannel 47)).lineFault = false)
      ∧ ∃ s : State, s.engine ≠ .opening ∧ s.inService = true ∧ (s.door 47).configured = true
        ∧ (s.channel (doorChannel 47)).lineFault = true ∧ (s.door 47).status = .fault :=
  ⟨⟨house, by decide +kernel⟩, ⟨shut, by decide +kernel⟩, ⟨house, by decide +kernel⟩, ⟨house, by decide +kernel⟩
  , ⟨lockedHouse.modDoor 47 faultDoor, by decide +kernel⟩⟩


/-! ### Calls and offers -/

/-- Whether a call is OFFERED at a desk. -/
def offeredAt (k : Fin 8) (h : HelpCall) : Bool :=
  match h.phase with
  | .offered j _ => decide (j = k)
  | .raised | .accepted _ => false

theorem offeredAt_iff (k : Fin 8) (h : HelpCall) : offeredAt k h = true ↔ ∃ n, h.phase = .offered k n := by
  cases hp : h.phase <;> simp [offeredAt, hp]

/-- The soundness of the calls of a state, from conditions that can be evaluated. -/
theorem callsOk_of {s : State}
    (h : s.callQueue.Nodup ∧ (∀ c : Fin 64, c ∈ s.callQueue ↔ (s.call c).isSome)
      ∧ s.callQueue.Pairwise (fun a b => ∀ x ∈ s.call a, ∀ y ∈ s.call b,
        x.priority.rank < y.priority.rank
          ∨ x.priority = y.priority ∧ (x.firstPress < y.firstPress ∨ x.firstPress = y.firstPress ∧ a < b))
      ∧ (∀ k : Fin 8, (s.desk k).offered.Nodup ∧ (s.desk k).offered.length ≤ (s.desk k).capacity
        ∧ ∀ c : Fin 64, c ∈ (s.desk k).offered ↔ ∃ h ∈ s.call c, offeredAt k h = true)
      ∧ (∀ c : Fin 64, ∀ h ∈ s.call c, h.next ∈ callPlaces s c h ∧ (s.point c).deskList ≠ [])
      ∧ (∀ c : Fin 64, (s.point c).configured = true → (s.point c).kind = .help → (s.point c).deskList ≠ [])
      ∧ (∀ c : Fin 64, ∀ h ∈ s.call c, h.phase = .raised → ∀ p ∈ callPlaces s c h, placeQualifies s c p = false)
      ∧ (s.part = .configuring → s.callQueue = [] ∧ ∀ k : Fin 8, (s.desk k).offered = [])) : CallsOk s := by
  obtain ⟨h1, h2, h3, h4, h5⟩ := h
  refine ⟨h1, h2, h3, fun k => ⟨(h4 k).1, (h4 k).2.1, fun c => ((h4 k).2.2 c).trans ?_⟩, h5⟩
  simp only [offeredAt_iff, Option.mem_def]

/-- Point 63 has a call at desk 7 and fills it, and the call of point 62 waits for that desk. -/
def crowded : State :=
  { (active63 (.offered 7 0)).modPoint 62 fun p => { p with state := .active (call 1 .raised) } with
    callQueue := [62, 63], desks := house.desks.set 7 { house.desk 7 with offered := [63], capacity := 1 } }

theorem witness_calls : CallsOk waiting ∧ step waiting = .next State.reset :=
  ⟨callsOk_of (by decide +kernel), rfl⟩
/-- O9 with a call OFFERED and one that waits, the desk's station CONNECTED. -/
theorem witness_calls_waiting :
    CallsOk (ask { crowded with pending := [.status] } .status)
      ∧ ∃ t, step (ask { crowded with pending := [.status] } .status) = .next t :=
  ⟨callsOk_of (by decide +kernel), _, rfl⟩
/-- O58: a first press with a desk that qualifies, and one without; lapses with no other call, and with one that waits. -/
theorem witness_offers :
    (CallsOk (ask house .status) ∧ FirstCandidate (ask house .status) 0
      { presses := 1, firstPress := 5000, priority := .normal, next := .position 1, phase := .raised } (.position 1) 7)
      ∧ (CallsOk house ∧ ∀ p ∈ callPlaces house 0 (call 1 .raised), placeQualifies house 0 p = false)
      ∧ (CallsOk (ask crowded .status) ∧ deskReached (ask crowded .status) 7 = true
        ∧ crowded.call 63 = some (call 2 (.offered 7 0)) ∧ crowded.callQueue.find? (waitsFor crowded 7) = some 62)
      ∧ ∃ s : State, CallsOk s ∧ s.call 63 = some (call 2 (.offered 7 0)) ∧ s.callQueue.find? (waitsFor s 7) = none
        ∧ FirstCandidate { s with desks := house.desks } 63 (call 2 .raised) (.position 1) 7 :=
  ⟨⟨callsOk_of (by decide +kernel), by unfold FirstCandidate; decide +kernel⟩
  , ⟨callsOk_of (by decide +kernel), by decide +kernel⟩, ⟨callsOk_of (by decide +kernel), by decide +kernel⟩
  , ask { active63 (.offered 7 0) with
      callQueue := [63], desks := house.desks.set 7 { house.desk 7 with offered := [63] } } .status
  , callsOk_of (by decide +kernel), by unfold FirstCandidate; decide +kernel⟩
/-- O41: an acceptance, a clearing and a higher capacity that let a waiting call reach the desk. -/
theorem witness_places_passed :
    (∃ s x, Ready (.acceptCall 63 7) s x ∧ CallsOk s ∧ s.inService = true ∧ (s.desk 7).owner = some x.port
      ∧ s.call 63 = some (call 2 (.offered 7 0)) ∧ deskReached s 7 = true
      ∧ s.callQueue.find? (waitsFor s 7) = some 62)
      ∧ (∃ s x, Ready (.clearCall 63) s x ∧ CallsOk s ∧ s.inService = true ∧ holdsGuard s x.port 3 = true
        ∧ s.call 63 = some (call 2 (.offered 7 0)))
      ∧ ∃ s x, Ready (.setDeskCapacity 7 4) s x ∧ CallsOk s ∧ s.inService = true ∧ (s.desk 7).owner = some x.port
        ∧ (s.desk 7).capacity < clamp 1 4 4 ∧ deskReached s 7 = true ∧ s.callQueue.find? (waitsFor s 7) = some 62 :=
  ⟨meets crowded .services ⟨callsOk_of (by decide +kernel), by decide +kernel⟩
  , meets crowded .guard ⟨callsOk_of (by decide +kernel), by decide +kernel⟩
  , meets crowded .services ⟨callsOk_of (by decide +kernel), by decide +kernel⟩⟩

/-! ### Bodies and bytes that spell nothing -/

/-- O15: the codes next to those of section 11.6. -/
theorem witness_unknown_codes :
    ∀ c ∈ [0x0F#8, 0x1E#8, 0x1F#8, 0x2D#8, 0x2F#8, 0x35#8, 0x3F#8, 0x4C#8],
      ¬ (0x10#8 ≤ c ∧ c ≤ 0x1D#8 ∨ 0x20#8 ≤ c ∧ c ≤ 0x2C#8 ∨ 0x30#8 ≤ c ∧ c ≤ 0x34#8)
        ∧ ¬ (0x40#8 ≤ c ∧ c ≤ 0x4B#8) := by decide
/-- O16: a length of 241, a body whose check fails, and a frame that lacks its last byte. -/
theorem witness_hunts :
    240 < (241#8).toNat ∧ [0#8].length = (1#8).toNat ∧ crc ([1#8, 0#8, 1#8] ++ [0#8]) ≠ 0#8 ++ 0#8
      ∧ ∃ (kind tag length : Byte) (rest : List Byte), [1#8, 0#8, 1#8, 0#8, 0#8] = kind :: tag :: length :: rest
        ∧ length.toNat ≤ 240 ∧ rest.length < length.toNat + 2 :=
  ⟨by decide, by decide, by decide +kernel, 1#8, 0#8, 1#8, [0#8, 0#8], rfl, by decide, by decide⟩
/-- A command with a body of its own at the head of the guard station's queue. -/
def sendBody (s : State) (body : List Byte) : State :=
  s.modPort .guard fun p => { p with link := .connected 10, commands := [{ tag := 7#8, body := body }] }
/-- O18: an empty body, table 14, a TEST ZONE with switch 2, and a READ ZONE without a zone. -/
theorem witness_unspelled :
    (∃ x, nextCommand (sendBody house []) = some x ∧ decodeCommand x.request.body = .unknown
      ∧ Instr.isCommand (.acknowledgeWing 0) = true ∧ house.engine ≠ .opening)
      ∧ (∃ x, nextCommand (sendBody shut [0x33#8, 14#8]) = some x ∧ x.request.body = 0x33#8 :: 14#8 :: []
        ∧ x.port = .guard)
      ∧ (∃ x, nextCommand (sendBody house [0x28#8, 63#8, 2#8]) = some x ∧ x.request.body = [0x28#8, 63#8, 2#8])
      ∧ ∃ x, nextQuery (house.modPort .fire fun p => { p with queries := [{ tag := 7#8, body := [0x41#8] }] }) = some x
        ∧ decodeQuery x.request.body = .unknown :=
  ⟨⟨_, rfl, by decide⟩, ⟨_, rfl, by decide⟩, ⟨_, rfl, by decide⟩, ⟨_, rfl, by decide⟩⟩
/-- O17: the guard station's query is next where only it and the services station, last served, hold one. -/
theorem witness_query_cycle :
    ∃ s : State, (s.port .guard).holdsQuery = true ∧ s.lastQuery = .services
      ∧ (s.port s.lastQuery.after).holdsQuery = false :=
  ⟨{ (ask house .status).modPort .guard fun p => { p with queries := [{ tag := 7#8, body := [0x40#8] }] } with
      lastQuery := .services }, by decide⟩
/-- O19: a lone marker completes no frame. -/
theorem witness_no_frame :
    house.engine ≠ .opening
      ∧ hunt ((house.port .fire).received ++ [0xA5#8]) = { frame := none, held := [0xA5#8] } := by decide

/-! ### Suspension, silence and doors between two wings -/

/-- O23 and O26: an armed zone of a wing in STANDBY, and a suspended zone of an evacuated wing with a zone in ALARM. -/
theorem witness_suspension :
    (∃ s x, Ready (.evacuateWing 3) s x ∧ s.inService = true ∧ x.port = .fire ∧ (s.wing 3).stage ≠ .evacuate
      ∧ s.atStandby 3 = true ∧ (63 : Fin 64) ∈ s.zonesOf 3 ∧ suspendEntry s 63 .stage ≠ [])
      ∧ ∃ s x, Ready (.resetWing 3 0#16) s x ∧ s.inService = true ∧ x.port = .fire ∧ (s.wing 3).revision = 0#16
        ∧ (s.wing 3).stage ≠ .standby ∧ (∀ z ∈ s.zonesOf 3, (s.zone z).fire.inAlarm = true → passesReset s z = true)
        ∧ (s.zone 63).fire.inAlarm = true ∧ restoreEntry s 63 ≠ [] :=
  ⟨meets (secured .armed) .fire (by decide +kernel)
  , meets ((stage3 .evacuate).modZone 63 fun z => { z with fire := .alarm .station 9, security := .suspended .exitDelay })
      .fire (by decide +kernel)⟩
/-- O59: a suspended zone of a wing in STANDBY at the end of a pass. -/
theorem witness_pass_restores :
    ∃ (s : State) (v : View), s.engine = .passing v true ∧ s.atStandby (s.wingOf 63) = true ∧ restoreEntry s 63 ≠ [] :=
  ⟨{ secured (.suspended .armed) with engine := .passing (takeView house) true }, takeView house, rfl, by decide +kernel⟩
/-- O27, O52 and O58: a silenced evacuating wing and a zone of it that is not in ALARM. -/
theorem witness_silenced :
    ∃ s x, Ready (.manualAlarmZone 63) s x ∧ s.inService = true ∧ (s.zone 63).configured = true ∧ x.port = .fire
      ∧ (s.wing (s.wingOf 63)).stage = .evacuate ∧ (s.wing (s.wingOf 63)).silenced = true
      ∧ (s.zone 63).fire.inAlarm = false :=
  meets (wing3 fun w => { w with stage := .evacuate, silenced := true }) .fire (by decide +kernel)
/-- O36, O56, O57 and O60: a door between two wings. -/
theorem witness_two_wings :
    doorEntries ((door47 fun d => { d with sideB := some 0 }).modZone 0 fun z => { z with wing := 0 }) 47 .doorHeld .none
      = [ { kind := .doorHeld, subject := .door 47, wing := some 3, detail := .none }
        , { kind := .doorHeld, subject := .door 47, wing := some 0, detail := .none } ] := by decide +kernel
/-- O56 and O60: a contact report and a line report of a configured door in CONFIGURING. -/
theorem witness_door_configuring :
    shut.engine ≠ .opening ∧ shut.inService = false ∧ (shut.door 47).configured = true
      ∧ (shut.door 47).contact ≠ .lineFault ∧ (shut.channel (doorChannel 47)).lineFault ≠ saysFaulty .lineFault := by
  decide +kernel
/-- O52: a raw value at the top of a tracking detector's window. -/
theorem witness_comp_limit :
    let d := { detector .normal with baseline := 16 * 1536 - 8, level := none }
    compLimitEntry house 191 d true ≠ [] ∧ 16 * 1600 - d.baseline ≥ 64 * 8 := by decide +kernel

/-- The part with loops 1 and 3 INDEPENDENT, the MIRRORED mode pending and different last scan start times. -/
def pairing : State :=
  let asking (n : Seconds) : Loop := { house.loop 1 with pendingMode := some .mirrored, lastStart := some n }
  { house with loops := (house.loops.set 1 (asking 90)).set 3 (asking 100) }
/-- O30: a restart that takes a pending MIRRORED. -/
theorem witness_restart_pending :
    ∃ s x, Ready (.restartLoop 3) s x ∧ LoopPairsOk s ∧ s.inService = true ∧ (s.loop 3).inUse = true ∧ x.port = .fire
      ∧ ∀ k ∈ restartReach s 3, (s.loop k).state.isRestarting = false ∧ (s.loop k).pendingMode = some .mirrored :=
  meets pairing .fire ⟨by unfold LoopPairsOk Loop.quiet; decide +kernel, by decide +kernel⟩
/-- R28: the restart of a pair that becomes MIRRORED leaves both loops the last scan start time of the lower one. -/
theorem test_restart_joins :
    leaves (.restartLoop 3) (send pairing .fire (.restartLoop 3)) (fun t =>
      decide ((t.loop 1).mode = .mirrored ∧ (t.loop 1).lastStart = some 90 ∧ (t.loop 3).lastStart = some 90)) := by
  decide +kernel
/-- R28: READ LOOP of the upper loop of a mirrored pair answers the common last scan start time. -/
theorem test_read_upper_loop :
    let s := { waitedThrough with loops := waitedThrough.loops.set 2 { waitedThrough.loop 0 with lastStart := some 7 } }
    leaves (.readLoop 2) (ask s (.readLoop 2)) (fun t =>
      decide (t.ports.services.replies.map (fun r => match r.data with | .loop l _ _ _ => l.lastStart | _ => none)
        = [some 100])) := by decide +kernel
/-- R165: bytes that complete no frame end an event like any other; the messages of the event before are gone. -/
theorem test_no_frame :
    leaves (.frameReceived .fire [0xA5#8, 9#8])
      { house with fieldOut := [{ channel := 275, drive := .released, value := none }] }
      (fun t => decide (t.fieldOut = [] ∧ t.ports.fire.received = [0xA5#8, 9#8])) := by decide +kernel

end Sys2Proof.Tests
end

section
/-! SUPPORT. What a change keeps of the zones' detector counts (R3, R15) and of the live settings (R5, R21, R96, R114,
R161): the two invariants at once, and the changes of one record that keep them. -/

set_option autoImplicit false

namespace Sys2Proof.Tbl

variable {n : Nat} {α : Type}

/-- `indices` filters the record numbers by their records. -/
theorem indices_eq_filter (t : Tbl n α) (p : Fin n → α → Bool) :
    t.indices p = (List.finRange n).filter fun i => p i (t.get i) := by
  have hz : List.zip (List.finRange n) t.rows = (List.finRange n).map fun i => (i, t.get i) := by
    apply List.ext_getElem <;> simp [t.size_eq, get]
  have hf : ((fun r : Fin n × α => if p r.1 r.2 = true then some r.1 else none) ∘ fun i => (i, t.get i))
      = Option.guard fun i => p i (t.get i) := by
    funext i; simp [Option.guard]
  rw [indices, hz, List.filterMap_map, hf, List.filterMap_eq_filter]

end Sys2Proof.Tbl

namespace Sys2Proof.Machine

/-- The change from `s` to `t` keeps the counts of the zones exact and the live settings in their ranges. -/
def Keeps (s t : State) : Prop := (CountsOk s → CountsOk t) ∧ (SettingsOk s → SettingsOk t)

theorem Keeps.refl (s : State) : Keeps s s := ⟨id, id⟩

theorem Keeps.trans {s t u : State} (h : Keeps s t) (k : Keeps t u) : Keeps s u := ⟨k.1 ∘ h.1, k.2 ∘ h.2⟩

theorem Keeps.foldl {α : Type} {f : State → α → State} (h : ∀ s x, Keeps s (f s x)) :
    ∀ (xs : List α) (s : State), Keeps s (xs.foldl f s)
  | [], s => Keeps.refl s
  | x :: xs, s => (h s x).trans (Keeps.foldl h xs (f s x))

theorem Keeps.ite {c : Prop} [Decidable c] {s t u : State} (ht : Keeps s t) (hu : Keeps s u) :
    Keeps s (if c then t else u) := by
  split
  · exact ht
  · exact hu

/-! ### What the two invariants read -/

/-- The settings of a wing lie in their ranges (R5). -/
def Wing.inRange (r : Wing) : Prop :=
  5 ≤ r.tAck ∧ r.tAck ≤ 30 ∧ 30 ≤ r.tInv ∧ r.tInv ≤ 300 ∧ (r.tSpread = 0 ∨ 60 ≤ r.tSpread ∧ r.tSpread ≤ 900)
    ∧ 10 ≤ r.exitDelay ∧ r.exitDelay ≤ 120

/-- The vacancy period of a zone is one of its steps (R5). -/
def Zone.inRange (r : Zone) : Prop := r.vacancyPeriod ∈ vacancySteps

/-- The settings of a loop lie in their ranges (R21). -/
def Loop.inRange (r : Loop) : Prop :=
  1 ≤ r.scanInterval ∧ r.scanInterval ≤ 10 ∧ 5 ≤ r.settlePeriod ∧ r.settlePeriod ≤ 60

/-- The settings of a door lie in their ranges (R96). -/
def Door.inRange (r : Door) : Prop := 3 ≤ r.tPass ∧ r.tPass ≤ 30 ∧ 10 ≤ r.tHeld ∧ r.tHeld ≤ 600

/-- The settings of a desk lie in their ranges (R114). -/
def Desk.inRange (r : Desk) : Prop := 1 ≤ r.capacity ∧ r.capacity ≤ 4 ∧ 10 ≤ r.tOffer ∧ r.tOffer ≤ 120

/-- The fire station is in the sets of FIRE and ROUTE (R161). -/
def Routing.holdsFire (r : Routing) : Prop := r.fire.fire = true ∧ r.route.fire = true

theorem settingsOk_iff (s : State) :
    SettingsOk s ↔ (∀ w, (s.wing w).inRange) ∧ (∀ z, (s.zone z).inRange) ∧ (∀ l, (s.loop l).inRange)
      ∧ (∀ n, (s.door n).inRange) ∧ (∀ k, (s.desk k).inRange) ∧ s.routing.holdsFire := Iff.rfl

/-- The counts of a zone (R3, R15). -/
def Zone.counts (r : Zone) : Nat × Nat := (r.detectorCount, r.impairedCount)

/-- What the counts read of a detector: its zone, and whether it is impaired. -/
def Detector.counted (d : Detector) : Fin 64 × Bool := (d.zone, d.state.impaired)

/-- Every live setting that lies in its range in the one state does so in the other. -/
structure RangesKept (s t : State) : Prop where
  wing : ∀ w, (s.wing w).inRange → (t.wing w).inRange := by exact fun _ => id
  zone : ∀ z, (s.zone z).inRange → (t.zone z).inRange := by exact fun _ => id
  loop : ∀ l, (s.loop l).inRange → (t.loop l).inRange := by exact fun _ => id
  door : ∀ n, (s.door n).inRange → (t.door n).inRange := by exact fun _ => id
  desk : ∀ k, (s.desk k).inRange → (t.desk k).inRange := by exact fun _ => id
  routing : s.routing.holdsFire → t.routing.holdsFire := by exact id

/-- Two states with the same counts, and with the same detectors as far as the counts read them. -/
structure SameCounts (s t : State) : Prop where
  zone : ∀ z, (t.zone z).counts = (s.zone z).counts := by intros; rfl
  detector : ∀ n, (t.detector n).map Detector.counted = (s.detector n).map Detector.counted := by intros; rfl

theorem RangesKept.settingsOk {s t : State} (h : RangesKept s t) (k : SettingsOk s) : SettingsOk t := by
  obtain ⟨kw, kz, kl, kd, kk, kr⟩ := (settingsOk_iff s).mp k
  exact (settingsOk_iff t).mpr ⟨fun w => h.wing w (kw w), fun z => h.zone z (kz z), fun l => h.loop l (kl l),
    fun n => h.door n (kd n), fun i => h.desk i (kk i), h.routing kr⟩

/-! ### The counts -/

/-- Whether a detector place holds a detector of a zone that satisfies `p`. -/
def countsFor (z : Fin 64) (p : Detector → Bool) : Option Detector → Bool
  | some d => decide (d.zone = z) && p d
  | none => false

/-- The detectors of a zone are the places that count for it. -/
theorem detectorsOf_eq (s : State) (z : Fin 64) (p : Detector → Bool) :
    s.detectorsOf z p = (List.finRange 192).filter fun n => countsFor z p (s.detector n) :=
  Tbl.indices_eq_filter s.detectors fun _ d => countsFor z p d

/-- States whose places count alike for a zone give it the same detectors. -/
theorem detectorsOf_congr {s t : State} {z : Fin 64} {p : Detector → Bool}
    (h : ∀ n, countsFor z p (t.detector n) = countsFor z p (s.detector n)) : t.detectorsOf z p = s.detectorsOf z p := by
  simp only [detectorsOf_eq, h]

/-- The counts of one zone are exact (R3, R15). -/
def CountedAt (s : State) (z : Fin 64) : Prop :=
  (s.zone z).counts
    = ((s.detectorsOf z fun _ => true).length, (s.detectorsOf z fun d => d.state.impaired).length)

theorem countsOk_iff (s : State) : CountsOk s ↔ ∀ z, CountedAt s z := by
  simp only [CountsOk, CountedAt, Zone.counts, Prod.mk.injEq]

/-- Counts that are exact stay so where the zone has the same counts and its places count alike. -/
theorem CountedAt.congr {s t : State} {z : Fin 64} (h : CountedAt s z) (hz : (t.zone z).counts = (s.zone z).counts)
    (hd : ∀ n p, p = (fun _ => true) ∨ p = (fun d : Detector => d.state.impaired) →
      countsFor z p (t.detector n) = countsFor z p (s.detector n)) : CountedAt t z := by
  rw [CountedAt, hz, h, detectorsOf_congr fun n => hd n _ (.inl rfl), detectorsOf_congr fun n => hd n _ (.inr rfl)]

/-- Places with the same zone and impairment count alike. -/
theorem countsFor_of_counted {z : Fin 64} {p : Detector → Bool} {x y : Option Detector}
    (h : y.map Detector.counted = x.map Detector.counted)
    (hp : p = (fun _ => true) ∨ p = fun d : Detector => d.state.impaired) : countsFor z p y = countsFor z p x := by
  cases x <;> cases y <;> simp only [Option.map_some, Option.map_none, reduceCtorEq, Option.some.injEq,
    Detector.counted, Prod.mk.injEq] at h ⊢
  rcases hp with rfl | rfl <;> simp only [countsFor, h]

theorem SameCounts.countsOk {s t : State} (h : SameCounts s t) (k : CountsOk s) : CountsOk t := by
  rw [countsOk_iff] at *
  exact fun z => (k z).congr (h.zone z) fun n p hp => countsFor_of_counted (h.detector n) hp

theorem keeps_of_kept {s t : State} (h : RangesKept s t) (k : SameCounts s t) : Keeps s t :=
  ⟨k.countsOk, h.settingsOk⟩

/-- The counts of a zone taken anew are exact. -/
theorem countedAt_recountZone_self (s : State) (z : Fin 64) : CountedAt (recountZone s z) z := by
  simp only [CountedAt, recountZone, State.zone_modZone_self, recount, Zone.counts]
  rfl

/-- Counts taken anew leave every exact count exact. -/
theorem CountedAt.recountZone {s : State} {y : Fin 64} (h : CountedAt s y) (z : Fin 64) :
    CountedAt (recountZone s z) y := by
  by_cases e : y = z
  · subst e; exact countedAt_recountZone_self s y
  · exact h.congr (by simp [Machine.recountZone, State.zone_modZone, e]) fun _ _ _ => rfl

/-- A place of the detector table that counts for a zone neither before nor after a write leaves the zone's counts exact. -/
theorem CountedAt.putDetector {s : State} {y : Fin 64} (h : CountedAt s y) {n : Fin 192} {x : Option Detector}
    (hs : ∀ d, s.detector n = some d → d.zone ≠ y) (hx : ∀ d, x = some d → d.zone ≠ y) :
    CountedAt (s.putDetector n x) y := by
  refine h.congr rfl fun m p _ => ?_
  rw [State.detector_putDetector]
  have none_of : ∀ o : Option Detector, (∀ d, o = some d → d.zone ≠ y) → countsFor y p o = false := fun o ho => by
    cases o <;> simp_all [countsFor]
  split
  next e => subst e; rw [none_of _ hs, none_of _ hx]
  next => rfl

/-! ### Changes of one record -/

theorem modZone_keeps {s : State} {z : Fin 64} {f : Zone → Zone} (hr : (s.zone z).inRange → (f (s.zone z)).inRange)
    (hc : (f (s.zone z)).counts = (s.zone z).counts) : Keeps s (s.modZone z f) :=
  keeps_of_kept
    { zone := fun y hy => by rw [State.zone_modZone]; split <;> simp_all }
    { zone := fun y => by rw [State.zone_modZone]; split <;> simp_all }

theorem modWing_keeps {s : State} {w : Fin 4} {f : Wing → Wing}
    (h : (s.wing w).inRange → (f (s.wing w)).inRange) : Keeps s (s.modWing w f) :=
  keeps_of_kept { wing := fun v hv => by rw [State.wing_modWing]; split <;> simp_all } {}

theorem modLoop_keeps {s : State} {l : Fin 4} {f : Loop → Loop}
    (h : (s.loop l).inRange → (f (s.loop l)).inRange) : Keeps s (s.modLoop l f) :=
  keeps_of_kept { loop := fun k hk => by rw [State.loop_modLoop]; split <;> simp_all } {}

theorem modDoor_keeps {s : State} {n : Fin 48} {f : Door → Door}
    (h : (s.door n).inRange → (f (s.door n)).inRange) : Keeps s (s.modDoor n f) :=
  keeps_of_kept { door := fun k hk => by rw [State.door_modDoor]; split <;> simp_all } {}

theorem modDesk_keeps {s : State} {k : Fin 8} {f : Desk → Desk}
    (h : (s.desk k).inRange → (f (s.desk k)).inRange) : Keeps s (s.modDesk k f) :=
  keeps_of_kept { desk := fun j hj => by rw [State.desk_modDesk]; split <;> simp_all } {}

/-- A write that leaves a detector in its zone, and impaired or not as it was. -/
theorem putDetector_keeps {s : State} {n : Fin 192} {d new : Detector} (h : s.detector n = some d)
    (hc : new.counted = d.counted) : Keeps s (s.putDetector n (some new)) :=
  keeps_of_kept {}
    { detector := fun m => by rw [State.detector_putDetector]; split <;> simp_all }

/-- A change of every detector that leaves each in its zone, and impaired or not as it was. -/
theorem mapDetectors_keeps {s : State} {f : Detector → Detector} (h : ∀ d, (f d).counted = d.counted) :
    Keeps s { s with detectors := s.detectors.map fun d => d.map f } :=
  keeps_of_kept {}
    { detector := fun n => by
        simp only [State.detector, Tbl.get_map, Option.map_map]
        exact congrArg (Option.map · _) (funext h) }

/-- The pieces that the two invariants read. -/
def keptPieces : List Piece := [.wings, .zones, .loops, .doors, .desks, .routing, .detectors]

/-- A change of no loop, door, desk and routing keeps the ranges where it keeps those of the wings and the zones. -/
theorem RangesKept.of_onlyIn {ps : List Piece} {s t : State} (h : OnlyIn ps s t)
    (hp : ∀ p ∈ [Piece.loops, .doors, .desks, .routing], p ∉ ps)
    (hw : ∀ w, (s.wing w).inRange → (t.wing w).inRange) (hz : ∀ z, (s.zone z).inRange → (t.zone z).inRange) :
    RangesKept s t where
  wing := hw
  zone := hz
  loop l := by rw [State.loop, State.loop, show t.loops = s.loops from h .loops (hp _ (by decide))]; exact id
  door n := by rw [State.door, State.door, show t.doors = s.doors from h .doors (hp _ (by decide))]; exact id
  desk k := by rw [State.desk, State.desk, show t.desks = s.desks from h .desks (hp _ (by decide))]; exact id
  routing := by rw [show t.routing = s.routing from h .routing (hp _ (by decide))]; exact id

/-- A change of no detector keeps what the counts read where it keeps the counts of the zones. -/
theorem SameCounts.of_onlyIn {ps : List Piece} {s t : State} (h : OnlyIn ps s t) (hp : Piece.detectors ∉ ps)
    (hz : ∀ z, (t.zone z).counts = (s.zone z).counts) : SameCounts s t where
  zone := hz
  detector n := by rw [State.detector, show t.detectors = s.detectors from h .detectors hp]; rfl

/-- A change of other pieces keeps the counts and the settings. -/
theorem keeps_of_onlyIn {ps : List Piece} {s t : State} (h : OnlyIn ps s t) (hp : ∀ p ∈ keptPieces, p ∉ ps) :
    Keeps s t := by
  have hw : t.wings = s.wings := h .wings (hp _ (by decide))
  have hz : t.zones = s.zones := h .zones (hp _ (by decide))
  exact keeps_of_kept
    (.of_onlyIn h (fun p hm => hp p (by revert p; decide)) (fun w => by simp only [State.wing, hw, imp_self])
      fun z => by simp only [State.zone, hz, imp_self])
    (.of_onlyIn h (hp _ (by decide)) fun z => by simp only [State.zone, hz])

theorem modPoint_keeps (s : State) (c : Fin 64) (f : CallPoint → CallPoint) : Keeps s (s.modPoint c f) :=
  keeps_of_onlyIn (modPoint_onlyIn s c f) (by decide)

theorem modExit_keeps (s : State) (e : Fin 16) (f : ExitRecord → ExitRecord) : Keeps s (s.modExit e f) :=
  keeps_of_onlyIn (modExit_onlyIn s e f) (by decide)

theorem modPort_keeps (s : State) (st : Station) (f : Port → Port) : Keeps s (s.modPort st f) :=
  keeps_of_onlyIn (modPort_onlyIn s st f) (by decide)

theorem modChannel_keeps (s : State) (n : Fin 276) (f : Channel → Channel) : Keeps s (s.modChannel n f) :=
  keeps_of_onlyIn (modChannel_onlyIn s n f) (by decide)

theorem writeSource_keeps (s : State) (n : Fin 276) (v : ChannelValue) : Keeps s (writeSource s n v) :=
  modChannel_keeps s n _

theorem putSlot_keeps (s : State) (l : Fin 4) (k : Fin 48) (x : ScanSlot) : Keeps s (s.putSlot l k x) :=
  keeps_of_onlyIn (putSlot_onlyIn s l k x) (by decide)

theorem trigger_keeps (s : State) : Keeps s (trigger s) := keeps_of_onlyIn (trigger_onlyIn s) (by decide)

/-- An entry changes no setting of the wing whose revision it advances (R12). -/
theorem append_keeps (s : State) (k : EntryKind) (x : Subject) (w : Option (Fin 4)) (d : Detail) :
    Keeps s (append s k x w d) := by
  have h := append_onlyIn s k x w d
  have hz : (append s k x w d).zones = s.zones := h .zones (by decide)
  exact keeps_of_kept
    (.of_onlyIn h (by decide) (fun v => by rw [append_wing]; split <;> exact id) fun z => by
      simp only [State.zone, hz, imp_self])
    (.of_onlyIn h (by decide) fun z => by simp only [State.zone, hz])

/-- A change followed by the entry that reports it. -/
theorem Keeps.append {s t : State} (h : Keeps s t) (k : EntryKind) (x : Subject) (w : Option (Fin 4)) (d : Detail) :
    Keeps s (append t k x w d) := h.trans (append_keeps t k x w d)

theorem appendDoor_keeps (s : State) (k : EntryKind) (n : Fin 48) (d : Detail) : Keeps s (appendDoor s k n d) := by
  simp only [appendDoor]
  split
  · split
    · exact append_keeps ..
    · exact (append_keeps ..).append ..
  · exact append_keeps ..

end Sys2Proof.Machine
end

section
/-! SUPPORT. The blocks of the part keep the counts and the settings: presence and arming, calls, the output stage, the
fire sequence, the doors, the routes and the end of an event. -/

set_option autoImplicit false

namespace Sys2Proof.Machine

/-! ### Presence and arming (chapter 5) -/

theorem setSecurity_keeps (s : State) (z : Fin 64) (x : Security) : Keeps s (setSecurity s z x) :=
  modZone_keeps id rfl

theorem securityTakes_keeps (s : State) (z : Fin 64) (a : ActivitySource) : Keeps s (securityTakes s z a) := by
  simp only [securityTakes]
  split
  · exact (setSecurity_keeps ..).append ..
  · split
    · exact (setSecurity_keeps ..).append ..
    all_goals exact Keeps.refl s
  all_goals exact Keeps.refl s

theorem takeActivity_keeps (s : State) (z : Fin 64) (a : ActivitySource) : Keeps s (takeActivity s z a) := by
  simp only [takeActivity]
  split
  · split
    · exact Keeps.refl s
    · exact (modZone_keeps id rfl).trans (securityTakes_keeps ..)
    · exact (modZone_keeps id rfl).trans (securityTakes_keeps ..)
  · exact Keeps.refl s

theorem takeActivities_keeps (s : State) (zs : List (Fin 64)) (a : ActivitySource) :
    Keeps s (takeActivities s zs a) := Keeps.foldl (fun t z => takeActivity_keeps t z a) zs s

theorem takeDoorEvent_keeps (s : State) (z : Fin 64) (b : BreachSource) : Keeps s (takeDoorEvent s z b) := by
  simp only [takeDoorEvent]
  split
  · exact (setSecurity_keeps ..).append ..
  all_goals exact Keeps.refl s

theorem suspendZone_keeps (c : SuspendCause) (s : State) (z : Fin 64) : Keeps s (suspendZone c s z) := by
  simp only [suspendZone]
  split
  · exact (setSecurity_keeps ..).append ..
  · exact (setSecurity_keeps ..).append ..
  all_goals exact Keeps.refl s

theorem restoreZone_keeps (s : State) (z : Fin 64) : Keeps s (restoreZone s z) := by
  simp only [restoreZone]
  split
  · split <;> exact (setSecurity_keeps ..).append ..
  all_goals exact Keeps.refl s

theorem suspendWing_keeps (s : State) (w : Fin 4) : Keeps s (suspendWing s w) :=
  Keeps.foldl (suspendZone_keeps .stage) _ s

theorem restoreWing_keeps (s : State) (w : Fin 4) : Keeps s (restoreWing s w) := Keeps.foldl restoreZone_keeps _ s

theorem takeTransit_keeps (s : State) (z : Fin 64) : Keeps s (takeTransit s z) := by
  simp only [takeTransit]
  split
  · exact suspendZone_keeps ..
  · split
    · exact restoreZone_keeps ..
    · exact Keeps.refl s

/-! ### Calls (chapter 7) -/

theorem setCall_keeps (s : State) (c : Fin 64) (h : HelpCall) : Keeps s (setCall s c h) := modPoint_keeps s c _

theorem setLamp_keeps (s : State) (c : Fin 64) (v : ChannelValue) : Keeps s (setLamp s c v) :=
  (modPoint_keeps s c _).trans (writeSource_keeps ..)

theorem enqueueCall_keeps (s : State) (c : Fin 64) : Keeps s (enqueueCall s c) := keeps_of_kept {} {}

theorem dequeueCall_keeps (s : State) (c : Fin 64) : Keeps s (dequeueCall s c) := keeps_of_kept {} {}

theorem leaveDesk_keeps (s : State) (k : Fin 8) (c : Fin 64) : Keeps s (leaveDesk s k c) := modDesk_keeps id

theorem offerCall_keeps (s : State) (c : Fin 64) (h : HelpCall) (p : Place) (k : Fin 8) :
    Keeps s (offerCall s c h p k) :=
  ((setCall_keeps s c _).trans (modDesk_keeps id)).append ..

theorem offerOne_keeps (s : State) (c : Fin 64) : Keeps s (offerOne s c) := by
  simp only [offerOne]
  split
  · split
    · split
      · exact offerCall_keeps ..
      · exact Keeps.refl s
    all_goals exact Keeps.refl s
  · exact Keeps.refl s

theorem offeringRound_keeps (s : State) : Keeps s (offeringRound s) := Keeps.foldl offerOne_keeps _ s

/-- A change followed by an offering round. -/
theorem Keeps.round {s t : State} (h : Keeps s t) : Keeps s (offeringRound t) := h.trans (offeringRound_keeps t)

theorem withdrawCall_keeps (s : State) (c : Fin 64) (h : HelpCall) (k : Fin 8) (n : Place) :
    Keeps s (withdrawCall s c h k n) :=
  ((leaveDesk_keeps s k c).trans (setCall_keeps ..)).append ..

/-- A call's new record takes its place in the queue, and an entry is appended. -/
theorem moveCall_keeps (s : State) (c : Fin 64) (h : HelpCall) (k : EntryKind) (d : Detail) :
    Keeps s (appendPoint (enqueueCall (setCall s c h) c) k c d) :=
  ((setCall_keeps s c h).trans (enqueueCall_keeps ..)).append ..

theorem evacuateCall_keeps (w : Fin 4) (s : State) (c : Fin 64) : Keeps s (evacuateCall w s c) := by
  simp only [evacuateCall]
  split
  · exact Keeps.refl s
  · split
    · exact (moveCall_keeps ..).trans (setCall_keeps ..)
    · split
      · exact (moveCall_keeps ..).trans (setCall_keeps ..)
      · exact (moveCall_keeps ..).trans (withdrawCall_keeps ..)
    · exact moveCall_keeps ..

theorem evacuateCalls_keeps (s : State) (w : Fin 4) : Keeps s (evacuateCalls s w) :=
  Keeps.foldl (evacuateCall_keeps w) _ s

theorem offerAfterEvacuation_keeps (b s : State) : Keeps s (offerAfterEvacuation b s) := by
  unfold offerAfterEvacuation
  split
  · exact offeringRound_keeps s
  · exact Keeps.refl s

theorem standDownCalls_keeps (s : State) (w : Fin 4) : Keeps s (standDownCalls s w) := by
  refine Keeps.foldl (fun t c => ?_) _ s
  simp only [standDownCall]
  split
  · exact Keeps.refl t
  · split
    · exact moveCall_keeps ..
    all_goals exact Keeps.refl t

theorem withdrawLost_keeps (st : Station) (s : State) (c : Fin 64) : Keeps s (withdrawLost st s c) := by
  simp only [withdrawLost]
  split
  · split
    · split
      · exact withdrawCall_keeps ..
      · exact Keeps.refl s
    all_goals exact Keeps.refl s
  · exact Keeps.refl s

theorem requeueLost_keeps (st : Station) (s : State) (c : Fin 64) : Keeps s (requeueLost st s c) := by
  simp only [requeueLost]
  split
  · split
    · split
      · exact (((setCall_keeps ..).trans (setLamp_keeps ..)).trans (enqueueCall_keeps ..)).append ..
      · exact Keeps.refl s
    all_goals exact Keeps.refl s
  · exact Keeps.refl s

theorem loseDesks_keeps (s : State) (st : Station) : Keeps s (loseDesks s st) :=
  ((Keeps.foldl (withdrawLost_keeps st) _ s).trans (Keeps.foldl (requeueLost_keeps st) _ _)).round

theorem raiseCall_keeps (s : State) (c : Fin 64) : Keeps s (raiseCall s c) :=
  Keeps.round <| Keeps.trans
    (((((setCall_keeps ..).trans (setLamp_keeps ..)).trans (enqueueCall_keeps ..)).trans (modZone_keeps id rfl)).append ..)
    (takeActivity_keeps ..)

theorem pressAgain_keeps (s : State) (c : Fin 64) (h : HelpCall) : Keeps s (pressAgain s c h) := by
  refine Keeps.trans ?_ (takeActivity_keeps ..)
  split
  · exact moveCall_keeps ..
  · exact setCall_keeps ..

theorem lapseOffer_keeps (s : State) (c : Fin 64) (h : HelpCall) (k : Fin 8) : Keeps s (lapseOffer s c h k) :=
  ((leaveDesk_keeps s k c).trans (moveCall_keeps ..)).round

theorem acceptOffer_keeps (s : State) (c : Fin 64) (h : HelpCall) (k : Fin 8) : Keeps s (acceptOffer s c h k) :=
  ((((leaveDesk_keeps s k c).trans (setCall_keeps ..)).trans (setLamp_keeps ..)).append ..).round

/-- A cleared call leaves its desk, its point, the queue and the count of its zone (R125). -/
theorem clearActive_keeps (s : State) (c : Fin 64) (h : HelpCall) (st : Station) : Keeps s (clearActive s c h st) := by
  have rest : ∀ {t : State}, Keeps s t →
      Keeps s (appendPoint ((dequeueCall (setLamp (t.modPoint c fun p => { p with state := .idle }) c .off) c).modZone
        (s.point c).zone fun r => { r with activeCalls := r.activeCalls - 1 }) .callCleared c (.station st)) :=
    fun k => ((((k.trans (modPoint_keeps ..)).trans (setLamp_keeps ..)).trans (dequeueCall_keeps ..)).trans
      (modZone_keeps id rfl)).append ..
  simp only [clearActive]
  split
  · exact (rest (leaveDesk_keeps ..)).round
  · exact rest (Keeps.refl s)
  · exact rest (Keeps.refl s)

/-! ### The output stage (chapter 9) -/

theorem maintain_keeps (s : State) (first count : Nat) (k : EntryKind) (stands : Channel → Bool)
    (f : Channel → Channel) : Keeps s (maintain s first count k stands f) := by
  have h : Keeps s (changeRange s first count stands f) := keeps_of_kept {} {}
  refine h.trans (Keeps.foldl (fun t o => ?_) _ _)
  simp only []
  split
  · exact Keeps.refl t
  · exact append_keeps ..

theorem breakHolds_keeps (s : State) (w : Fin 4) : Keeps s (breakHolds s w) := by
  have h : Keeps s { s with channels := s.channels.map fun c => if c.wing = some w then returnChannel c else c } :=
    keeps_of_kept {} {}
  simp only [breakHolds]
  split <;> split
  · exact h
  · exact h.append ..
  · exact h.append ..
  · exact (h.append ..).append ..

/-! ### The fire sequence (chapter 4) -/

theorem refreshExits_keeps (s : State) (z : Fin 64) : Keeps s (refreshExits s z) :=
  keeps_of_onlyIn (refreshExits_within s z).1 (by decide)

theorem writeFire_keeps (s : State) (z : Fin 64) (f : FireState) : Keeps s (writeFire s z f) := by
  simp only [writeFire]
  split
  · exact Keeps.refl s
  · exact ((modZone_keeps id rfl).trans (trigger_keeps _)).trans (refreshExits_keeps _ z)

theorem deriveFire_keeps (s : State) (z : Fin 64) : Keeps s (deriveFire s z) := by
  simp only [deriveFire]
  split
  · exact Keeps.refl s
  · exact writeFire_keeps ..

theorem sound_keeps (s : State) (w : Fin 4) : Keeps s (sound s w) := writeSource_keeps ..

theorem alertWing_keeps (v : Fin 4) (s : State) (w : Fin 4) : Keeps s (alertWing v s w) := by
  simp only [alertWing]
  split
  · exact ((modWing_keeps id).append ..).trans (sound_keeps ..)
  · exact Keeps.refl s

theorem endAlert_keeps (v : Fin 4) (s : State) (w : Fin 4) : Keeps s (endAlert v s w) := by
  simp only [endAlert]
  split
  · exact ((modWing_keeps id).append ..).trans (sound_keeps ..)
  · exact Keeps.refl s

theorem endTest_keeps (c : TestEndCause) (s : State) (z : Fin 64) : Keeps s (endTest c s z) := by
  have h : Keeps s (appendZone
      { s.modZone z fun r => { r with testTimer := none } with
        detectors := s.detectors.map fun d => d.map fun d => if d.zone = z then { d with testArmed := none } else d }
      .testEnded z (.testEnd c)) :=
    ((modZone_keeps id rfl).trans (mapDetectors_keeps fun d => by split <;> rfl)).append ..
  simp only [endTest]
  split
  · split
    · exact h
    · exact h.trans (trigger_keeps _)
  · exact Keeps.refl s

theorem endLockdownByStage_keeps (s : State) (w : Fin 4) : Keeps s (endLockdownByStage s w) := by
  simp only [endLockdownByStage]
  split
  · exact (modWing_keeps id).append ..
  · exact Keeps.refl s

theorem leaveStandby_keeps (s : State) (w : Fin 4) : Keeps s (leaveStandby s w) :=
  (((breakHolds_keeps s w).trans (suspendWing_keeps _ w)).trans (endLockdownByStage_keeps _ w)).trans
    (Keeps.foldl (endTest_keeps .stage) _ _)

theorem changeStage_keeps (s : State) (w : Fin 4) (x : Stage) (c : StageCause) : Keeps s (changeStage s w x c) :=
  (modWing_keeps id).append ..

theorem clearAlerted_keeps (s : State) (w : Fin 4) : Keeps s (clearAlerted s w) := modWing_keeps id

theorem setEgress_keeps (s : State) (w : Fin 4) (x : Bool) : Keeps s (setEgress s w x) := by
  simp only [setEgress]
  split
  · exact Keeps.refl s
  · exact (Keeps.foldl (fun t z => modZone_keeps id rfl) _ s).trans (trigger_keeps _)

theorem enterAckWait_keeps (s : State) (w : Fin 4) : Keeps s (enterAckWait s w) :=
  (((changeStage_keeps s w _ _).trans (leaveStandby_keeps _ w)).trans (clearAlerted_keeps _ w)).trans (sound_keeps _ w)

theorem enterEvacuate_keeps (s : State) (w : Fin 4) (c : StageCause) : Keeps s (enterEvacuate s w c) := by
  have left : Keeps s (if s.atStandby w then clearAlerted (leaveStandby (changeStage s w .evacuate c) w) w
      else changeStage s w .evacuate c) := by
    split
    · exact ((changeStage_keeps s w _ c).trans (leaveStandby_keeps _ w)).trans (clearAlerted_keeps _ w)
    · exact changeStage_keeps s w _ c
  exact ((((left.trans (setEgress_keeps _ w true)).trans (modWing_keeps id)).trans (evacuateCalls_keeps _ w)).trans
    (sound_keeps _ w)).trans (Keeps.foldl (alertWing_keeps w) _ _)

theorem returnEffects_keeps (s : State) (w : Fin 4) (left : StageName) : Keeps s (returnEffects s w left) := by
  have h2 : Keeps s (setEgress (s.modWing w fun r => { r with spreadTimer := none, silenced := false }) w false) :=
    (modWing_keeps id).trans (setEgress_keeps _ w false)
  have h3 : ∀ {t : State}, Keeps s t →
      Keeps s (if left = .evacuate then (spreadOf t w).foldl (endAlert w) t else t) := fun {t} k => by
    split
    · exact k.trans (Keeps.foldl (endAlert_keeps w) _ t)
    · exact k
  have h4 : ∀ {t : State} (vs : List (Fin 4)), Keeps s t →
      Keeps s (match vs with | v :: _ => alertWing v t w | [] => t) := fun {t} vs k => by
    cases vs with
    | nil => exact k
    | cons v _ => exact k.trans (alertWing_keeps v t w)
  exact (((h4 _ (h3 h2)).trans (sound_keeps _ w)).trans (restoreWing_keeps _ w)).trans (standDownCalls_keeps _ w)

theorem stageTakes_keeps (s : State) (w : Fin 4) (o : AlarmOrigin) (several fresh : Bool) :
    Keeps s (stageTakes s w o several fresh) := by
  simp only [stageTakes]
  split
  · split
    · exact enterAckWait_keeps ..
    · exact enterEvacuate_keeps ..
  · exact enterEvacuate_keeps ..
  · exact enterEvacuate_keeps ..
  · exact Keeps.refl s

theorem resound_keeps (s : State) (w : Fin 4) (z : Fin 64) : Keeps s (resound s w z) := by
  simp only [resound]
  split
  · exact ((modWing_keeps id).append ..).trans (sound_keeps ..)
  · exact Keeps.refl s

theorem zoneAlarm_keeps (s : State) (z : Fin 64) (o : AlarmOrigin) (several : Bool) :
    Keeps s (zoneAlarm s z o several) := by
  simp only [zoneAlarm]
  split
  · exact stageTakes_keeps ..
  · exact (((writeFire_keeps ..).append ..).trans (resound_keeps ..)).trans (stageTakes_keeps ..)

theorem fireCall_keeps (s : State) (c : Fin 64) : Keeps s (fireCall s c) := by
  refine Keeps.trans (Keeps.append ?_ ..) (zoneAlarm_keeps ..)
  split
  · exact (modPoint_keeps ..).trans (setLamp_keeps ..)
  all_goals exact Keeps.refl s

theorem unlatchPoints_keeps (s : State) (z : Fin 64) : Keeps s (unlatchPoints s z) :=
  Keeps.foldl (fun t c => (modPoint_keeps t c _).trans (setLamp_keeps ..)) _ s

/-- A detector that leaves ALARM at a zone reset is no more impaired than before (R58). -/
theorem resetAlarm_counted (d : Detector) : d.resetAlarm.counted = d.counted := by
  simp only [Detector.resetAlarm]
  split
  next h => simp [Detector.counted, h, DetectorState.impaired]
  next => rfl

theorem resetOneZone_keeps (s : State) (z : Fin 64) : Keeps s (resetOneZone s z) :=
  Keeps.append
    (((mapDetectors_keeps fun d => by split; exacts [resetAlarm_counted d, rfl]).trans (unlatchPoints_keeps _ z)).trans
      (writeFire_keeps ..)) ..

/-! ### The doors (chapter 6) -/

theorem handDoorEvent_keeps (s : State) (n : Fin 48) (b : BreachSource) : Keeps s (handDoorEvent s n b) :=
  Keeps.foldl (fun t z => takeDoorEvent_keeps t z b) _ s

theorem openDoor_keeps (s : State) (n : Fin 48) : Keeps s (openDoor s n) := by
  simp only [openDoor]
  split
  · exact (modDoor_keeps id).trans (handDoorEvent_keeps ..)
  · exact ((modDoor_keeps id).trans (appendDoor_keeps ..)).trans (handDoorEvent_keeps ..)

theorem closeDoor_keeps (s : State) (n : Fin 48) : Keeps s (closeDoor s n) := by
  have h : Keeps s (s.modDoor n (Door.closedRecord (s.channel (doorChannel n)).effective)) := modDoor_keeps id
  simp only [closeDoor]
  split
  · exact h.trans (appendDoor_keeps ..)
  · exact h.trans (takeActivities_keeps ..)
  · exact h.trans (takeActivities_keeps ..)
  all_goals exact h

theorem faultDoor_keeps (s : State) (n : Fin 48) (c : DoorFaultCause) : Keeps s (faultDoor s n c) :=
  (modDoor_keeps id).trans (appendDoor_keeps ..)

theorem clearFaultReport_keeps (s : State) (n : Fin 48) : Keeps s (clearFaultReport s n) := by
  simp only [clearFaultReport]
  split
  · exact (modDoor_keeps id).trans (appendDoor_keeps ..)
  · exact Keeps.refl s

theorem leaveFault_keeps (s : State) (n : Fin 48) : Keeps s (leaveFault s n) := by
  simp only [leaveFault]
  split
  · exact (modDoor_keeps id).trans (clearFaultReport_keeps ..)
  · split
    · exact (modDoor_keeps id).trans (clearFaultReport_keeps ..)
    · exact (((modDoor_keeps id).trans (appendDoor_keeps ..)).trans (handDoorEvent_keeps ..)).trans
        (clearFaultReport_keeps ..)
  · exact Keeps.refl s

theorem recordContact_keeps (s : State) (n : Fin 48) (x : Contact) : Keeps s (recordContact s n x) := modDoor_keeps id

theorem contactChange_keeps (s : State) (n : Fin 48) (x : Contact) : Keeps s (contactChange s n x) := by
  simp only [contactChange]
  split
  · exact (recordContact_keeps ..).trans (faultDoor_keeps ..)
  · split
    · exact recordContact_keeps ..
    · exact (recordContact_keeps ..).trans (leaveFault_keeps ..)
  · exact (recordContact_keeps ..).trans (faultDoor_keeps ..)
  · exact openDoor_keeps ..
  · exact closeDoor_keeps ..

theorem lineFaultChange_keeps (s : State) (n : Fin 48) (faulty : Bool) : Keeps s (lineFaultChange s n faulty) := by
  simp only [lineFaultChange]
  split
  · exact faultDoor_keeps ..
  · split
    · exact leaveFault_keeps ..
    · exact Keeps.refl s

theorem restDoor_keeps (s : State) (n : Fin 48) : Keeps s (restDoor s n) := by
  simp only [restDoor]
  split
  · exact modDoor_keeps id
  · exact Keeps.refl s

theorem computeDoor_keeps (s : State) (n : Fin 48) : Keeps s (computeDoor s n) :=
  (modDoor_keeps id).trans (writeSource_keeps ..)

theorem followEffective_keeps (b s : State) (n : Fin 48) : Keeps s (followEffective b s n) := by
  simp only [followEffective]
  split
  · exact modDoor_keeps id
  · exact Keeps.refl s

theorem superviseClosing_keeps (b s : State) (n : Fin 48) : Keeps s (superviseClosing b s n) := by
  simp only [superviseClosing]
  split
  · exact Keeps.refl s
  · exact modDoor_keeps id

theorem settleDoors_keeps (b s : State) : Keeps s (settleDoors b s) := by
  refine Keeps.trans (t := computeDoors b s) (Keeps.foldl (fun t n => ?_) _ s) (Keeps.foldl (fun t n => ?_) _ _)
  · split
    · exact Keeps.refl t
    · exact computeDoor_keeps ..
  · split
    · exact (followEffective_keeps ..).trans (superviseClosing_keeps ..)
    · exact followEffective_keeps ..

/-! ### The routes (chapter 8) -/

/-- A pass writes a zone's selection and neither its counts nor its setting (R139). -/
theorem selectedRoute_kept (g : Option (List Selection)) (r : Zone) :
    (r.inRange → (Zone.selectedRoute g r).inRange) ∧ (Zone.selectedRoute g r).counts = r.counts := by
  simp only [Zone.selectedRoute]
  split
  · exact ⟨id, rfl⟩
  · split <;> exact ⟨id, rfl⟩

theorem writeSelection_keeps (g : List (Fin 64 × List Selection)) (s : State) (z : Fin 64) :
    Keeps s (writeSelection g s z) := by
  obtain ⟨hr, hc⟩ := selectedRoute_kept (gradedOf g z) (s.zone z)
  have h : Keeps s (s.modZone z fun _ => Zone.selectedRoute (gradedOf g z) (s.zone z)) := modZone_keeps hr hc
  simp only [writeSelection]
  split
  · exact h.append ..
  · exact h.append ..
  · exact h

theorem writeSign_keeps (v : View) (sel : List Selection) (s : State) (g : Fin 96) : Keeps s (writeSign v sel s g) := by
  simp only [writeSign]
  split
  · exact Keeps.trans (keeps_of_kept {} {}) (writeSource_keeps ..)
  · exact Keeps.refl s

theorem passEnd_keeps (s : State) (v : View) (again : Bool) : Keeps s (passEnd s v again) := by
  have transits : ∀ (t : State) (f : Fin 64 → Nat),
      Keeps t { t with zones := t.zones.mapIdx fun z r => r.withTransit (f z) } := fun t f =>
    keeps_of_kept { zone := fun z => by simp only [State.zone, Tbl.get_mapIdx]; exact id }
      { zone := fun z => by simp only [State.zone, Tbl.get_mapIdx]; rfl }
  have claims : ∀ (t : State) (f : Fin 48 → Nat),
      Keeps t { t with doors := t.doors.mapIdx fun n (d : Door) => d.withClaims (f n) } := fun t f =>
    keeps_of_kept { door := fun n => by simp only [State.door, Tbl.get_mapIdx]; exact id } {}
  have engine : ∀ (t : State) (e : RouteEngine), Keeps t { t with engine := e } := fun t e => keeps_of_kept {} {}
  exact ((((((Keeps.foldl (writeSelection_keeps _) _ s).trans (transits _ _)).trans
    (Keeps.foldl takeTransit_keeps _ _)).trans (Keeps.foldl (writeSign_keeps v _) _ _)).trans
    (Keeps.foldl (fun t z => writeSource_keeps ..) _ _)).trans (claims _ _)).trans (engine _ _)

/-! ### The end of an event -/

/-- A pass that opens, the transmitters that start and the messages sent. -/
theorem sendOff_keeps (s : State) (m : List ChannelMessage) :
    Keeps s { startTransmitters (openPass s) with fieldOut := m, stationOut := [] } :=
  ((keeps_of_onlyIn (openPass_onlyIn s) (by decide)).trans
    (keeps_of_onlyIn (startTransmitters_onlyIn _) (by decide))).trans (keeps_of_kept {} {})

theorem endEvent_keeps (b s : State) : Keeps s (endEvent b s) := (settleDoors_keeps b s).trans (sendOff_keeps _ _)

theorem endStart_keeps (s : State) : Keeps s (endStart s) := sendOff_keeps s _

theorem endReset_keeps (b s : State) : Keeps s (endReset b s) := sendOff_keeps s _

end Sys2Proof.Machine
end

section
/-! SUPPORT. The Detector Evaluation Unit and the Loop Scan Unit keep the counts and the settings: a detector that enters
or leaves an impaired state takes its zone's impaired count with it (R15). -/

set_option autoImplicit false

namespace Sys2Proof.Machine

/-! ### A detector's record with its zone's impaired count (R15) -/

/-- One more member of a list satisfies `q` than `p` where the two agree but on that member. -/
theorem length_filter_add_one {α : Type} [DecidableEq α] {l : List α} (hl : l.Nodup) {n : α} (hn : n ∈ l)
    {p q : α → Bool} (h : ∀ m, m ≠ n → q m = p m) (hp : p n = false) (hq : q n = true) :
    (l.filter q).length = (l.filter p).length + 1 := by
  have hperm : (l.filter q).Perm (n :: l.filter p) := by
    rw [List.perm_ext_iff_of_nodup (hl.filter _) (List.nodup_cons.mpr ⟨by simp [hp], hl.filter _⟩)]
    intro m
    by_cases e : m = n <;> simp_all
  simpa using hperm.length_eq

/-- A write that makes one place of the detector table count for a zone gives the zone one detector more. -/
theorem length_detectorsOf_add_one {s t : State} {z : Fin 64} {p : Detector → Bool} {n : Fin 192}
    (h : ∀ m, m ≠ n → t.detector m = s.detector m) (hs : countsFor z p (s.detector n) = false)
    (ht : countsFor z p (t.detector n) = true) : (t.detectorsOf z p).length = (s.detectorsOf z p).length + 1 := by
  rw [detectorsOf_eq, detectorsOf_eq]
  exact length_filter_add_one (List.nodup_finRange _) (List.mem_finRange n) (fun m hm => by rw [h m hm]) hs ht

/-- The count of a zone after one of its detectors has gone from `was` to `now` (R15). -/
def impairedAfter (was now : Bool) (n : Nat) : Nat := if was = now then n else if now then n + 1 else n - 1

/-- The impaired count of a zone follows a change of one detector of it, and nothing else of the records does (R15). -/
theorem followImpaired_eq (s : State) (z : Fin 64) (was now : Bool) :
    (followImpaired s z was now).zones
        = s.zones.modify z (fun r => { r with impairedCount := impairedAfter was now r.impairedCount })
      ∧ OnlyIn [.zones, .engine] s (followImpaired s z was now) := by
  by_cases e : was = now
  · subst e
    have hz : (fun r : Zone => { r with impairedCount := impairedAfter was was r.impairedCount }) = id := by
      funext r; simp [impairedAfter]
    simp only [followImpaired, if_true, hz]
    exact ⟨by simp [Tbl.modify], OnlyIn.refl _ s⟩
  · have h := modZone_onlyIn s z fun r =>
      { r with impairedCount := if now then r.impairedCount + 1 else r.impairedCount - 1 }
    have triggered : ∀ {c : Prop} [Decidable c] {x : Tbl 64 Zone} {u : State}, u.zones = x →
        OnlyIn [.zones, .engine] s u →
        (if c then u else trigger u).zones = x ∧ OnlyIn [.zones, .engine] s (if c then u else trigger u) := by
      intro c _ x u hx hu
      split
      · exact ⟨hx, hu⟩
      · exact ⟨Eq.trans (trigger_onlyIn u .zones (by decide)) hx, hu.trans ((trigger_onlyIn u).mono (by decide))⟩
    simp only [followImpaired, impairedAfter, if_neg e]
    exact triggered rfl (h.mono (by decide))

/-- How many detectors of its zone are impaired once a detector's record is written (R15). -/
theorem length_impaired_putDetector {s : State} {n : Fin 192} {old new : Detector} (h : s.detector n = some old)
    (hz : new.zone = old.zone) :
    ((s.putDetector n (some new)).detectorsOf old.zone fun d => d.state.impaired).length
      = impairedAfter old.state.impaired new.state.impaired
        (s.detectorsOf old.zone fun d => d.state.impaired).length := by
  have other : ∀ m, m ≠ n → (s.putDetector n (some new)).detector m = s.detector m := fun m hm => by
    simp [State.detector_putDetector, hm]
  have before : countsFor old.zone (fun d => d.state.impaired) (s.detector n) = old.state.impaired := by
    simp [h, countsFor]
  have after : countsFor old.zone (fun d => d.state.impaired) ((s.putDetector n (some new)).detector n)
      = new.state.impaired := by simp [countsFor, hz]
  cases ho : old.state.impaired <;> cases hn : new.state.impaired <;> simp only [impairedAfter]
  case false.true => exact length_detectorsOf_add_one other (before.trans ho) (after.trans hn)
  case true.false =>
    have := length_detectorsOf_add_one (s := s.putDetector n (some new)) (t := s) (fun m hm => (other m hm).symm)
      (after.trans hn) (before.trans ho)
    simp only [this]; rfl
  all_goals
    refine congrArg List.length (detectorsOf_congr fun m => ?_)
    by_cases e : m = n
    · rw [e, before, after, ho, hn]
    · rw [other m e]

/-- A detector's record is written in its zone, with the zone's impaired count (R15). -/
theorem writeDetector_keeps {s : State} {n : Fin 192} {old new : Detector} (h : s.detector n = some old)
    (hz : new.zone = old.zone) : Keeps s (writeDetector s n old new) := by
  obtain ⟨hzones, ho⟩ := followImpaired_eq (s.putDetector n (some new)) new.zone old.state.impaired new.state.impaired
  have hn : (writeDetector s n old new).detectors = (s.putDetector n (some new)).detectors := ho .detectors (by decide)
  have zone_eq : ∀ y, (writeDetector s n old new).zone y = if y = old.zone then
      { s.zone y with impairedCount := impairedAfter old.state.impaired new.state.impaired (s.zone y).impairedCount }
      else s.zone y := fun y => by
    rw [State.zone, show (writeDetector s n old new).zones = _ from hzones, hz]
    exact Tbl.get_modify ..
  have same : ∀ y p, (writeDetector s n old new).detectorsOf y p = (s.putDetector n (some new)).detectorsOf y p :=
    fun y p => detectorsOf_congr fun m => by simp only [State.detector, hn]
  have hs : RangesKept s (writeDetector s n old new) :=
    .of_onlyIn (((putDetector_onlyIn s n _).andThen ho (by decide) (by decide) :
        OnlyIn [.detectors, .zones, .engine] s (writeDetector s n old new))) (by decide)
      (fun w => by
        rw [State.wing, State.wing, show (writeDetector s n old new).wings = s.wings from ho .wings (by decide)]
        exact id)
      fun y => by rw [zone_eq]; split <;> exact id
  refine ⟨fun k => ?_, hs.settingsOk⟩
  rw [countsOk_iff] at *
  intro y
  by_cases e : y = old.zone
  · have hk := k y
    have hdet : ((s.putDetector n (some new)).detectorsOf y fun _ => true) = s.detectorsOf y fun _ => true :=
      detectorsOf_congr fun m => by
        rw [State.detector_putDetector]
        split
        next em => subst em; simp [h, countsFor, hz]
        next => rfl
    subst e
    simp only [CountedAt, Zone.counts, Prod.mk.injEq] at hk ⊢
    simp only [same, zone_eq, if_true, hdet, length_impaired_putDetector h hz, hk, and_self]
  · have hy : CountedAt (s.putDetector n (some new)) y :=
      (k y).putDetector (fun d hd => by rw [h] at hd; cases hd; exact fun hh => e hh.symm)
        (fun d hd => by cases hd; rw [hz]; exact fun hh => e hh.symm)
    exact hy.congr (by rw [zone_eq, if_neg e]; rfl) fun m p _ => by simp only [State.detector, hn]

/-! ### Readings (R41 to R54) -/

@[simp] theorem append_detector (s : State) (k : EntryKind) (x : Subject) (w : Option (Fin 4)) (d : Detail)
    (n : Fin 192) : (append s k x w d).detector n = s.detector n := by
  simp only [State.detector, show (append s k x w d).detectors = s.detectors from append_onlyIn s k x w d .detectors (by decide)]

@[simp] theorem abortVerify_detector (s : State) (n : Fin 192) (d : Detector) (c : AbortCause) (m : Fin 192) :
    (abortVerify s n d c).detector m = s.detector m := by
  simp only [abortVerify]
  split
  · exact append_detector ..
  · rfl

theorem abortVerify_keeps (s : State) (n : Fin 192) (d : Detector) (c : AbortCause) : Keeps s (abortVerify s n d c) := by
  simp only [abortVerify]
  split
  · exact append_keeps ..
  · exact Keeps.refl s

/-- A detector leaves its state, its verification cancelled first (R48). -/
theorem abortVerify_writeDetector_keeps {s : State} {n : Fin 192} {d new : Detector} (c : AbortCause)
    (h : s.detector n = some d) (hz : new.zone = d.zone) : Keeps s (writeDetector (abortVerify s n d c) n d new) :=
  (abortVerify_keeps s n d c).trans (writeDetector_keeps (by simpa using h) hz)

theorem enterFault_keeps {s : State} {n : Fin 192} {old d : Detector} (k : FaultKind) (h : s.detector n = some old)
    (hz : d.zone = old.zone) : Keeps s (enterFault s n old d k) := by
  have hw := abortVerify_writeDetector_keeps (new :=
    { d with
      state := .fault k, level := none, riseRun := 0, testArmed := d.testArmed.map fun _ => false }) .fault h hz
  exact (hw.append ..).trans (deriveFire_keeps ..)

theorem takeMissed_keeps {s : State} {n : Fin 192} {d : Detector} (h : s.detector n = some d) :
    Keeps s (takeMissed s n d) := by
  simp only [takeMissed]
  split
  · exact putDetector_keeps h rfl
  all_goals
    split
    · exact putDetector_keeps h rfl
    · exact enterFault_keeps _ h rfl

theorem takeFaultCode_keeps {s : State} {n : Fin 192} {d : Detector} (k : FaultKind) (h : s.detector n = some d) :
    Keeps s (takeFaultCode s n d k) := by
  simp only [takeFaultCode]
  split
  next hf => exact putDetector_keeps h (by simp [Detector.counted, hf, DetectorState.impaired])
  all_goals exact enterFault_keeps _ h rfl

theorem promote_keeps (s : State) (n : Fin 192) : Keeps s (promote s n) := by
  simp only [promote]
  split
  next d h => exact (writeDetector_keeps (new := { d with state := .alarm }) h rfl).append ..
  next => exact Keeps.refl s

theorem afterMove_keeps (s : State) (n : Fin 192) (z : Fin 64) (old new : DetectorState) :
    Keeps s (afterMove s n z old new) := by
  simp only [afterMove]
  split
  · exact (Keeps.foldl promote_keeps _ s).trans (deriveFire_keeps ..)
  · exact (Keeps.foldl promote_keeps _ s).trans (zoneAlarm_keeps ..)

theorem track_keeps (s : State) (n : Fin 192) (raw : Nat) : Keeps s (track s n raw) := by
  simp only [track]
  split
  next d h =>
    split
    · exact Keeps.append (putDetector_keeps h (by rfl)) ..
    · exact putDetector_keeps h (by rfl)
  next => exact Keeps.refl s

theorem evaluate_keeps {s : State} {n : Fin 192} {old d : Detector} (fresh : Bool) (raw : Nat)
    (h : s.detector n = some old) (hz : d.zone = old.zone) : Keeps s (evaluate s n old d fresh raw) := by
  unfold evaluate
  have moved : ∀ {t : State} (e : Option (EntryKind × Detail)), Keeps s t →
      Keeps s (match e with | some (k, x) => appendDetector t k n d.zone x | none => t) := fun e ht => by
    cases e with
    | none => exact ht
    | some kx => exact ht.append ..
  refine Keeps.ite ?_ (Keeps.ite (Keeps.trans ?_ (track_keeps ..)) ?_)
  · exact Keeps.trans (Keeps.ite (Keeps.append (writeDetector_keeps h (by exact hz)) ..)
      (writeDetector_keeps h (by exact hz))) (afterMove_keeps ..)
  all_goals exact Keeps.trans (moved _ (writeDetector_keeps h (by exact hz))) (afterMove_keeps ..)

theorem takeValid_keeps {s : State} {n : Fin 192} {d : Detector} (raw : Nat) (h : s.detector n = some d) :
    Keeps s (takeValid s n d raw) := by
  simp only [takeValid]
  split
  · exact evaluate_keeps _ _ h rfl
  · split
    · exact putDetector_keeps h rfl
    · exact (append_keeps ..).trans (evaluate_keeps _ _ ((append_detector ..).trans h) rfl)
  case h_7 => exact Keeps.refl s
  all_goals exact evaluate_keeps _ _ h rfl

theorem takeReading_keeps (s : State) (n : Fin 192) (r : Reading) : Keeps s (takeReading s n r) := by
  simp only [takeReading]
  split
  next => exact Keeps.refl s
  next d h =>
    split
    · exact Keeps.refl s
    · split
      · exact takeMissed_keeps h
      · exact takeFaultCode_keeps _ h
      · exact takeValid_keeps _ h

theorem verifyExpires_keeps {s : State} {n : Fin 192} {d : Detector} (h : s.detector n = some d) :
    Keeps s (verifyExpires s n d) :=
  Keeps.trans (Keeps.append (writeDetector_keeps h (by rfl)) ..) (afterMove_keeps ..)

/-! ### Changes from outside the reading path (R53, R56, R57) -/

theorem disableDetectorNow_keeps {s : State} {n : Fin 192} {d : Detector} (h : s.detector n = some d) :
    Keeps s (disableDetectorNow s n d) :=
  Keeps.trans (Keeps.append (abortVerify_writeDetector_keeps _ h (by rfl)) ..) (deriveFire_keeps ..)

theorem enableDetectorNow_keeps {s : State} {n : Fin 192} {d : Detector} (h : s.detector n = some d) :
    Keeps s (enableDetectorNow s n d) :=
  Keeps.trans (Keeps.append (writeDetector_keeps h (by rfl)) ..) (deriveFire_keeps ..)

theorem restartDetector_keeps (s : State) (n : Fin 192) : Keeps s (restartDetector s n) := by
  simp only [restartDetector]
  split
  next => exact Keeps.refl s
  next d h =>
    split
    · exact putDetector_keeps h rfl
    · exact Keeps.trans (abortVerify_writeDetector_keeps _ h (by rfl)) (deriveFire_keeps ..)

theorem startTestOn_keeps (s : State) (n : Fin 192) : Keeps s (startTestOn s n) := by
  simp only [startTestOn]
  split
  next => exact Keeps.refl s
  next d h =>
    have ha : (abortVerify s n d .test).detector n = some d := (abortVerify_detector ..).trans h
    have put : ∀ new : Detector, new.counted = d.counted →
        Keeps s ((abortVerify s n d .test).putDetector n (some new)) :=
      fun new hc => (abortVerify_keeps ..).trans (putDetector_keeps ha hc)
    split
    case h_1 hs => exact put _ (by simp [Detector.counted, hs, DetectorState.impaired])
    case h_2 hs => exact put _ (by simp [Detector.counted, hs, DetectorState.impaired])
    case h_3 hs => exact put _ (by simp [Detector.counted, hs])
    all_goals exact put _ rfl

theorem startTest_keeps (s : State) (z : Fin 64) : Keeps s (startTest s z) := by
  refine Keeps.trans ?_ (deriveFire_keeps ..)
  split
  · exact ((modZone_keeps id rfl).trans (Keeps.foldl startTestOn_keeps _ _)).append ..
  · exact (((modZone_keeps id rfl).trans (Keeps.foldl startTestOn_keeps _ _)).append ..).trans (trigger_keeps _)

/-! ### The loops (chapter 2) -/

/-- A change of both loops of a pair, or of one loop, that changes no setting of theirs. -/
theorem modUnit_keeps (s : State) (u : ScanUnit) {f : Loop → Loop} (h : ∀ r : Loop, r.inRange → (f r).inRange) :
    Keeps s (modUnit s u f) := Keeps.foldl (fun _ _ => modLoop_keeps (h _)) _ s

theorem putConverter_keeps (s : State) (c : Converter) (h : Holder) : Keeps s (s.putConverter c h) := by
  cases c <;> exact keeps_of_kept {} {}

theorem releaseConverters_keeps (s : State) (u : ScanUnit) : Keeps s (releaseConverters s u) := by
  have free : ∀ (t : State) (c : Converter) (b : Bool), Keeps t (if b then t.putConverter c .free else t) :=
    fun t c b => by
      split
      · exact putConverter_keeps ..
      · exact Keeps.refl t
  exact (free s .a _).trans (free _ .b _)

@[simp] theorem writeMark_detector (s : State) (d : Detector) (e : Bool) (n : Fin 192) :
    (writeMark s d e).detector n = s.detector n := by
  simp only [writeMark]
  split <;> rfl

theorem writeMark_keeps (s : State) (d : Detector) (e : Bool) : Keeps s (writeMark s d e) := by
  simp only [writeMark]
  split
  · exact putSlot_keeps ..
  · exact Keeps.refl s

theorem applyRequest_keeps (s : State) (n : Fin 192) : Keeps s (applyRequest s n) := by
  simp only [applyRequest]
  split
  next => exact Keeps.refl s
  next d h =>
    have marked : ∀ e, (writeMark s d e).detector n = some d := fun e => (writeMark_detector ..).trans h
    split
    · exact Keeps.refl s
    · split
      · exact (writeMark_keeps ..).trans (disableDetectorNow_keeps (marked false))
      · exact putDetector_keeps h rfl
    · split
      · exact putDetector_keeps h rfl
      · exact (writeMark_keeps ..).trans (enableDetectorNow_keeps (marked true))

theorem startScan_keeps (s : State) (u : ScanUnit) : Keeps s (startScan s u) := by
  have h : Keeps s (applyRequests
      ((modUnit s u fun r => { r with due := false, lastStart := some s.seconds }).modLoop u.head fun r =>
        { r with intervalTimer := some r.scanInterval }) u) :=
    Keeps.trans (Keeps.trans (modUnit_keeps s u fun _ => by exact id) (modLoop_keeps (by exact id)))
      (Keeps.foldl applyRequest_keeps _ _)
  simp only [startScan]
  split
  · exact h.trans (modUnit_keeps _ u fun _ => by exact id)
  · exact h.trans (releaseConverters_keeps _ u)

theorem giveConverter_keeps (s : State) (c : Converter) (x : Option ScanUnit) : Keeps s (giveConverter s c x) := by
  simp only [giveConverter]
  split
  · exact (putConverter_keeps ..).trans (startScan_keeps ..)
  · split
    · exact ((putConverter_keeps ..).trans (putConverter_keeps ..)).trans (startScan_keeps ..)
    · exact putConverter_keeps ..
  · exact Keeps.refl s

theorem handOuts_keeps (n : Nat) (s : State) : Keeps s (handOuts n s) := by
  induction n generalizing s with
  | zero => exact Keeps.refl s
  | succ n ih => exact ((giveConverter_keeps s .a _).trans (giveConverter_keeps _ .b _)).trans (ih _)

theorem intervalDue_keeps (s : State) (l : Fin 4) : Keeps s (intervalDue s l) := by
  simp only [intervalDue]
  split
  · exact Keeps.trans (modLoop_keeps (by exact id)) (modUnit_keeps _ _ fun _ => by exact id)
  · exact Keeps.refl s

theorem settleDue_keeps (s : State) (l : Fin 4) : Keeps s (settleDue s l) := by
  simp only [settleDue]
  split
  · exact Keeps.append (modUnit_keeps _ _ fun _ => by exact id) ..
  · exact Keeps.refl s

theorem arbitrate_keeps (s : State) : Keeps s (arbitrate s) :=
  ((Keeps.foldl settleDue_keeps _ s).trans (Keeps.foldl intervalDue_keeps _ _)).trans (handOuts_keeps 8 _)

theorem takeMismatch_keeps (s : State) (n : Fin 192) (a b : Reading) : Keeps s (takeMismatch s n a b) := by
  simp only [takeMismatch]
  split
  next => exact Keeps.refl s
  next d h =>
    split
    · exact Keeps.append (putDetector_keeps h (by rfl)) ..
    · exact putDetector_keeps h (by rfl)

theorem clearLineFault_keeps (s : State) (u : ScanUnit) (r : Reading) : Keeps s (clearLineFault s u r) := by
  simp only [clearLineFault]
  split
  · exact Keeps.append (modUnit_keeps _ _ fun _ => by exact id) ..
  · exact Keeps.refl s

theorem judgeLineFault_keeps (s : State) (u : ScanUnit) (ps : List PollNote) : Keeps s (judgeLineFault s u ps) := by
  simp only [judgeLineFault]
  split
  · exact Keeps.append (modUnit_keeps _ _ fun _ => by exact id) ..
  · exact Keeps.refl s

theorem judgeBreak_keeps (s : State) (u : ScanUnit) (ps : List PollNote) : Keeps s (judgeBreak s u ps) := by
  rcases judgeBreak_cases s u ps with h | ⟨k, -, h⟩ | ⟨-, -, h⟩ <;> rw [h]
  · exact Keeps.refl s
  · exact Keeps.append (modUnit_keeps _ _ fun _ => by exact id) ..
  · exact Keeps.append (modUnit_keeps _ _ fun _ => by exact id) ..

theorem endScan_keeps (s : State) (u : ScanUnit) (ps : List PollNote) : Keeps s (endScan s u ps) := by
  have h : Keeps s (judgeLineFault (modUnit s u fun x => { x with scan := none }) u ps) :=
    Keeps.trans (modUnit_keeps s u fun _ => by exact id) (judgeLineFault_keeps ..)
  cases u with
  | loop l => exact (h.trans (releaseConverters_keeps ..)).trans (arbitrate_keeps _)
  | pair p => exact ((h.trans (judgeBreak_keeps ..)).trans (releaseConverters_keeps ..)).trans (arbitrate_keeps _)

theorem moveOn_keeps (s : State) (u : ScanUnit) (sc : Scan) (note : PollNote) : Keeps s (moveOn s u sc note) := by
  simp only [moveOn]
  split
  · exact modUnit_keeps _ _ fun _ => by exact id
  · exact endScan_keeps ..

theorem completePoll_keeps (s : State) (l : Fin 4) (sc : Scan) (r : Reading) : Keeps s (completePoll s l sc r) := by
  refine Keeps.trans (Keeps.trans ?_ (clearLineFault_keeps ..)) (moveOn_keeps ..)
  split
  · exact takeReading_keeps ..
  · exact Keeps.refl s

theorem completeMirrored_keeps (s : State) (p : Fin 2) (sc : Scan) (a b : Reading) :
    Keeps s (completeMirrored s p sc a b) := by
  refine Keeps.trans (Keeps.trans ?_ (clearLineFault_keeps ..)) (moveOn_keeps ..)
  split
  · exact (takeMismatch_keeps ..).trans (takeReading_keeps ..)
  · exact Keeps.refl s

/-! ### Restarts (R32, R34) -/

theorem abandonScan_keeps (s : State) (l : Fin 4) : Keeps s (abandonScan s l) :=
  (releaseConverters_keeps ..).trans (modLoop_keeps id)

theorem takePending_inRange {r : Loop} (h : r.inRange) : r.takePending.inRange := by
  simp only [Loop.takePending]
  split <;> exact h

/-- A loop that joins its pair keeps its own settings (R28). -/
theorem pairRecord_inRange {s : State} {l : Fin 4} (h : (s.loop l).inRange) : (pairRecord s l).inRange := by
  simp only [pairRecord]
  split <;> exact h

theorem joinPair_keeps (s : State) (l : Fin 4) : Keeps s (joinPair s l) := modLoop_keeps pairRecord_inRange

theorem restartLoops_keeps (s : State) (ls : List (Fin 4)) : Keeps s (restartLoops s ls) := by
  have powered : ∀ (t : State) (l : Fin 4), Keeps t (t.modLoop l fun r => r.takePending.powerDown) := fun t l =>
    modLoop_keeps takePending_inRange
  have logged : ∀ (t : State) (l : Fin 4), Keeps t (appendLoop t .loopRestart l (.loopMode (t.loop l).mode)) :=
    fun t l => append_keeps ..
  refine Keeps.trans (Keeps.trans (Keeps.trans ?_ (Keeps.foldl restartDetector_keeps _ _)) (Keeps.foldl logged ls _))
    (arbitrate_keeps _)
  exact ((Keeps.foldl abandonScan_keeps ls s).trans (Keeps.foldl powered ls _)).trans (Keeps.foldl joinPair_keeps ls _)

theorem powerUp_keeps (s : State) (l : Fin 4) : Keeps s (powerUp s l) := modUnit_keeps _ _ fun _ => by exact id

end Sys2Proof.Machine
end

section
/-! SUPPORT. The clock, the resets of the part and the writes of configuration and settings keep the counts and the
settings, and so do the verdicts of the owners and with them every step (O10, O11). -/

set_option autoImplicit false

namespace Sys2Proof.Machine

/-! ### The clock (4.3) -/

theorem tick_keeps (s : State) : Keeps s (tick s) := by
  have impaired : ∀ x : DetectorState, x.tick.impaired = x.impaired := fun x => by cases x <;> rfl
  refine keeps_of_kept
    { wing := fun w => by simp only [State.wing, tick, countSecond, Tbl.get_map]; exact id
      zone := fun z => by simp only [State.zone, tick, countSecond, Tbl.get_map]; exact id
      loop := fun l => by simp only [State.loop, tick, countSecond, Tbl.get_map]; exact id
      door := fun n => by simp only [State.door, tick, countSecond, Tbl.get_map]; exact id }
    { zone := fun z => by rw [State.zone, show (tick s).zones = s.zones.map Zone.tick from rfl, Tbl.get_map]; rfl
      detector := fun n => ?_ }
  rw [State.detector, show (tick s).detectors = s.detectors.map fun d => d.map Detector.tick from rfl, Tbl.get_map,
    Option.map_map]
  exact congrArg (Option.map · _) (funext fun d => by simp [Detector.counted, Detector.tick, impaired])

/-! ### The resets (R17, R18, R37, R38, R59) -/

theorem countsOk_reset : CountsOk State.reset := by
  have hd : ∀ n, State.reset.detector n = none := fun n => Tbl.get_fill ..
  have hz : ∀ z, State.reset.zone z = Zone.powerOn := fun z => Tbl.get_fill ..
  rw [countsOk_iff]
  intro z
  simp only [CountedAt, detectorsOf_eq, hd, hz, countsFor, List.filter_false, List.length_nil]
  rfl

theorem settingsOk_reset : SettingsOk State.reset := by
  have hw : ∀ w, State.reset.wing w = Wing.powerOn := fun w => Tbl.get_fill ..
  have hz : ∀ z, State.reset.zone z = Zone.powerOn := fun z => Tbl.get_fill ..
  have hl : ∀ l, State.reset.loop l = Loop.powerOn := fun l => Tbl.get_fill ..
  have hd : ∀ n, State.reset.door n = Door.powerOn := fun n => Tbl.get_fill ..
  have hk : ∀ k, State.reset.desk k = Desk.powerOn := fun k => Tbl.get_fill ..
  simp only [SettingsOk, hw, hz, hl, hd, hk]
  decide

theorem takePressedPoints_keeps (s : State) : Keeps s (takePressedPoints s) := Keeps.foldl fireCall_keeps _ s

theorem computeAllDoors_keeps (s : State) : Keeps s (computeAllDoors s) := Keeps.foldl computeDoor_keeps _ s

theorem restAllDoors_keeps (s : State) : Keeps s (restAllDoors s) := Keeps.foldl restDoor_keeps _ s

theorem startDoors_keeps (s : State) : Keeps s (startDoors s) := by
  have started : ∀ t : State, Keeps t { t with doors := t.doors.map Door.started } := fun t =>
    keeps_of_kept { door := fun n => by simp only [State.door, Tbl.get_map]; exact id } {}
  exact ((computeAllDoors_keeps s).trans (restAllDoors_keeps _)).trans (started _)

theorem started_inRange {r : Loop} (h : r.inRange) : r.started.inRange := by
  simp only [Loop.started]
  split <;> exact takePending_inRange h

/-- START and RESTART take the counts anew and write no live setting (R17). -/
theorem startRecords_keeps (rebase : Bool) (s : State) : Keeps s (startRecords rebase s) := by
  refine ⟨fun _ => (countsOk_iff _).mpr fun z => ?_, RangesKept.settingsOk
    { wing := fun w => by simp only [State.wing, startRecords, clearRuntime, Tbl.get_map]; exact id
      zone := fun z => by simp only [State.zone, startRecords, clearRuntime, Tbl.get_mapIdx]; exact id
      loop := fun l => by
        simp only [State.loop, startRecords, clearRuntime, Tbl.get_map]
        exact started_inRange
      door := fun n => by simp only [State.door, startRecords, clearRuntime, Tbl.get_map]; exact id
      desk := fun k => by simp only [State.desk, startRecords, clearRuntime, Tbl.get_map]; exact id }⟩
  have hz := Tbl.get_mapIdx (clearRuntime s).zones (fun z (r : Zone) => recount (startRecords rebase s) z r.started) z
  exact congrArg Zone.counts hz

theorem startPart_keeps (rebase : Bool) (k : EntryKind) (s : State) : Keeps s (startPart rebase k s) :=
  (((startRecords_keeps rebase s).append ..).trans (takePressedPoints_keeps _)).trans (startDoors_keeps _)

/-- The records that ENTER CONFIGURATION gives, before its doors and its entry. -/
def configureRecords (s : State) : State :=
  { clearRuntime s with
    part := .configuring
    loops := s.loops.map Loop.configured
    detectors := s.detectors.map configureDetector
    zones := s.zones.map Zone.configuring
    wings := s.wings.map Wing.cleared
    channels := s.channels.mapIdx fun n c => Channel.restarted n .released c }

theorem configurePart_eq (s : State) :
    configurePart s = appendPart (restAllDoors (computeAllDoors (configureRecords s))) .configEntered .none := rfl

/-- No detector is in service after ENTER CONFIGURATION (R59). -/
theorem configured_impaired (x : DetectorState) : x.configured.impaired = true := by cases x <;> rfl

/-- ENTER CONFIGURATION leaves every detector of a zone impaired, as the zone's counts say (R17, R59). -/
theorem countsFor_configureDetector (z : Fin 64) (x : Option Detector) :
    countsFor z (fun _ => true) (configureDetector x) = countsFor z (fun _ => true) x
      ∧ countsFor z (fun d => d.state.impaired) (configureDetector x) = countsFor z (fun _ => true) x := by
  cases x with
  | none => exact ⟨rfl, rfl⟩
  | some d => exact ⟨rfl, by simp [configureDetector, countsFor, Detector.cleared, configured_impaired]⟩

theorem configureRecords_keeps (s : State) : Keeps s (configureRecords s) := by
  have hz : ∀ z, (configureRecords s).zone z = (s.zone z).configuring := fun z => Tbl.get_map ..
  have hd : ∀ n, (configureRecords s).detector n = configureDetector (s.detector n) := fun n => Tbl.get_map ..
  refine ⟨fun k => (countsOk_iff _).mpr fun z => ?_, RangesKept.settingsOk
    { wing := fun w => by simp only [State.wing, configureRecords, Tbl.get_map]; exact id
      zone := fun z => by rw [hz]; exact id
      loop := fun l => by simp only [State.loop, configureRecords, Tbl.get_map]; exact takePending_inRange (r := _)
      door := fun n => by simp only [State.door, configureRecords, clearRuntime, Tbl.get_map]; exact id
      desk := fun k => by simp only [State.desk, configureRecords, clearRuntime, Tbl.get_map]; exact id }⟩
  obtain ⟨hc, -⟩ := k z
  simp only [CountedAt, detectorsOf_eq, hz, hd, (countsFor_configureDetector z _).1,
    (countsFor_configureDetector z _).2, Zone.counts, Zone.configuring, Zone.cleared, hc]

theorem configurePart_keeps (s : State) : Keeps s (configurePart s) := by
  rw [configurePart_eq]
  exact (((configureRecords_keeps s).trans (computeAllDoors_keeps _)).trans (restAllDoors_keeps _)).append ..

/-! ### Writes of the detector table (R40) -/

/-- A place of the detector table is written and the zone it named is counted anew: every zone that the new record does
not name has exact counts. -/
theorem countedAt_recountOld {s : State} (h : CountsOk s) (n : Fin 192) {x : Option Detector} {y : Fin 64}
    (hx : ∀ d, x = some d → d.zone ≠ y) : CountedAt (recountOld (s.detector n) (s.putDetector n x)) y := by
  have hy := (countsOk_iff s).mp h y
  cases ho : s.detector n with
  | none => exact hy.putDetector (fun d hd => by rw [ho] at hd; cases hd) hx
  | some d =>
    by_cases e : d.zone = y
    · subst e; exact countedAt_recountZone_self _ _
    · exact (hy.putDetector (fun c hc => by rw [ho] at hc; cases hc; exact e) hx).recountZone _

theorem recountZone_ranges {s t : State} (h : RangesKept s t) (z : Fin 64) : RangesKept s (recountZone t z) where
  wing := h.wing
  zone y := by
    rw [recountZone, State.zone_modZone]
    split <;> exact h.zone y
  loop := h.loop
  door := h.door
  desk := h.desk
  routing := h.routing

theorem recountOld_ranges {s t : State} (h : RangesKept s t) (x : Option Detector) :
    RangesKept s (recountOld x t) := by
  cases x with
  | none => exact h
  | some d => exact recountZone_ranges h d.zone

theorem removeDetector_keeps (s : State) (n : Fin 192) : Keeps s (removeDetector s n) :=
  ⟨fun h => (countsOk_iff _).mpr fun _ => countedAt_recountOld h n fun _ hd => (by cases hd),
    (recountOld_ranges (t := s.putDetector n none) {} _).settingsOk⟩

theorem placeDetector_keeps (s : State) (n : Fin 192) (l : Fin 4) (a : Nat) (z : Fin 64) (c : Fin 8) :
    Keeps s (placeDetector s n l a z c) := by
  have key : ∀ new : Detector, new.zone = z →
      Keeps s (recountZone (recountOld (s.detector n) (s.putDetector n (some new))) z) := fun new hz => by
    refine ⟨fun h => (countsOk_iff _).mpr fun y => ?_,
      (recountZone_ranges (recountOld_ranges (t := s.putDetector n (some new)) {} _) z).settingsOk⟩
    by_cases e : y = z
    · subst e; exact countedAt_recountZone_self _ _
    · exact (countedAt_recountOld h n fun d hd => by cases hd; rw [hz]; exact fun k => e k.symm).recountZone z
  exact key _ (by cases s.detector n <;> rfl)

/-! ### Writes of a live setting -/

theorem clamp_bounds {lo hi : Nat} (h : lo ≤ hi) (v : Nat) : lo ≤ clamp lo hi v ∧ clamp lo hi v ≤ hi := by
  simp only [clamp]; omega

/-- The fire station stays in the sets of FIRE and ROUTE (R161). -/
theorem Routing.write_holdsFire {r : Routing} (h : r.holdsFire) (g : Group) (x : StationSet) (byDesk : Bool) :
    (r.write g (routingApplied g x) byDesk).holdsFire := by
  obtain ⟨hf, hr⟩ := h
  cases g <;> simp [Routing.holdsFire, Routing.write, routingApplied, hf, hr]

theorem writeRouting_keeps (s : State) (g : Group) (x : StationSet) (byDesk : Bool) :
    Keeps s (writeRouting s g x byDesk) :=
  Keeps.ite (Keeps.refl s)
    (Keeps.append (keeps_of_kept { routing := fun h => Routing.write_holdsFire h g x byDesk } {}) ..)

/-- The applied value of T_spread is 0 or lies in its range (R5). -/
theorem spreadApplied_range (v : Nat) : spreadApplied v = 0 ∨ 60 ≤ spreadApplied v ∧ spreadApplied v ≤ 900 := by
  simp only [spreadApplied]
  split
  · exact .inl rfl
  · exact .inr (clamp_bounds (by decide) v)

/-- The applied value of a vacancy period is a step (R5). -/
theorem vacancyApplied_mem (v : Nat) : vacancyApplied v ∈ vacancySteps := by
  simp only [vacancyApplied]
  cases h : vacancySteps.find? fun x => decide (v ≤ x) with
  | none => decide
  | some x => exact List.mem_of_find?_eq_some h

end Sys2Proof.Machine
end

section
/-! SUPPORT. The owners' verdicts on the commands keep the counts and the settings (R169). -/

set_option autoImplicit false

namespace Sys2Proof.Machine

/-- A verdict keeps the counts and the settings: where the command is taken, the state its owner leaves does. -/
def VerdictKeeps (s : State) : Verdict → Prop
  | .refused _ _ => True
  | .taken t _ _ => Keeps s t

theorem refused_keeps {s : State} {code : ReplyCode} {data : ReplyData} : VerdictKeeps s (.refused code data) := trivial

theorem done_keeps {s t : State} (h : Keeps s t) : VerdictKeeps s (done t) := h

theorem doneApplied_keeps {s t : State} {given applied : List Nat} (h : Keeps s t) :
    VerdictKeeps s (doneApplied t given applied) := by
  simp only [doneApplied]
  split <;> exact h

theorem need_keeps {s : State} {ok : Bool} {code : ReplyCode} {k : Verdict} (h : VerdictKeeps s k) :
    VerdictKeeps s (need ok code k) := by
  cases ok
  · trivial
  · exact h

theorem ite_keeps {s : State} {c : Prop} [Decidable c] {v w : Verdict} (hv : VerdictKeeps s v)
    (hw : VerdictKeeps s w) : VerdictKeeps s (if c then v else w) := by
  split
  · exact hv
  · exact hw

theorem onObject_keeps {s : State} {n size : Nat} {k : Fin size → Verdict} (h : ∀ i, VerdictKeeps s (k i)) :
    VerdictKeeps s (onObject n size k) := by
  simp only [onObject]
  split
  · exact h _
  · trivial

theorem onObjects_keeps {s : State} {size : Nat} (ns : List Nat) {k : List (Fin size) → Verdict}
    (h : ∀ xs, VerdictKeeps s (k xs)) : VerdictKeeps s (onObjects ns size k) := by
  induction ns generalizing k with
  | nil => exact h []
  | cons n rest ih => exact onObject_keeps fun x => ih fun xs => h (x :: xs)

theorem onOptional_keeps {s : State} {size : Nat} (n : Option Nat) {k : Option (Fin size) → Verdict}
    (h : ∀ x, VerdictKeeps s (k x)) : VerdictKeeps s (onOptional n size k) := by
  cases n with
  | none => exact h none
  | some n => exact onObject_keeps fun x => h (some x)

theorem onValue_keeps {s : State} {α : Type} {x : Option α} {k : α → Verdict} (h : ∀ a, VerdictKeeps s (k a)) :
    VerdictKeeps s (onValue x k) := by
  cases x with
  | none => trivial
  | some a => exact h a

theorem onDetector_keeps {s : State} {n : Nat} {k : Fin 192 → Detector → Verdict}
    (h : ∀ i d, s.detector i = some d → VerdictKeeps s (k i d)) : VerdictKeeps s (onDetector s n k) := by
  refine onObject_keeps fun i => ?_
  cases hd : s.detector i with
  | none => trivial
  | some d => exact h i d hd

theorem onRoutes_keeps {s : State} (rs : List RouteFields) {k : List Route → Verdict}
    (h : ∀ xs, VerdictKeeps s (k xs)) : VerdictKeeps s (onRoutes rs k) := by
  induction rs generalizing k with
  | nil => exact h []
  | cons r rest ih => exact onObject_keeps fun a => onObject_keeps fun e => ih fun xs => h _

theorem onSideB_keeps {s : State} (b : SideFields) {k : Option (Option (Fin 64)) → Verdict}
    (h : ∀ x, VerdictKeeps s (k x)) : VerdictKeeps s (onSideB b k) := by
  cases b with
  | zone z => exact onObject_keeps fun z => h (some (some z))
  | outside => exact h _
  | other => exact h _

/-! ### Commands of the fire station -/

theorem doAcknowledgeWing_keeps (w : Nat) (st : Station) (s : State) : VerdictKeeps s (doAcknowledgeWing w st s) := by
  refine need_keeps (onObject_keeps fun w => need_keeps ?_)
  split
  · exact done_keeps ((changeStage_keeps ..).trans (sound_keeps ..))
  all_goals exact refused_keeps

theorem doEvacuateWing_keeps (w : Nat) (st : Station) (s : State) : VerdictKeeps s (doEvacuateWing w st s) :=
  need_keeps (onObject_keeps fun _ => need_keeps (ite_keeps (done_keeps (Keeps.refl s))
    (done_keeps (enterEvacuate_keeps ..).round)))

theorem doSilenceWing_keeps (w : Nat) (r : Revision) (st : Station) (s : State) :
    VerdictKeeps s (doSilenceWing w r st s) :=
  need_keeps (onObject_keeps fun _ => need_keeps (need_keeps (need_keeps (ite_keeps (done_keeps (Keeps.refl s))
    (done_keeps (Keeps.append (Keeps.trans (modWing_keeps (by exact id)) (sound_keeps ..)) ..))))))

theorem afterZoneReset_keeps (s : State) (w : Fin 4) : Keeps s (afterZoneReset s w) := by
  simp only [afterZoneReset]
  split
  · exact Keeps.ite ((changeStage_keeps ..).trans (returnEffects_keeps ..)) (Keeps.refl s)
  · exact Keeps.ite ((changeStage_keeps ..).trans (returnEffects_keeps ..)) (Keeps.refl s)
  all_goals exact Keeps.refl s

theorem doResetZone_keeps (z : Nat) (r : Revision) (st : Station) (s : State) :
    VerdictKeeps s (doResetZone z r st s) :=
  need_keeps (onObject_keeps fun _ => need_keeps (need_keeps (need_keeps (need_keeps (need_keeps
    (done_keeps ((resetOneZone_keeps ..).trans (afterZoneReset_keeps ..))))))))

theorem resetWingNow_keeps (s : State) (w : Fin 4) : Keeps s (resetWingNow s w) :=
  Keeps.trans (Keeps.append (Keeps.trans (Keeps.foldl resetOneZone_keeps _ s) (modWing_keeps (by exact id))) ..)
    (returnEffects_keeps ..)

theorem doResetWing_keeps (w : Nat) (r : Revision) (st : Station) (s : State) :
    VerdictKeeps s (doResetWing w r st s) :=
  need_keeps (onObject_keeps fun w => need_keeps (need_keeps (need_keeps (need_keeps
    (done_keeps (resetWingNow_keeps s w))))))

theorem doManualAlarmZone_keeps (z : Nat) (st : Station) (s : State) : VerdictKeeps s (doManualAlarmZone z st s) :=
  need_keeps (onObject_keeps fun _ => need_keeps (need_keeps (done_keeps
    (((append_keeps ..).trans (zoneAlarm_keeps ..)).trans (offerAfterEvacuation_keeps ..)))))

theorem markExit_keeps (s : State) (e : Fin 16) (b : Bool) : Keeps s (markExit s e b) :=
  Keeps.ite (Keeps.refl s) (((modExit_keeps ..).trans (trigger_keeps _)).append ..)

theorem doMarkExitBlocked_keeps (e : Nat) (st : Station) (s : State) : VerdictKeeps s (doMarkExitBlocked e st s) :=
  need_keeps (onObject_keeps fun e => need_keeps (need_keeps (done_keeps (markExit_keeps s e true))))

theorem doMarkExitOpen_keeps (e : Nat) (st : Station) (s : State) : VerdictKeeps s (doMarkExitOpen e st s) :=
  need_keeps (onObject_keeps fun e => need_keeps (need_keeps (done_keeps (markExit_keeps s e false))))

theorem doDisableDetector_keeps (n : Nat) (st : Station) (s : State) : VerdictKeeps s (doDisableDetector n st s) :=
  need_keeps (onDetector_keeps fun _ _ h => need_keeps (done_keeps (putDetector_keeps h (by rfl))))

theorem doEnableDetector_keeps (n : Nat) (st : Station) (s : State) : VerdictKeeps s (doEnableDetector n st s) :=
  need_keeps (onDetector_keeps fun _ _ h => need_keeps (done_keeps (putDetector_keeps h (by rfl))))

theorem doRestartLoop_keeps (l : Nat) (st : Station) (s : State) : VerdictKeeps s (doRestartLoop l st s) :=
  need_keeps (onObject_keeps fun _ => need_keeps (need_keeps (need_keeps (done_keeps (restartLoops_keeps ..)))))

theorem doStart_keeps (st : Station) (s : State) : VerdictKeeps s (doStart st s) := by
  refine need_keeps (need_keeps ?_)
  split
  · exact refused_keeps
  · exact done_keeps (startPart_keeps ..)

theorem doRestart_keeps (st : Station) (s : State) : VerdictKeeps s (doRestart st s) :=
  need_keeps (need_keeps (need_keeps (need_keeps (done_keeps (startPart_keeps ..)))))

theorem doEnterConfiguration_keeps (st : Station) (s : State) : VerdictKeeps s (doEnterConfiguration st s) :=
  need_keeps (need_keeps (need_keeps (done_keeps (configurePart_keeps s))))

/-! ### Commands under GUARD authority -/

theorem doSetWingMode_keeps (w : Nat) (m : Option Mode) (st : Station) (s : State) :
    VerdictKeeps s (doSetWingMode w m st s) :=
  need_keeps (onObject_keeps fun _ => need_keeps (onValue_keeps fun _ => ite_keeps (done_keeps (Keeps.refl s))
    (done_keeps (Keeps.append (modWing_keeps (by exact id)) ..))))

theorem doArmZone_keeps (z : Nat) (st : Station) (s : State) : VerdictKeeps s (doArmZone z st s) :=
  need_keeps (onObject_keeps fun _ => need_keeps (need_keeps (need_keeps (need_keeps (need_keeps (need_keeps
    (need_keeps (need_keeps (done_keeps ((setSecurity_keeps ..).append ..))))))))))

theorem doDisarmZone_keeps (z : Nat) (st : Station) (s : State) : VerdictKeeps s (doDisarmZone z st s) := by
  refine need_keeps (onObject_keeps fun z => need_keeps (need_keeps ?_))
  have disarmed : Keeps s (disarm s z) := (setSecurity_keeps ..).append ..
  split
  case h_4 => exact done_keeps (Keeps.refl s)
  case h_5 => exact refused_keeps
  all_goals exact done_keeps disarmed

theorem doClearBreach_keeps (z : Nat) (r : Revision) (st : Station) (s : State) :
    VerdictKeeps s (doClearBreach z r st s) :=
  need_keeps (onObject_keeps fun _ => need_keeps (need_keeps (need_keeps (need_keeps
    (done_keeps ((setSecurity_keeps ..).append ..))))))

theorem doPassDoor_keeps (n : Nat) (st : Station) (s : State) : VerdictKeeps s (doPassDoor n st s) :=
  need_keeps (onObject_keeps fun _ => need_keeps (need_keeps (need_keeps (done_keeps
    (Keeps.trans (modDoor_keeps (by exact id)) (appendDoor_keeps ..))))))

theorem doLockdownWing_keeps (w : Nat) (st : Station) (s : State) : VerdictKeeps s (doLockdownWing w st s) :=
  need_keeps (onObject_keeps fun _ => need_keeps (need_keeps (ite_keeps (done_keeps (Keeps.refl s))
    (done_keeps (Keeps.append (modWing_keeps (by exact id)) ..)))))

theorem doEndLockdown_keeps (w : Nat) (st : Station) (s : State) : VerdictKeeps s (doEndLockdown w st s) :=
  need_keeps (onObject_keeps fun _ => need_keeps (ite_keeps
    (done_keeps (Keeps.append (modWing_keeps (by exact id)) ..)) (done_keeps (Keeps.refl s))))

theorem doReportPatrol_keeps (z : Nat) (st : Station) (s : State) : VerdictKeeps s (doReportPatrol z st s) :=
  need_keeps (onObject_keeps fun _ => need_keeps (need_keeps (done_keeps
    ((append_keeps ..).trans (takeActivity_keeps ..)))))

/-! ### Commands under SERVICE authority, and of the desks -/

theorem doTestZoneOn_keeps (z : Nat) (st : Station) (s : State) : VerdictKeeps s (doTestZoneOn z st s) :=
  need_keeps (onObject_keeps fun z => need_keeps (need_keeps (need_keeps (done_keeps (startTest_keeps s z)))))

theorem doTestZoneOff_keeps (z : Nat) (st : Station) (s : State) : VerdictKeeps s (doTestZoneOff z st s) :=
  need_keeps (onObject_keeps fun z => need_keeps (need_keeps (need_keeps (done_keeps (endTest_keeps .off s z)))))

/-- A maintenance command of the output stage (R151 to R153). -/
theorem onRange_maintain_keeps (s : State) (st : Station) (first count : Nat) (k : EntryKind)
    (stands : Channel → Bool) (f : Channel → Channel) :
    VerdictKeeps s (onRange s st first count (done (maintain s first count k stands f))) :=
  need_keeps (need_keeps (need_keeps (need_keeps (need_keeps (done_keeps (maintain_keeps ..))))))

theorem doAcceptCall_keeps (c k : Nat) (st : Station) (s : State) : VerdictKeeps s (doAcceptCall c k st s) := by
  refine need_keeps (onObject_keeps fun c => need_keeps (onObject_keeps fun k => need_keeps (need_keeps ?_)))
  cases s.call c with
  | none => exact refused_keeps
  | some h =>
    dsimp only
    cases h.phase with
    | raised => exact refused_keeps
    | offered d n => exact ite_keeps (done_keeps (acceptOffer_keeps ..)) refused_keeps
    | accepted d => exact ite_keeps (done_keeps (Keeps.refl s)) refused_keeps

theorem doClearCall_keeps (c : Nat) (st : Station) (s : State) : VerdictKeeps s (doClearCall c st s) := by
  refine need_keeps (onObject_keeps fun c => need_keeps (need_keeps (need_keeps ?_)))
  cases s.call c with
  | none => exact done_keeps (Keeps.refl s)
  | some h => exact done_keeps (clearActive_keeps ..)

theorem writeCapacity_keeps (s : State) (k : Fin 8) (v : Nat) : Keeps s (writeCapacity s k (clamp 1 4 v)) := by
  have written : Keeps s (appendPart (s.modDesk k fun d => { d with capacity := clamp 1 4 v }) .settingChanged
      (.setting .deskCapacity)) := by
    have hv := clamp_bounds (lo := 1) (hi := 4) (by decide) v
    refine Keeps.append (modDesk_keeps fun h => ?_) ..
    obtain ⟨-, -, ht⟩ := h
    exact ⟨hv.1, hv.2, ht⟩
  exact Keeps.ite (Keeps.refl s) (Keeps.ite written.round written)

theorem doSetDeskCapacity_keeps (k v : Nat) (st : Station) (s : State) : VerdictKeeps s (doSetDeskCapacity k v st s) :=
  need_keeps (onObject_keeps fun k => need_keeps (need_keeps (doneApplied_keeps (writeCapacity_keeps s k v))))

/-! ### WRITE ENTRY -/

theorem doWriteEntryZone_keeps (z : Nat) (f : ZoneFields) (st : Station) (s : State) :
    VerdictKeeps s (doWriteEntryZone z f st s) := by
  refine need_keeps (onObject_keeps fun z => ?_)
  cases f with
  | unconfigured => exact need_keeps (done_keeps (modZone_keeps id rfl))
  | configured w => exact onObject_keeps fun w => need_keeps (done_keeps (modZone_keeps id rfl))

theorem doWriteEntryWing_keeps (w : Nat) (f : WingFields) (st : Station) (s : State) :
    VerdictKeeps s (doWriteEntryWing w f st s) :=
  need_keeps (onObject_keeps fun _ => onObjects_keeps _ fun _ => onOptional_keeps _ fun _ =>
    need_keeps (onValue_keeps fun _ => need_keeps (done_keeps (modWing_keeps (by exact id)))))

theorem doWriteEntryClass_keeps (c : Nat) (f : ClassFields) (st : Station) (s : State) :
    VerdictKeeps s (doWriteEntryClass c f st s) :=
  need_keeps (onObject_keeps fun _ => need_keeps (onValue_keeps fun _ => onValue_keeps fun _ =>
    doneApplied_keeps (keeps_of_kept {} {})))

theorem doWriteEntryDetector_keeps (n : Nat) (f : DetectorFields) (st : Station) (s : State) :
    VerdictKeeps s (doWriteEntryDetector n f st s) := by
  refine need_keeps (onObject_keeps fun n => ?_)
  cases f with
  | removed => exact need_keeps (done_keeps (removeDetector_keeps s n))
  | placed l a z c =>
    exact onObject_keeps fun l => onObject_keeps fun z => onObject_keeps fun c => need_keeps (need_keeps
      (done_keeps (placeDetector_keeps s n l a z c)))

/-- A write of the mode of both loops of a pair changes no setting of theirs. -/
theorem writePairMode_keeps (s : State) (l : Fin 4) {f : Loop → Loop} (h : ∀ r : Loop, r.inRange → (f r).inRange) :
    Keeps s (writePairMode s l f) := (modLoop_keeps (h _)).trans (modLoop_keeps (h _))

theorem configureMode_keeps (s : State) (l : Fin 4) (m : LoopMode) : Keeps s (configureMode s l m) := by
  simp only [configureMode]
  split
  · exact writePairMode_keeps _ _ fun _ => by exact id
  · exact writePairMode_keeps _ _ fun _ => by exact id
  · exact Keeps.refl s

theorem doWriteEntryLoop_keeps (l : Nat) (u : Bool) (m : Option LoopMode) (st : Station) (s : State) :
    VerdictKeeps s (doWriteEntryLoop l u m st s) :=
  need_keeps (onObject_keeps fun _ => need_keeps (onValue_keeps fun _ => need_keeps (ite_keeps
    (done_keeps (modLoop_keeps (by exact id))) (done_keeps (configureMode_keeps ..)))))

theorem doWriteEntryScanList_keeps (l k : Nat) (f : SlotFields) (st : Station) (s : State) :
    VerdictKeeps s (doWriteEntryScanList l k f st s) := by
  refine need_keeps (onObject_keeps fun l => onObject_keeps fun k => need_keeps ?_)
  cases f with
  | endMark => exact done_keeps (putSlot_keeps ..)
  | address a e => exact need_keeps (done_keeps (putSlot_keeps ..))

theorem doWriteEntryDoor_keeps (n : Nat) (f : DoorFields) (st : Station) (s : State) :
    VerdictKeeps s (doWriteEntryDoor n f st s) := by
  refine need_keeps (onObject_keeps fun n => ?_)
  cases f with
  | unconfigured => exact need_keeps (done_keeps (modDoor_keeps id))
  | configured a b kind fail free inner =>
    exact onObject_keeps fun a => onSideB_keeps _ fun b => need_keeps (onValue_keeps fun b => onValue_keeps fun kind =>
      onValue_keeps fun fail => need_keeps (onValue_keeps fun inner =>
        done_keeps (Keeps.trans (modDoor_keeps (by exact id)) (restDoor_keeps ..))))

theorem doWriteEntryCallPoint_keeps (c : Nat) (f : PointFields) (st : Station) (s : State) :
    VerdictKeeps s (doWriteEntryCallPoint c f st s) := by
  refine need_keeps (onObject_keeps fun c => ?_)
  cases f with
  | unconfigured => exact need_keeps (done_keeps (modPoint_keeps ..))
  | configured z kind desks =>
    exact onObject_keeps fun z => onObjects_keeps _ fun desks => need_keeps (onValue_keeps fun kind => need_keeps
      (done_keeps (modPoint_keeps ..)))

theorem doWriteEntryDesk_keeps (k : Nat) (f : DeskFields) (st : Station) (s : State) :
    VerdictKeeps s (doWriteEntryDesk k f st s) := by
  have hc := clamp_bounds (lo := 1) (hi := 4) (by decide) f.capacity
  have ht := clamp_bounds (lo := 10) (hi := 120) (by decide) f.tOffer
  exact need_keeps (onObject_keeps fun k => need_keeps (onValue_keeps fun _ => doneApplied_keeps
    (modDesk_keeps fun _ => ⟨hc.1, hc.2, ht.1, ht.2⟩)))

theorem doWriteEntryExit_keeps (e : Nat) (f : ExitFields) (st : Station) (s : State) :
    VerdictKeeps s (doWriteEntryExit e f st s) := by
  refine need_keeps (onObject_keeps fun e => ?_)
  cases f with
  | unconfigured => exact need_keeps (done_keeps (modExit_keeps ..))
  | configured z d => exact onObject_keeps fun z => onOptional_keeps _ fun d => need_keeps (done_keeps (modExit_keeps ..))

theorem doWriteEntryDescriptor_keeps (i : Nat) (f : DescriptorFields) (st : Station) (s : State) :
    VerdictKeeps s (doWriteEntryDescriptor i f st s) :=
  need_keeps (onObject_keeps fun _ => onObject_keeps fun _ => onOptional_keeps _ fun _ => need_keeps
    (onValue_keeps fun _ => done_keeps (keeps_of_kept {} {})))

theorem doWriteEntryRouteList_keeps (z : Nat) (rs : List RouteFields) (st : Station) (s : State) :
    VerdictKeeps s (doWriteEntryRouteList z rs st s) :=
  need_keeps (onObject_keeps fun _ => onRoutes_keeps _ fun _ => need_keeps (need_keeps
    (done_keeps (keeps_of_kept {} {}))))

theorem doWriteEntrySign_keeps (g z : Nat) (st : Station) (s : State) : VerdictKeeps s (doWriteEntrySign g z st s) :=
  need_keeps (onObject_keeps fun _ => onObject_keeps fun _ => need_keeps (done_keeps (keeps_of_kept {} {})))

theorem doWriteEntryChannel_keeps (n : Nat) (p : Option Polarity) (st : Station) (s : State) :
    VerdictKeeps s (doWriteEntryChannel n p st s) :=
  need_keeps (onObject_keeps fun _ => need_keeps (onValue_keeps fun _ => need_keeps (done_keeps (modChannel_keeps ..))))

/-! ### WRITE SETTING -/

theorem settingEntry_keeps {s t : State} (h : Keeps s t) (changed : Bool) (x : Subject) (w : Option (Fin 4))
    (n : SettingName) : Keeps s (settingEntry t changed x w n) := Keeps.ite (h.append ..) h

/-- A numeric setting of a wing whose write leaves the wing's settings in their ranges (R5). -/
theorem writeWingSetting_keeps {s : State} {st : Station} {ok : Bool} {w : Fin 4} {x : SettingName} {get : Wing → Nat}
    {put : Wing → Wing} {given applied : Nat} (h : (s.wing w).inRange → (put (s.wing w)).inRange) :
    VerdictKeeps s (underSetting s st ok (writeWingSetting s w x get put given applied)) :=
  need_keeps (doneApplied_keeps (settingEntry_keeps (modWing_keeps h) ..))

theorem doWriteSettingZoneWing_keeps (i : ZoneWingSetting) (st : Station) (s : State) :
    VerdictKeeps s (doWriteSettingZoneWing i st s) := by
  cases i <;> simp only [doWriteSettingZoneWing]
  case tAck w v =>
    have hv := clamp_bounds (lo := 5) (hi := 30) (by decide) v
    refine onObject_keeps fun w => writeWingSetting_keeps ?_
    exact fun ⟨_, _, rest⟩ => ⟨hv.1, hv.2, rest⟩
  case tInv w v =>
    have hv := clamp_bounds (lo := 30) (hi := 300) (by decide) v
    refine onObject_keeps fun w => writeWingSetting_keeps ?_
    exact fun ⟨ha, hb, _, _, rest⟩ => ⟨ha, hb, hv.1, hv.2, rest⟩
  case tSpread w v =>
    refine onObject_keeps fun w => writeWingSetting_keeps ?_
    exact fun ⟨ha, hb, hc, hd, _, rest⟩ => ⟨ha, hb, hc, hd, spreadApplied_range v, rest⟩
  case exitDelay w v =>
    have hv := clamp_bounds (lo := 10) (hi := 120) (by decide) v
    refine onObject_keeps fun w => writeWingSetting_keeps ?_
    exact fun ⟨ha, hb, hc, hd, he, _⟩ => ⟨ha, hb, hc, hd, he, hv.1, hv.2⟩
  case vacancyPeriod z v =>
    refine onObject_keeps fun z => need_keeps (need_keeps (doneApplied_keeps (settingEntry_keeps
      (modZone_keeps ?_ ?_) ..)))
    · exact fun _ => vacancyApplied_mem v
    · rfl
  case activityClass z source value =>
    refine onObject_keeps fun z => need_keeps (need_keeps (onValue_keeps fun x => done_keeps (settingEntry_keeps
      (modZone_keeps ?_ ?_) ..)))
    · exact id
    · rfl

theorem writeLoopMode_keeps (s : State) (l : Fin 4) (m : LoopMode) : VerdictKeeps s (writeLoopMode s l m) :=
  need_keeps (ite_keeps
    (need_keeps (done_keeps (settingEntry_keeps (writePairMode_keeps _ _ fun _ => by exact id) ..)))
    (done_keeps (settingEntry_keeps (configureMode_keeps ..) ..)))

theorem doWriteSettingLoop_keeps (l : Nat) (i : LoopSetting) (st : Station) (s : State) :
    VerdictKeeps s (doWriteSettingLoop l i st s) := by
  refine onObject_keeps fun l => need_keeps (need_keeps ?_)
  cases i with
  | scanInterval v =>
    have hv := clamp_bounds (lo := 1) (hi := 10) (by decide) v
    exact doneApplied_keeps (settingEntry_keeps (modLoop_keeps fun ⟨_, _, rest⟩ => ⟨hv.1, hv.2, rest⟩) ..)
  | settlePeriod v =>
    have hv := clamp_bounds (lo := 5) (hi := 60) (by decide) v
    exact doneApplied_keeps (settingEntry_keeps (modLoop_keeps fun ⟨ha, hb, _, _⟩ => ⟨ha, hb, hv.1, hv.2⟩) ..)
  | mode m => exact onValue_keeps fun m => writeLoopMode_keeps s l m

theorem doWriteSettingDoor_keeps (n : Nat) (i : DoorSetting) (st : Station) (s : State) :
    VerdictKeeps s (doWriteSettingDoor n i st s) := by
  refine onObject_keeps fun n => need_keeps (need_keeps ?_)
  cases i with
  | tPass v =>
    have hv := clamp_bounds (lo := 3) (hi := 30) (by decide) v
    exact doneApplied_keeps (settingEntry_keeps (modDoor_keeps fun ⟨_, _, rest⟩ => ⟨hv.1, hv.2, rest⟩) ..)
  | tHeld v =>
    have hv := clamp_bounds (lo := 10) (hi := 600) (by decide) v
    exact doneApplied_keeps (settingEntry_keeps (modDoor_keeps fun ⟨ha, hb, _, _⟩ => ⟨ha, hb, hv.1, hv.2⟩) ..)

theorem writeDeskList_keeps (s : State) (c : Fin 64) (ks : List (Fin 8)) : Keeps s (writeDeskList s c ks) := by
  have written : Keeps s (append
      (s.modPoint c fun p => { p with deskList := ks, state := p.state.relisted ks.length }) .settingChanged (.point c)
      (some (s.wingOf (s.point c).zone)) (.setting .deskList)) := (modPoint_keeps ..).append ..
  exact Keeps.ite (Keeps.refl s) (Keeps.ite written.round written)

theorem doWriteSettingDeskList_keeps (c : Nat) (ks : List Nat) (st : Station) (s : State) :
    VerdictKeeps s (doWriteSettingDeskList c ks st s) :=
  onObject_keeps fun _ => need_keeps (onObjects_keeps _ fun _ => need_keeps (need_keeps
    (done_keeps (writeDeskList_keeps ..))))

theorem doWriteSettingTOffer_keeps (k v : Nat) (st : Station) (s : State) :
    VerdictKeeps s (doWriteSettingTOffer k v st s) := by
  have hv := clamp_bounds (lo := 10) (hi := 120) (by decide) v
  exact onObject_keeps fun k => need_keeps (doneApplied_keeps (settingEntry_keeps
    (modDesk_keeps fun ⟨ha, hb, _, _⟩ => ⟨ha, hb, hv.1, hv.2⟩) ..))

theorem doWriteSettingRouting_keeps (g : Option Group) (x : Option StationSet) (b : Bool) (st : Station) (s : State) :
    VerdictKeeps s (doWriteSettingRouting g x b st s) :=
  need_keeps (onValue_keeps fun g => need_keeps (onValue_keeps fun x => ite_keeps
    (done_keeps (writeRouting_keeps s g x b)) (done_keeps (writeRouting_keeps s g x b))))

theorem doWriteSettingAuthority_keeps (x : Option Station) (w : Nat) (c : Option Category) (b : Bool) (st : Station)
    (s : State) : VerdictKeeps s (doWriteSettingAuthority x w c b st s) :=
  onObject_keeps fun _ => need_keeps (onValue_keeps fun _ => onValue_keeps fun _ =>
    done_keeps (Keeps.ite (Keeps.refl s) (Keeps.append (keeps_of_kept {} {}) ..)))

end Sys2Proof.Machine
end

section
/-! The counts and the settings through every step (O10, O11): what each event of the opcode table leaves keeps them. -/

set_option autoImplicit false

namespace Sys2Proof.Machine

/-- An outcome keeps the counts and the settings: its next state, where it has one, does. -/
def OutcomeKeeps (s : State) (o : Host.Outcome State Fault Refusal) : Prop := ∀ t, o = .next t → Keeps s t

theorem next_keeps {s t : State} (h : Keeps s t) : OutcomeKeeps s (.next t) := fun _ e => by cases e; exact h

/-! ### Taking a command, answering a query -/

theorem applyVerdict_keeps {x : TakenRequest} {v : Verdict} (h : VerdictKeeps x.state v) :
    Keeps x.state (applyVerdict x v) := by
  cases v with
  | refused code data => exact modPort_keeps ..
  | taken t code data => exact Keeps.trans h (modPort_keeps ..)

theorem nextCommand_keeps {s : State} {x : TakenRequest} (h : nextCommand s = some x) : Keeps s x.state :=
  keeps_of_onlyIn (nextCommand_onlyIn h) (by decide)

theorem nextQuery_keeps {s : State} {x : TakenRequest} (h : nextQuery s = some x) : Keeps s x.state :=
  keeps_of_onlyIn (nextQuery_onlyIn h) (by decide)

/-- A body that spells no row is refused (R169). -/
theorem judgeUnspelled_keeps (s : State) (st : Station) (x : Spelled) : VerdictKeeps s (judgeUnspelled s st x) := by
  cases x with
  | unknown => exact refused_keeps
  | badSwitch z => exact need_keeps (onObject_keeps fun z => need_keeps (need_keeps refused_keeps))
  | badTable => exact need_keeps (need_keeps refused_keeps)
  | row i => exact refused_keeps

/-- The event in which a command is taken and answered. -/
theorem endOfCommand_keeps {s : State} {x : TakenRequest} (h : nextCommand s = some x) {v : Verdict}
    (hv : VerdictKeeps x.state v) : OutcomeKeeps s (.next (endEvent s (applyVerdict x v))) :=
  next_keeps (((nextCommand_keeps h).trans (applyVerdict_keeps hv)).trans (endEvent_keeps ..))

theorem runCommand_keeps {c : Instr} {act : Station → State → Verdict} (h : ∀ st s, VerdictKeeps s (act st s))
    (s : State) : OutcomeKeeps s (runCommand c act s) := by
  simp only [runCommand]
  split
  next => exact next_keeps (Keeps.refl s)
  next x hx =>
    split
    · split
      · exact endOfCommand_keeps hx (h _ _)
      · exact next_keeps (Keeps.refl s)
    all_goals exact endOfCommand_keeps hx (judgeUnspelled_keeps ..)

theorem runReset_keeps {c : Instr} {act : Station → State → Verdict} {close : State → State → State}
    (h : ∀ st s, VerdictKeeps s (act st s)) (hc : ∀ b t, Keeps t (close b t)) (s : State) :
    OutcomeKeeps s (runReset c act close s) := by
  simp only [runReset]
  split
  next => exact next_keeps (Keeps.refl s)
  next x hx =>
    split
    · split
      · split
        next t code data ha =>
          have hv : VerdictKeeps x.state (.taken t code data) := ha ▸ h x.port x.state
          exact next_keeps (((nextCommand_keeps hx).trans (applyVerdict_keeps hv)).trans (hc ..))
        next => exact endOfCommand_keeps hx refused_keeps
      · exact next_keeps (Keeps.refl s)
    all_goals exact endOfCommand_keeps hx (judgeUnspelled_keeps ..)

theorem runQuery_keeps {c : Instr} {answer : State → Answer} (s : State) : OutcomeKeeps s (runQuery c answer s) := by
  simp only [runQuery]
  split
  next => exact next_keeps (Keeps.refl s)
  next x hx =>
    have ends : ∀ r : Reply, OutcomeKeeps s (.next (endEvent s (addReply x.state x.port r))) := fun r =>
      next_keeps (((nextQuery_keeps hx).trans (modPort_keeps ..)).trans (endEvent_keeps ..))
    split
    · split
      · exact ends _
      · exact next_keeps (Keeps.refl s)
    all_goals exact ends _

/-! ### The part's own events and the field's inputs -/

theorem occursWhen_keeps {ok : Bool} {s t : State} (h : Keeps s t) : OutcomeKeeps s (occursWhen ok s t) := by
  cases ok
  · exact next_keeps (Keeps.refl s)
  · exact next_keeps (h.trans (endEvent_keeps ..))

theorem execPowerOn_keeps (s : State) : OutcomeKeeps s (execPowerOn s) :=
  next_keeps ⟨fun _ => countsOk_reset, fun _ => settingsOk_reset⟩

theorem queueFrame_keeps (s : State) (st : Station) (f : Frame) : Keeps s (queueFrame s st f) := by
  simp only [queueFrame]
  split
  · exact Keeps.refl s
  · split
    · split <;> exact modPort_keeps ..
    · split
      · split <;> exact modPort_keeps ..
      · exact modPort_keeps ..

theorem takeFrame_keeps (s : State) (st : Station) (f : Frame) : Keeps s (takeFrame s st f) := by
  have up : Keeps s (queueFrame (append (loadSilence s st) .linkUp (.station st) none .none) st f) :=
    ((modPort_keeps ..).append ..).trans (queueFrame_keeps ..)
  exact Keeps.ite ((modPort_keeps ..).trans (queueFrame_keeps ..)) (Keeps.ite up.round up)

theorem execFrameReceived_keeps (st : Station) (bytes : List Byte) (s : State) :
    OutcomeKeeps s (execFrameReceived st bytes s) := by
  refine next_keeps (Keeps.trans ?_ (endEvent_keeps ..))
  split
  · exact (modPort_keeps ..).trans (takeFrame_keeps ..)
  · exact modPort_keeps ..

theorem execTransmissionEnd_keeps (st : Station) (s : State) : OutcomeKeeps s (execTransmissionEnd st s) := by
  have out : ∀ (t : State) (x : SentFrame), Keeps t { t with stationOut := [(st, x)] } := fun t x =>
    keeps_of_kept {} {}
  have sent : ∀ (f : Port → Port) (x : SentFrame), OutcomeKeeps s (sentOut s (s.modPort st f) st x) := fun f x =>
    next_keeps (((modPort_keeps ..).trans (endEvent_keeps ..)).trans (out _ x))
  simp only [execTransmissionEnd]
  split
  · exact next_keeps (Keeps.refl s)
  · split
    · exact sent _ _
    · exact next_keeps (Keeps.refl s)
  · split
    · exact sent _ _
    · exact next_keeps (Keeps.refl s)

theorem loseLink_keeps (s : State) (st : Station) : Keeps s (loseLink s st) := by
  have lost : Keeps s (append (s.modPort st Port.lost) .linkLost (.station st) none .none) :=
    (modPort_keeps ..).append ..
  exact Keeps.trans (Keeps.ite (lost.trans (Keeps.foldl (fun t w => enterEvacuate_keeps t w .linkLoss) _ _)) lost)
    (loseDesks_keeps ..)

theorem execLinkSilenceExpiry_keeps (st : Station) (s : State) : OutcomeKeeps s (execLinkSilenceExpiry st s) := by
  simp only [execLinkSilenceExpiry]
  split
  · exact next_keeps ((loseLink_keeps ..).trans (endEvent_keeps ..))
  · exact next_keeps (Keeps.refl s)

theorem execPollComplete_keeps (l : Fin 4) (r : Reading) (s : State) : OutcomeKeeps s (execPollComplete l r s) := by
  simp only [execPollComplete]
  split
  · exact next_keeps (((completePoll_keeps ..).trans (offerAfterEvacuation_keeps ..)).trans (endEvent_keeps ..))
  · exact next_keeps (Keeps.refl s)

theorem execMirroredPollComplete_keeps (p : Fin 2) (a b : Reading) (s : State) :
    OutcomeKeeps s (execMirroredPollComplete p a b s) := by
  simp only [execMirroredPollComplete]
  split
  · exact next_keeps (((completeMirrored_keeps ..).trans (offerAfterEvacuation_keeps ..)).trans (endEvent_keeps ..))
  · exact next_keeps (Keeps.refl s)

theorem execVerifyTimerExpiry_keeps (n : Fin 192) (s : State) : OutcomeKeeps s (execVerifyTimerExpiry n s) := by
  unfold execVerifyTimerExpiry
  cases h : s.detector n with
  | none => exact next_keeps (Keeps.refl s)
  | some d => exact occursWhen_keeps ((verifyExpires_keeps h).trans (offerAfterEvacuation_keeps ..))

theorem execStageTimerExpiry_keeps (w : Fin 4) (s : State) : OutcomeKeeps s (execStageTimerExpiry w s) := by
  simp only [execStageTimerExpiry]
  split
  · exact next_keeps ((enterEvacuate_keeps ..).round.trans (endEvent_keeps ..))
  · exact next_keeps ((enterEvacuate_keeps ..).round.trans (endEvent_keeps ..))
  all_goals exact next_keeps (Keeps.refl s)

theorem spread_keeps (s : State) (w : Fin 4) : Keeps s (spread s w) :=
  Keeps.trans (modWing_keeps (by exact id)) (Keeps.foldl (fun t v => enterEvacuate_keeps t v .spread) _ _)

theorem execContactInput_keeps (n : Fin 48) (r : Contact) (s : State) : OutcomeKeeps s (execContactInput n r s) :=
  occursWhen_keeps (Keeps.ite (contactChange_keeps ..) ((recordContact_keeps ..).trans (restDoor_keeps ..)))

theorem heldExpires_keeps (s : State) (n : Fin 48) : Keeps s (heldExpires s n) :=
  Keeps.ite (Keeps.trans (modDoor_keeps (by exact id)) (appendDoor_keeps ..)) (modDoor_keeps (by exact id))

theorem pressPoint_keeps (s : State) (c : Fin 64) : Keeps s (pressPoint s c) := by
  simp only [pressPoint]
  split
  · exact (fireCall_keeps ..).trans (offerAfterEvacuation_keeps ..)
  · exact pressAgain_keeps ..
  · exact raiseCall_keeps ..
  · exact raiseCall_keeps ..

theorem restorePoint_keeps (s : State) (c : Fin 64) : Keeps s (restorePoint s c) := by
  simp only [restorePoint]
  split
  · exact append_keeps ..
  · exact Keeps.refl s

theorem execCallPointInput_keeps (c : Fin 64) (x : PointInput) (s : State) :
    OutcomeKeeps s (execCallPointInput c x s) := by
  refine occursWhen_keeps (Keeps.ite ?_ (modPoint_keeps ..))
  cases x with
  | pressed => exact (modPoint_keeps ..).trans (pressPoint_keeps ..)
  | restored => exact (modPoint_keeps ..).trans (restorePoint_keeps ..)

theorem execOfferTimerExpiry_keeps (c : Fin 64) (s : State) : OutcomeKeeps s (execOfferTimerExpiry c s) := by
  unfold execOfferTimerExpiry
  cases s.call c with
  | none => exact next_keeps (Keeps.refl s)
  | some h =>
    dsimp only
    split
    · exact next_keeps ((lapseOffer_keeps ..).trans (endEvent_keeps ..))
    all_goals exact next_keeps (Keeps.refl s)

theorem execSelectionPassEnd_keeps (s : State) : OutcomeKeeps s (execSelectionPassEnd s) := by
  simp only [execSelectionPassEnd]
  split
  · exact next_keeps ((passEnd_keeps ..).trans (endEvent_keeps ..))
  all_goals exact next_keeps (Keeps.refl s)

theorem lineChanges_keeps (s : State) (n : Fin 276) (b : Bool) : Keeps s (lineChanges s n b) := by
  have handed : ∀ t, Keeps t (handLineFault t n b) := fun t => by
    simp only [handLineFault]
    split
    · exact Keeps.ite (Keeps.ite (lineFaultChange_keeps ..) (restDoor_keeps ..)) (Keeps.refl t)
    · exact Keeps.refl t
  exact ((modChannel_keeps ..).trans (Keeps.ite (append_keeps ..) (Keeps.refl _))).trans (handed _)

/-! ### Every step -/

/-- Every event of the opcode table keeps the counts and the settings. -/
theorem exec_keeps (i : Instr) (s : State) : OutcomeKeeps s (exec i s) := by
  cases i with
  | powerOn => exact execPowerOn_keeps s
  | frameReceived st bytes => exact execFrameReceived_keeps st bytes s
  | transmissionEnd st => exact execTransmissionEnd_keeps st s
  | linkSilenceExpiry st => exact execLinkSilenceExpiry_keeps st s
  | acknowledgeWing w => exact runCommand_keeps (doAcknowledgeWing_keeps w) s
  | evacuateWing w => exact runCommand_keeps (doEvacuateWing_keeps w) s
  | silenceWing w r => exact runCommand_keeps (doSilenceWing_keeps w r) s
  | resetZone z r => exact runCommand_keeps (doResetZone_keeps z r) s
  | resetWing w r => exact runCommand_keeps (doResetWing_keeps w r) s
  | manualAlarmZone z => exact runCommand_keeps (doManualAlarmZone_keeps z) s
  | markExitBlocked e => exact runCommand_keeps (doMarkExitBlocked_keeps e) s
  | markExitOpen e => exact runCommand_keeps (doMarkExitOpen_keeps e) s
  | disableDetector n => exact runCommand_keeps (doDisableDetector_keeps n) s
  | enableDetector n => exact runCommand_keeps (doEnableDetector_keeps n) s
  | restartLoop l => exact runCommand_keeps (doRestartLoop_keeps l) s
  | start => exact runReset_keeps doStart_keeps (fun _ => endStart_keeps) s
  | restart => exact runReset_keeps doRestart_keeps (fun _ => endStart_keeps) s
  | enterConfiguration => exact runReset_keeps doEnterConfiguration_keeps endReset_keeps s
  | setWingMode w m => exact runCommand_keeps (doSetWingMode_keeps w m) s
  | armZone z => exact runCommand_keeps (doArmZone_keeps z) s
  | disarmZone z => exact runCommand_keeps (doDisarmZone_keeps z) s
  | clearBreach z r => exact runCommand_keeps (doClearBreach_keeps z r) s
  | passDoor n => exact runCommand_keeps (doPassDoor_keeps n) s
  | lockdownWing w => exact runCommand_keeps (doLockdownWing_keeps w) s
  | endLockdown w => exact runCommand_keeps (doEndLockdown_keeps w) s
  | reportPatrol z => exact runCommand_keeps (doReportPatrol_keeps z) s
  | testZoneOn z => exact runCommand_keeps (doTestZoneOn_keeps z) s
  | testZoneOff z => exact runCommand_keeps (doTestZoneOff_keeps z) s
  | holdChannels a n => exact runCommand_keeps (fun st s => onRange_maintain_keeps s st a n ..) s
  | freeChannels a n => exact runCommand_keeps (fun st s => onRange_maintain_keeps s st a n ..) s
  | releaseDrive a n => exact runCommand_keeps (fun st s => onRange_maintain_keeps s st a n ..) s
  | restoreDrive a n => exact runCommand_keeps (fun st s => onRange_maintain_keeps s st a n ..) s
  | acceptCall c k => exact runCommand_keeps (doAcceptCall_keeps c k) s
  | clearCall c => exact runCommand_keeps (doClearCall_keeps c) s
  | setDeskCapacity k v => exact runCommand_keeps (doSetDeskCapacity_keeps k v) s
  | writeEntryZone z f => exact runCommand_keeps (doWriteEntryZone_keeps z f) s
  | writeEntryWing w f => exact runCommand_keeps (doWriteEntryWing_keeps w f) s
  | writeEntryClass c f => exact runCommand_keeps (doWriteEntryClass_keeps c f) s
  | writeEntryDetector n f => exact runCommand_keeps (doWriteEntryDetector_keeps n f) s
  | writeEntryLoop l u m => exact runCommand_keeps (doWriteEntryLoop_keeps l u m) s
  | writeEntryScanList l k f => exact runCommand_keeps (doWriteEntryScanList_keeps l k f) s
  | writeEntryDoor n f => exact runCommand_keeps (doWriteEntryDoor_keeps n f) s
  | writeEntryCallPoint c f => exact runCommand_keeps (doWriteEntryCallPoint_keeps c f) s
  | writeEntryDesk k f => exact runCommand_keeps (doWriteEntryDesk_keeps k f) s
  | writeEntryExit e f => exact runCommand_keeps (doWriteEntryExit_keeps e f) s
  | writeEntryDescriptor i f => exact runCommand_keeps (doWriteEntryDescriptor_keeps i f) s
  | writeEntryRouteList z rs => exact runCommand_keeps (doWriteEntryRouteList_keeps z rs) s
  | writeEntrySign g z => exact runCommand_keeps (doWriteEntrySign_keeps g z) s
  | writeEntryChannel n p => exact runCommand_keeps (doWriteEntryChannel_keeps n p) s
  | writeSettingZoneWing i => exact runCommand_keeps (doWriteSettingZoneWing_keeps i) s
  | writeSettingLoop l i => exact runCommand_keeps (doWriteSettingLoop_keeps l i) s
  | writeSettingDoor n i => exact runCommand_keeps (doWriteSettingDoor_keeps n i) s
  | writeSettingDeskList c ks => exact runCommand_keeps (doWriteSettingDeskList_keeps c ks) s
  | writeSettingTOffer k v => exact runCommand_keeps (doWriteSettingTOffer_keeps k v) s
  | writeSettingRouting g x b => exact runCommand_keeps (doWriteSettingRouting_keeps g x b) s
  | writeSettingAuthority x w c b => exact runCommand_keeps (doWriteSettingAuthority_keeps x w c b) s
  | status => exact runQuery_keeps s
  | readZone z => exact runQuery_keeps s
  | readWing w => exact runQuery_keeps s
  | readDetector n => exact runQuery_keeps s
  | readLoop l => exact runQuery_keeps s
  | readDoor n => exact runQuery_keeps s
  | readCallQueue => exact runQuery_keeps s
  | readCallPoint c => exact runQuery_keeps s
  | readRoute z => exact runQuery_keeps s
  | readExit e => exact runQuery_keeps s
  | readChannel n => exact runQuery_keeps s
  | readLog a n => exact runQuery_keeps s
  | intervalTimerExpiry l => exact occursWhen_keeps (arbitrate_keeps s)
  | pollComplete l r => exact execPollComplete_keeps l r s
  | mirroredPollComplete p a b => exact execMirroredPollComplete_keeps p a b s
  | powerOffExpiry l => exact occursWhen_keeps (powerUp_keeps s l)
  | settleExpiry l => exact occursWhen_keeps (arbitrate_keeps s)
  | verifyTimerExpiry n => exact execVerifyTimerExpiry_keeps n s
  | testTimerExpiry z => exact occursWhen_keeps (endTest_keeps .timeout s z)
  | stageTimerExpiry w => exact execStageTimerExpiry_keeps w s
  | spreadTimerExpiry w => exact occursWhen_keeps ((spread_keeps s w).trans (offerAfterEvacuation_keeps ..))
  | presenceInput z => exact occursWhen_keeps (takeActivity_keeps s z .presence)
  | vacancyTimerExpiry z => exact occursWhen_keeps (modZone_keeps id rfl)
  | exitDelayExpiry z => exact occursWhen_keeps ((setSecurity_keeps ..).append ..)
  | contactInput n r => exact execContactInput_keeps n r s
  | heldTimerExpiry n => exact occursWhen_keeps (heldExpires_keeps s n)
  | notClosedTimerExpiry n => exact occursWhen_keeps ((modDoor_keeps id).trans (appendDoor_keeps ..))
  | rexPress n => exact occursWhen_keeps (modDoor_keeps id)
  | rexGrantExpiry n => exact occursWhen_keeps (modDoor_keeps id)
  | passGrantExpiry n => exact occursWhen_keeps (modDoor_keeps id)
  | callPointInput c x => exact execCallPointInput_keeps c x s
  | offerTimerExpiry c => exact execOfferTimerExpiry_keeps c s
  | selectionPassEnd => exact execSelectionPassEnd_keeps s
  | channelLineReport n r => exact occursWhen_keeps (lineChanges_keeps s n (saysFaulty r))

/-- Every step keeps the counts and the settings. -/
theorem step_keeps {s t : State} (h : step s = .next t) : Keeps s t := by
  simp only [step] at h
  split at h
  next => cases h; exact tick_keeps s
  next c rest _ => exact Keeps.trans (t := { s with pending := rest }) (keeps_of_kept {} {}) (exec_keeps c _ t h)

/-- Settles O10: every operation keeps the counts exact, since a detector that enters or leaves an impaired state takes
its zone's impaired count with it (R15). -/
theorem countInvariantKept : Obligations.CountInvariantKept := fun _ _ hs h => (step_keeps h).1 hs

/-- Settles O11: every operation leaves the live settings alone or writes one that it has brought into its range. -/
theorem settingsInvariantKept : Obligations.SettingsInvariantKept := fun _ _ hs h => (step_keeps h).2 hs

end Sys2Proof.Machine
end

section
/-! SUPPORT. What the end of an event leaves of the doors and the channels, and the completion of a command: by the state
its owner leaves, whether or not the doors' inputs change in it. -/

set_option autoImplicit false

namespace Sys2Proof.Machine

/-! ### Doors and channels at the end of an event -/

theorem DoorsKept.refl (s : State) : DoorsKept s s := fun _ => rfl

theorem DoorsKept.trans {s t u : State} (h : DoorsKept s t) (k : DoorsKept t u) : DoorsKept s u :=
  fun n => (k n).trans (h n)

theorem DoorsKept.foldl {α : Type} {f : State → α → State} (h : ∀ s x, DoorsKept s (f s x)) :
    ∀ (xs : List α) (s : State), DoorsKept s (xs.foldl f s)
  | [], s => DoorsKept.refl s
  | x :: xs, s => (h s x).trans (DoorsKept.foldl h xs (f s x))

theorem DoorsKept.of_same {s t : State} (h : Same s t .doors) : DoorsKept s t := fun n => by
  rw [State.door, State.door, show t.doors = s.doors from h]

theorem modDoor_doorsKept {s : State} {n : Fin 48} {f : Door → Door} (h : (f (s.door n)).kept = (s.door n).kept) :
    DoorsKept s (s.modDoor n f) := fun m => by
  rw [State.door_modDoor]
  split <;> simp_all

theorem ChannelsKept.refl (ns : List (Fin 276)) (s : State) : ChannelsKept ns s s := fun _ => ⟨rfl, fun _ _ => rfl⟩

theorem ChannelsKept.trans {ns : List (Fin 276)} {s t u : State} (h : ChannelsKept ns s t) (k : ChannelsKept ns t u) :
    ChannelsKept ns s u :=
  fun n => ⟨(k n).1.trans (h n).1, fun hn hm => ((k n).2 hn hm).trans ((h n).2 hn hm)⟩

theorem ChannelsKept.foldl {α : Type} {ns : List (Fin 276)} {f : State → α → State}
    (h : ∀ s x, ChannelsKept ns s (f s x)) : ∀ (xs : List α) (s : State), ChannelsKept ns s (xs.foldl f s)
  | [], s => ChannelsKept.refl ns s
  | x :: xs, s => (h s x).trans (ChannelsKept.foldl h xs (f s x))

theorem ChannelsKept.of_same {ns : List (Fin 276)} {s t : State} (h : Same s t .channels) : ChannelsKept ns s t :=
  fun n => by simp only [State.channel, show t.channels = s.channels from h, implies_true, and_self]

/-- A closed door is closed with either of the two statuses (R99). -/
theorem closedStatus_isClosed (k : DoorKind) (v : ChannelValue) : (closedStatus k v).isClosed = true := by
  cases k <;> simp only [closedStatus] <;> (try split) <;> rfl

theorem followEffective_doorsKept (b s : State) (n : Fin 48) : DoorsKept s (followEffective b s n) := by
  simp only [followEffective]
  split
  next h =>
    simp only [Bool.and_eq_true] at h
    exact modDoor_doorsKept (by simp [Door.kept, closedStatus_isClosed, h.1.2])
  next => exact DoorsKept.refl s

theorem computeDoor_doorsKept (s : State) (n : Fin 48) : DoorsKept s (computeDoor s n) :=
  DoorsKept.trans (modDoor_doorsKept (by rfl)) (DoorsKept.of_same (writeSource_onlyIn _ _ _ .doors (by decide)))

/-- A door that is computed anew writes its own channel (R103). -/
theorem computeDoor_channelsKept (s : State) (n : Fin 48) : ChannelsKept [] s (computeDoor s n) := fun m => by
  rw [computeDoor, channel_writeSource]
  split
  next e =>
    subst e
    exact ⟨withSource_kept .., fun h => absurd h (Nat.not_le.mpr n.isLt)⟩
  next => exact ⟨rfl, fun _ _ => rfl⟩

theorem settleDoors_kept (b s : State) : DoorsKept s (settleDoors b s) ∧ ChannelsKept [] s (settleDoors b s) := by
  have computed : DoorsKept s (computeDoors b s) ∧ ChannelsKept [] s (computeDoors b s) := by
    constructor
    · refine DoorsKept.foldl (fun t n => ?_) _ s
      split
      · exact DoorsKept.refl t
      · exact computeDoor_doorsKept t n
    · refine ChannelsKept.foldl (fun t n => ?_) _ s
      split
      · exact ChannelsKept.refl [] t
      · exact computeDoor_channelsKept t n
  have supervised : ∀ (t : State) (n : Fin 48), DoorsKept t (superviseClosing b t n) := fun t n => by
    simp only [superviseClosing]
    split
    · exact DoorsKept.refl t
    · exact modDoor_doorsKept (by rfl)
  constructor
  · refine computed.1.trans (DoorsKept.foldl (fun t n => ?_) _ _)
    split
    · exact (followEffective_doorsKept b t n).trans (supervised _ n)
    · exact followEffective_doorsKept b t n
  · refine computed.2.trans (ChannelsKept.foldl (fun t n => ChannelsKept.of_same ?_) _ _)
    have hf := followEffective_onlyIn b t n .channels (by decide)
    split
    · exact hf.trans (superviseClosing_onlyIn b _ n .channels (by decide))
    · exact hf

/-- The end of an event writes of a door what its precedence, its closed status and its supervision give, and of the
channels the values of the DOOR channels alone (R99, R103, R105). -/
theorem endEvent_kept (b s : State) : DoorsKept s (endEvent b s) ∧ ChannelsKept [] s (endEvent b s) := by
  obtain ⟨hd, hc⟩ := settleDoors_kept b s
  have hp : OnlyIn ([.engine] ++ outward) (settleDoors b s) (endEvent b s) :=
    (((openPass_onlyIn _).mono (by decide)).trans ((startTransmitters_onlyIn _).mono (by decide))).trans
      (onlyIn_of fun p => by cases p <;> simp [Same, endEvent, outward])
  exact ⟨hd.trans (DoorsKept.of_same (hp .doors (by decide))), hc.trans (ChannelsKept.of_same (hp .channels (by decide)))⟩

/-- An event that has started no pass leaves the engine alone at its end (R137). -/
theorem endEvent_onlyIn_of_ne {b s : State} (h : s.engine ≠ .opening) :
    OnlyIn (doorward ++ outward) s (endEvent b s) := by
  have hd : (settleDoors b s).engine = s.engine := settleDoors_onlyIn b s .engine (by decide)
  intro p hp
  by_cases e : p = .engine
  · subst e
    have he : (endEvent b s).engine = (openPass (settleDoors b s)).engine := by simp only [endEvent, startTransmitters]
    exact he.trans (by rw [openPass_of_ne (by rw [hd]; exact h), hd])
  · exact endEvent_onlyIn b s p (by simp_all)

/-! ### The inputs of the doors -/

/-- What the doors' precedences read of a wing (R102, R104). -/
def Wing.doorReads (r : Wing) : Mode × Stage × Bool := (r.mode, r.stage, r.lockdown)

/-- What the doors' precedences read of a zone (R102, R104). -/
def Zone.doorReads (r : Zone) : Fin 4 × FireState × Occupancy × Security := (r.wing, r.fire, r.occupancy, r.security)

/-- Two states with the same doors, and with the same wings and zones as far as the doors' precedences read them. -/
structure SameInputs (s t : State) : Prop where
  doors : t.doors = s.doors := by rfl
  wing : ∀ w, (t.wing w).doorReads = (s.wing w).doorReads := by intros; rfl
  zone : ∀ z, (t.zone z).doorReads = (s.zone z).doorReads := by intros; rfl

theorem SameInputs.trans {s t u : State} (h : SameInputs s t) (k : SameInputs t u) : SameInputs s u :=
  ⟨k.doors.trans h.doors, fun w => (k.wing w).trans (h.wing w), fun z => (k.zone z).trans (h.zone z)⟩

theorem SameInputs.doorInputs_eq {s t : State} (h : SameInputs s t) (n : Fin 48) : doorInputs t n = doorInputs s n := by
  have hw := h.wing
  have hz := h.zone
  simp only [Wing.doorReads, Zone.doorReads, Prod.mk.injEq, forall_and] at hw hz
  obtain ⟨hmode, hstage, hlock⟩ := hw
  obtain ⟨hwing, hfire, hocc, hsec⟩ := hz
  have hegress : ∀ d, egressLine t d = egressLine s d := fun d => by
    unfold egressLine
    cases d.kind with
    | secureEgress => rfl
    | fireHold => rfl
    | store =>
      dsimp only
      cases d.innerZone with
      | none => rfl
      | some z => simp only [State.evacuating, State.wingOf, hwing, hstage, hocc] <;> rfl
  simp only [doorInputs, hegress, State.wingOf, State.door, h.doors, hmode, hstage, hlock, hwing, hfire, hsec]
    <;> rfl

theorem modWing_sameInputs {s : State} {w : Fin 4} {f : Wing → Wing}
    (h : (f (s.wing w)).doorReads = (s.wing w).doorReads) : SameInputs s (s.modWing w f) where
  wing v := by rw [State.wing_modWing]; split <;> simp_all

theorem modZone_sameInputs {s : State} {z : Fin 64} {f : Zone → Zone}
    (h : (f (s.zone z)).doorReads = (s.zone z).doorReads) : SameInputs s (s.modZone z f) where
  zone y := by rw [State.zone_modZone]; split <;> simp_all

theorem append_sameInputs (s : State) (k : EntryKind) (x : Subject) (w : Option (Fin 4)) (d : Detail) :
    SameInputs s (append s k x w d) where
  doors := append_onlyIn s k x w d .doors (by decide)
  wing v := by rw [append_wing]; split <;> rfl
  zone z := by rw [State.zone, State.zone, show (append s k x w d).zones = s.zones from append_onlyIn s k x w d .zones (by decide)]

/-- A change of other pieces than the doors, the wings and the zones changes no input. -/
theorem SameInputs.of_onlyIn {ps : List Piece} {s t : State} (h : OnlyIn ps s t)
    (hp : ∀ p ∈ [Piece.doors, .wings, .zones], p ∉ ps) : SameInputs s t where
  doors := h .doors (hp _ (by decide))
  wing w := by rw [State.wing, State.wing, show t.wings = s.wings from h .wings (hp _ (by decide))]
  zone z := by rw [State.zone, State.zone, show t.zones = s.zones from h .zones (hp _ (by decide))]

/-- An event that changed no input of a door leaves every door as it stood. -/
theorem settleDoors_of_sameInputs {b s : State} (h : SameInputs b s) (hc : s.channels = b.channels) :
    settleDoors b s = s := by
  have fixed : ∀ (f : State → Fin 48 → State), (∀ n, f s n = s) → ∀ ns : List (Fin 48), ns.foldl f s = s :=
    fun f hf ns => by
      induction ns with
      | nil => rfl
      | cons n ns ih => rw [List.foldl_cons, hf, ih]
  have computed : computeDoors b s = s := fixed _ (fun n => if_pos (h.doorInputs_eq n).symm) _
  have followed : ∀ n, followEffective b s n = s := fun n => by
    simp [followEffective, State.door, State.channel, h.doors, hc]
  have supervised : ∀ n, superviseClosing b s n = s := fun n => by
    have : notClosedAfter (b.door n) (s.door n) = (s.door n).notClosedTimer := by
      simp only [State.door, h.doors, notClosedAfter]
      cases (b.doors.get n).expectedToClose <;> simp
    simp [superviseClosing, this]
  rw [settleDoors, computed]
  exact fixed _ (fun n => by simp only [followed, supervised, ite_self]) _

/-- The end of an event that changed no input of a door and started no pass reaches the ports and the outputs alone. -/
theorem endEvent_onlyIn_of_sameInputs {b s : State} (h : SameInputs b s) (hc : s.channels = b.channels)
    (he : s.engine ≠ .opening) : OnlyIn outward s (endEvent b s) := by
  rw [endEvent, settleDoors_of_sameInputs h hc, openPass_of_ne he]
  exact ((startTransmitters_onlyIn s).mono (by decide)).trans (onlyIn_of fun p => by cases p <;> simp [Same, outward])

/-! ### Reads of a state through a frame -/

theorem OnlyIn.wing_eq {ps : List Piece} {s t : State} (h : OnlyIn ps s t) (hp : Piece.wings ∉ ps) (w : Fin 4) :
    t.wing w = s.wing w := by rw [State.wing, State.wing, show t.wings = s.wings from h .wings hp]

theorem OnlyIn.zone_eq {ps : List Piece} {s t : State} (h : OnlyIn ps s t) (hp : Piece.zones ∉ ps) (z : Fin 64) :
    t.zone z = s.zone z := by rw [State.zone, State.zone, show t.zones = s.zones from h .zones hp]

theorem OnlyIn.cls_eq {ps : List Piece} {s t : State} (h : OnlyIn ps s t) (hp : Piece.classes ∉ ps) (c : Fin 8) :
    t.cls c = s.cls c := by rw [State.cls, State.cls, show t.classes = s.classes from h .classes hp]

/-! ### What the taking of a command leaves the owner to judge -/

section
variable {s : State} {x : TakenRequest}

theorem taken_wing (h : nextCommand s = some x) (w : Fin 4) : x.state.wing w = s.wing w :=
  (nextCommand_onlyIn h).wing_eq (by decide) w

theorem taken_zone (h : nextCommand s = some x) (z : Fin 64) : x.state.zone z = s.zone z :=
  (nextCommand_onlyIn h).zone_eq (by decide) z

theorem taken_cls (h : nextCommand s = some x) (c : Fin 8) : x.state.cls c = s.cls c :=
  (nextCommand_onlyIn h).cls_eq (by decide) c

theorem taken_wingOf (h : nextCommand s = some x) (z : Fin 64) : x.state.wingOf z = s.wingOf z := by
  rw [State.wingOf, taken_zone h, State.wingOf]

theorem taken_inService (h : nextCommand s = some x) : x.state.inService = s.inService := by
  rw [State.inService, show x.state.part = s.part from nextCommand_onlyIn h .part (by decide), State.inService]

theorem taken_holdsGuard (h : nextCommand s = some x) (st : Station) (w : Fin 4) :
    holdsGuard x.state st w = holdsGuard s st w := by
  rw [holdsGuard, show x.state.authority = s.authority from nextCommand_onlyIn h .authority (by decide), holdsGuard]

theorem taken_engine (h : nextCommand s = some x) : x.state.engine = s.engine :=
  nextCommand_onlyIn h .engine (by decide)

/-- What the owner of a taken command has logged is what its event has. -/
theorem taken_logged {t : State} {xs : List LogItem} (h : nextCommand s = some x) (k : Logged x.state t xs) :
    Logged s t xs := by
  have hl := nextCommand_onlyIn h .log (by decide)
  have hs : x.state.seconds = s.seconds := nextCommand_onlyIn h .seconds (by decide)
  exact (logged_nil hl.1 hl.2).trans k hs

end

/-! ### The completion of a command -/

theorem Completes.mono {i : Instr} {s : State} {x : TakenRequest} {code : ReplyCode} {data : ReplyData}
    {P Q : State → Prop} (h : Completes i s x code data P) (hpq : ∀ t, P t → Q t) : Completes i s x code data Q := by
  obtain ⟨t, ht, ha, hp⟩ := h
  exact ⟨t, ht, ha, hpq t hp⟩

/-- The pieces that a command's owner leaves to the end of the event. -/
def endPieces : List Piece := [.executor, .engine, .doors, .channels]

section
variable {i : Instr} {s u : State} {x : TakenRequest} {code : ReplyCode} {data : ReplyData}
  {act : Station → State → Verdict} {ps : List Piece}

/-- A command whose owner writes no door and no channel completes: at its end the doors whose inputs it changed take their
values, and nothing else changes of what the owner leaves. -/
theorem completes_of_within (h : Ready i s x) (hx : exec i s = runCommand i act s)
    (ha : act x.port x.state = .taken u code data) (hw : Within ps x.state u) (hps : ∀ p ∈ endPieces, p ∉ ps) :
    Completes i s x code data fun t =>
      OnlyIn (doorward ++ outward) u t ∧ DoorsKept s t ∧ ChannelsKept [] s t := by
  refine (completes_of_taken h hx ha hw.2 (hw.1 .executor (hps _ (by decide)))).mono fun t ht => ?_
  subst ht
  generalize replyTo x.request code data = r
  have hr := addReply_onlyIn u x.port r
  have hn := nextCommand_onlyIn h.2.1
  have he : (addReply u x.port r).engine ≠ .opening := by
    rw [hr .engine (by decide), hw.1 .engine (hps _ (by decide)), hn .engine (by decide)]
    exact h.1
  have before : ∀ p ∈ [Piece.doors, .channels], Same s (addReply u x.port r) p := fun p hp =>
    ((hn p (by revert p; decide)).trans (hw.1 p (hps p (by revert p; decide)))).trans (hr p (by revert p; decide))
  obtain ⟨hd, hc⟩ := endEvent_kept s (addReply u x.port r)
  exact ⟨(hr.mono (by decide)).trans (endEvent_onlyIn_of_ne he),
    (DoorsKept.of_same (before _ (by decide))).trans hd, (ChannelsKept.of_same (before _ (by decide))).trans hc⟩

/-- A command whose owner changes no input of a door completes with what its owner leaves, but for the ports and the
outputs. -/
theorem completes_of_sameInputs (h : Ready i s x) (hx : exec i s = runCommand i act s)
    (ha : act x.port x.state = .taken u code data) (hw : Within ps x.state u) (hps : ∀ p ∈ endPieces, p ∉ ps)
    (hi : SameInputs x.state u) : Completes i s x code data fun t => OnlyIn outward u t := by
  refine (completes_of_taken h hx ha hw.2 (hw.1 .executor (hps _ (by decide)))).mono fun t ht => ?_
  subst ht
  generalize replyTo x.request code data = r
  have hr := addReply_onlyIn u x.port r
  have hn := nextCommand_onlyIn h.2.1
  have he : (addReply u x.port r).engine ≠ .opening := by
    rw [hr .engine (by decide), hw.1 .engine (hps _ (by decide)), hn .engine (by decide)]
    exact h.1
  have hs : SameInputs s (addReply u x.port r) :=
    ((SameInputs.of_onlyIn hn (by decide)).trans hi).trans (SameInputs.of_onlyIn hr (by decide))
  have hc : (addReply u x.port r).channels = s.channels :=
    ((hn .channels (by decide)).trans (hw.1 .channels (hps _ (by decide)))).trans (hr .channels (by decide))
  exact (hr.mono (by decide)).trans (endEvent_onlyIn_of_sameInputs hs hc he)

end

/-! ### Verdicts -/

@[simp] theorem need_true (code : ReplyCode) (k : Verdict) : need true code k = k := rfl

@[simp] theorem need_false (code : ReplyCode) (k : Verdict) : need false code k = .refused code .none := rfl

@[simp] theorem onObject_val {size : Nat} (n : Fin size) (k : Fin size → Verdict) : onObject n.val size k = k n := by
  simp [onObject]

/-- A verdict on an object in its range that is the same for every object, or on any number where it is the refusal of a
number out of range. -/
theorem onObject_eq {n size : Nat} {k : Fin size → Verdict} {v : Verdict}
    (hn : n < size ∨ v = .refused .badObject .none) (h : ∀ a, k a = v) : onObject n size k = v := by
  simp only [onObject]
  split
  · exact h _
  next hlt => rcases hn with hn | rfl <;> [exact absurd hn hlt; rfl]

theorem onObject_of_le {n size : Nat} (h : size ≤ n) (k : Fin size → Verdict) :
    onObject n size k = .refused .badObject .none := by simp [onObject, Nat.not_lt.mpr h]

theorem onObjects_map {size : Nat} (xs : List (Fin size)) (k : List (Fin size) → Verdict) :
    onObjects (xs.map Fin.val) size k = k xs := by
  induction xs generalizing k with
  | nil => rfl
  | cons x xs ih => rw [List.map_cons, onObjects, onObject_val, ih]

theorem onObjects_eq {ns : List Nat} {size : Nat} {k : List (Fin size) → Verdict} {v : Verdict}
    (hn : (∀ n ∈ ns, n < size) ∨ v = .refused .badObject .none) (h : ∀ xs, k xs = v) : onObjects ns size k = v := by
  induction ns generalizing k with
  | nil => exact h []
  | cons n ns ih =>
    exact onObject_eq (hn.imp_left fun hl => hl n List.mem_cons_self) fun a =>
      ih (hn.imp_left fun hl m hm => hl m (List.mem_cons_of_mem n hm)) fun xs => h _

/-- A list with a number out of its range is refused (R169). -/
theorem onObjects_of_le {ns : List Nat} {size : Nat} (h : ∃ n ∈ ns, size ≤ n) (k : List (Fin size) → Verdict) :
    onObjects ns size k = .refused .badObject .none := by
  induction ns generalizing k with
  | nil => simp at h
  | cons m ns ih =>
    obtain ⟨n, hn, hle⟩ := h
    rcases List.mem_cons.mp hn with rfl | hn
    · exact onObject_of_le hle _
    · exact onObject_eq (.inr rfl) fun a => ih ⟨n, hn, hle⟩ _

theorem onOptional_map {size : Nat} (x : Option (Fin size)) (k : Option (Fin size) → Verdict) :
    onOptional (x.map Fin.val) size k = k x := by
  cases x with
  | none => rfl
  | some a => exact onObject_val a fun y => k (some y)

theorem onOptional_eq {n : Option Nat} {size : Nat} {k : Option (Fin size) → Verdict} {v : Verdict}
    (hn : ∀ m, n = some m → m < size) (h : ∀ x, k x = v) : onOptional n size k = v := by
  cases n with
  | none => exact h none
  | some m => exact onObject_eq (.inl (hn m rfl)) fun a => h _

theorem doneApplied_eq (u : State) (given applied : List Nat) :
    doneApplied u given applied
      = .taken u (if given = applied then .done else .doneAdjusted)
        (if given = applied then .none else .applied applied) := by
  simp only [doneApplied, done]
  split <;> simp_all

/-- CONFIG is held by every station but the guard station (R169). -/
theorem holdsConfig_eq {st : Station} (h : st ≠ .guard) : holdsConfig st = true := by simp [holdsConfig, h]

theorem atStandby_eq (s : State) (w : Fin 4) : s.atStandby w = decide ((s.wing w).stage = .standby) := by
  simp only [State.atStandby]
  cases (s.wing w).stage <;> simp [Stage.name]

end Sys2Proof.Machine
end

section
/-! The operating mode and the lockdown of a wing (O37). -/

set_option autoImplicit false

namespace Sys2Proof.Machine

variable {s : State} {x : TakenRequest} {i : Instr} {act : Station → State → Verdict}

/-! ### A wing's record with its entry (R8, R108) -/

/-- A command that changes a wing's record and appends the entry of it. -/
theorem completes_of_wingChange {w : Fin 4} {f : Wing → Wing} {k : EntryKind} {d : Detail} (h : Ready i s x)
    (hx : exec i s = runCommand i act s)
    (ha : act x.port x.state = done (appendWing (x.state.modWing w f) k w d)) :
    Completes i s x .done .none fun t =>
      t.wing w = { f (s.wing w) with revision := (f (s.wing w)).revision + 1 } ∧ (∀ v, v ≠ w → t.wing v = s.wing v)
        ∧ Logged s t [{ kind := k, subject := .wing w, wing := some w, detail := d }]
        ∧ OnlyIn ([Piece.wings, .log] ++ doorward ++ answering) s t ∧ DoorsKept s t ∧ ChannelsKept [] s t := by
  have hn := nextCommand_onlyIn h.2.1
  have hw : Within logward x.state (appendWing (x.state.modWing w f) k w d) :=
    ((Within.of_onlyIn (modWing_onlyIn _ w f) (by decide)).mono (by decide)).trans (append_within ..)
  have wing_eq : ∀ v, (appendWing (x.state.modWing w f) k w d).wing v
      = if v = w then { f (s.wing w) with revision := (f (s.wing w)).revision + 1 } else s.wing v := fun v => by
    rw [appendWing, append_wing, State.wing_modWing, taken_wing h.2.1]
    by_cases e : v = w
    · subst e; simp
    · simp [e, Ne.symm e]
  refine (completes_of_within h hx ha hw (by decide)).mono fun t ⟨ht, hd, hc⟩ => ?_
  refine ⟨?_, fun v hv => ?_, ?_, ?_, hd, hc⟩
  · rw [ht.wing_eq (by decide), wing_eq, if_pos rfl]
  · rw [ht.wing_eq (by decide), wing_eq, if_neg hv]
  · have hl : Logged x.state (x.state.modWing w f) [] := logged_nil rfl rfl
    exact (taken_logged h.2.1 (hl.trans (append_logged ..) rfl)).keep (ht .log (by decide))
  · exact ((hn.mono (by decide)).trans (hw.1.mono (by decide))).trans (ht.mono (by decide))

/-- Settles O37: the new mode and the lockdown flag are written with their entries, and a mode or a flag that stands is
answered alone. -/
theorem wingModeAndLockdown : Obligations.WingModeAndLockdown := by
  refine ⟨fun s x w m h hs => ?_, fun s x w hs => ?_⟩
  · have hi := (taken_inService h.2.1).trans hs
    refine ⟨fun new hg hm hne => ?_, fun new hg hm he => ?_, fun hg hm => ?_, fun hg => ?_⟩
    · refine completes_of_wingChange (f := fun r => { r with mode := new }) h rfl ?_
      simp [doSetWingMode, inServiceOnly, hi, taken_holdsGuard h.2.1, hg, hm, onValue, taken_wing h.2.1, hne, changeMode]
    · refine answersOnly_of_unchanged h rfl ?_
      simp [doSetWingMode, inServiceOnly, hi, taken_holdsGuard h.2.1, hg, hm, onValue, taken_wing h.2.1, he, done]
    · refine answersOnly_of_refused h rfl ?_
      simp [doSetWingMode, inServiceOnly, hi, taken_holdsGuard h.2.1, hg, hm, onValue]
    · refine answersOnly_of_refused h rfl ?_
      simp [doSetWingMode, inServiceOnly, hi, taken_holdsGuard h.2.1, hg]
  · have hi : ∀ {i}, Ready i s x → x.state.inService = true := fun h => (taken_inService h.2.1).trans hs
    refine ⟨fun h hg hst hl => ?_, fun h hg hst hl => ?_, fun h hg hst => ?_, fun h hg hl => ?_, fun h hg hl => ?_,
      fun i hii h hg => ?_⟩
    · refine completes_of_wingChange (f := fun r => { r with lockdown := true }) h rfl ?_
      simp [doLockdownWing, inServiceOnly, hi h, taken_holdsGuard h.2.1, hg, atStandby_eq, taken_wing h.2.1, hst, hl]
    · refine answersOnly_of_unchanged h rfl ?_
      simp [doLockdownWing, inServiceOnly, hi h, taken_holdsGuard h.2.1, hg, atStandby_eq, taken_wing h.2.1, hst, hl, done]
    · refine answersOnly_of_refused h rfl ?_
      simp [doLockdownWing, inServiceOnly, hi h, taken_holdsGuard h.2.1, hg, atStandby_eq, taken_wing h.2.1, hst]
    · refine completes_of_wingChange (f := fun r => { r with lockdown := false }) h rfl ?_
      simp [doEndLockdown, inServiceOnly, hi h, taken_holdsGuard h.2.1, hg, taken_wing h.2.1, hl]
    · refine answersOnly_of_unchanged h rfl ?_
      simp [doEndLockdown, inServiceOnly, hi h, taken_holdsGuard h.2.1, hg, taken_wing h.2.1, hl, done]
    · rcases hii with rfl | rfl
      · refine answersOnly_of_refused h rfl ?_
        simp [doLockdownWing, inServiceOnly, hi h, taken_holdsGuard h.2.1, hg]
      · refine answersOnly_of_refused h rfl ?_
        simp [doEndLockdown, inServiceOnly, hi h, taken_holdsGuard h.2.1, hg]

end Sys2Proof.Machine
end

section
/-! The entries of the zone, wing and class tables (O42). -/

set_option autoImplicit false

namespace Sys2Proof.Machine

variable {s u : State} {x : TakenRequest} {i : Instr} {act : Station → State → Verdict} {code : ReplyCode}
  {data : ReplyData} {ps : List Piece}

/-- The pieces of a record's write are those of its event, with the ones that any command's answer reaches. -/
theorem event_onlyIn {qs : List Piece} {t : State} (h : nextCommand s = some x) (hu : OnlyIn ps x.state u)
    (ht : OnlyIn (qs ++ outward) u t) : OnlyIn (ps ++ qs ++ answering) s t := by
  refine OnlyIn.trans ?_ ((hu.mono ?_).trans (ht.mono ?_))
  · exact (nextCommand_onlyIn h).mono fun p hp => by
      rcases List.mem_cons.mp hp with rfl | hp <;> simp_all [answering, outward]
  · exact fun p hp => by simp [hp]
  · intro p hp
    simp only [List.mem_append, answering] at hp ⊢
    tauto

/-- The write of an entry that no door's precedence reads. -/
theorem completes_of_entry (h : Ready i s x) (hx : exec i s = runCommand i act s)
    (ha : act x.port x.state = .taken u code data) (hu : OnlyIn ps x.state u)
    (hps : ∀ p ∈ Piece.ports :: endPieces, p ∉ ps) (hi : SameInputs x.state u) :
    Completes i s x code data fun t => OnlyIn outward u t ∧ OnlyIn (ps ++ answering) s t := by
  have hw : Within ps x.state u := Within.of_onlyIn hu (hps _ List.mem_cons_self)
  refine (completes_of_sameInputs h hx ha hw (fun p hp => hps p (List.mem_cons_of_mem _ hp)) hi).mono fun t ht => ⟨ht, ?_⟩
  simpa using event_onlyIn (qs := []) h.2.1 hu ht

/-- The zones after an event that has written one of them. -/
theorem zones_of_modZone {z : Fin 64} {f : Zone → Zone} {t : State} (h : nextCommand s = some x)
    (ht : ∀ y, t.zone y = (x.state.modZone z f).zone y) : t.zone z = f (s.zone z) ∧ ∀ y, y ≠ z → t.zone y = s.zone y :=
  ⟨by rw [ht, State.zone_modZone_self, taken_zone h],
    fun y hy => by rw [ht, State.zone_modZone, if_neg hy, taken_zone h]⟩

/-- The wings after an event that has written one of them. -/
theorem wings_of_modWing {w : Fin 4} {f : Wing → Wing} {t : State} (h : nextCommand s = some x)
    (ht : ∀ v, t.wing v = (x.state.modWing w f).wing v) : t.wing w = f (s.wing w) ∧ ∀ v, v ≠ w → t.wing v = s.wing v :=
  ⟨by rw [ht, State.wing_modWing_self, taken_wing h],
    fun v hv => by rw [ht, State.wing_modWing, if_neg hv, taken_wing h]⟩

theorem configuringOnly_eq (h : s.inService = false) (k : Verdict) : configuringOnly s k = k := by
  simp [configuringOnly, h]

theorem underConfig_eq {st : Station} (h : st ≠ .guard) (k : Verdict) : underConfig st k = k := by
  rw [underConfig, holdsConfig_eq h, need_true]

theorem taken_configuring (h : nextCommand s = some x) (hp : s.part = .configuring) : x.state.inService = false := by
  rw [taken_inService h, State.inService, hp]
  rfl

theorem noneTwice_eq {α : Type} [DecidableEq α] (xs : List α) : noneTwice xs = decide xs.Nodup := by
  induction xs with
  | nil => rfl
  | cons x xs ih => simp [noneTwice, ih]

/-- A list of other wings without a repetition has at most three members, so R7 need not bound it. -/
theorem spread_length_le {w : Fin 4} {spread : List (Fin 4)} (hw : w ∉ spread) (hn : spread.Nodup) :
    spread.length ≤ 3 := by
  have h : (w :: spread).length ≤ 4 := (List.nodup_cons.mpr ⟨hw, hn⟩).length_le_card
  exact Nat.le_of_succ_le_succ h

/-- The verdict on a wing's entry whose object numbers are in range: it stands unless its spread list names the wing itself
or a wing twice (R7). -/
theorem doWriteEntryWing_eq {st : Station} (hs : s.inService = false) (hg : st ≠ .guard) {w : Fin 4} {f : WingFields}
    {m : Mode} {spread : List (Fin 4)} {desk : Option (Fin 8)} (hm : f.initialMode = some m)
    (hl : f.spreadList = spread.map Fin.val) (hd : f.evacDesk = desk.map Fin.val) :
    doWriteEntryWing w.val f st s
      = need (decide (w ∉ spread ∧ spread.Nodup)) .badValue (done (s.modWing w fun r =>
          { r with initialMode := m, staged := f.staged, spreadList := spread, evacDesk := desk })) := by
  have hb : (!spread.contains w && noneTwice spread && decide (spread.length ≤ 3))
      = decide (w ∉ spread ∧ spread.Nodup) := by
    rw [noneTwice_eq]
    by_cases hok : w ∉ spread ∧ spread.Nodup
    · simp [hok.1, hok.2, spread_length_le hok.1 hok.2]
    · simpa using fun h₁ h₂ => absurd ⟨h₁, h₂⟩ hok
  simp only [doWriteEntryWing, configuringOnly_eq hs, underConfig_eq hg, onObject_val, hl, onObjects_map, hd,
    onOptional_map, hm, onValue, hb]

/-- A wing's entry that names an object out of its range is refused, whatever its other fields (R169). -/
theorem doWriteEntryWing_badObject {st : Station} (hs : s.inService = false) {w : Nat} {f : WingFields}
    (h : 4 ≤ w ∨ (∃ v ∈ f.spreadList, 4 ≤ v) ∨ ∃ k, f.evacDesk = some k ∧ 8 ≤ k) :
    doWriteEntryWing w f st s = .refused .badObject .none := by
  rw [doWriteEntryWing, configuringOnly_eq hs]
  rcases h with hw | hl | ⟨k, hk, hle⟩
  · exact onObject_of_le hw _
  · exact onObject_eq (.inr rfl) fun _ => onObjects_of_le hl _
  · refine onObject_eq (.inr rfl) fun _ => onObjects_eq (.inr rfl) fun _ => ?_
    rw [hk, onOptional, onObject_of_le hle]

/-- A wing's entry whose objects are in range and whose mode is not in its set (R169). -/
theorem doWriteEntryWing_badValue {st : Station} (hs : s.inService = false) (hg : st ≠ .guard) {w : Nat}
    {f : WingFields} (hw : w < 4) (hl : ∀ v ∈ f.spreadList, v < 4) (hd : ∀ k, f.evacDesk = some k → k < 8)
    (hm : f.initialMode = none) : doWriteEntryWing w f st s = .refused .badValue .none := by
  rw [doWriteEntryWing, configuringOnly_eq hs]
  refine onObject_eq (.inl hw) fun _ => onObjects_eq (.inl hl) fun _ => onOptional_eq hd fun _ => ?_
  rw [underConfig_eq hg, hm, onValue]

/-- Settles O42: an entry of the zone, the wing or the class table writes its one record, or is refused by the first of
its object numbers or values that does not stand. -/
theorem entriesOfZonesWingsAndClasses : Obligations.EntriesOfZonesWingsAndClasses := by
  intro s x hp hg
  have hc : ∀ {i}, Ready i s x → x.state.inService = false := fun h => taken_configuring h.2.1 hp
  refine ⟨fun z w h => ?_, fun z h => ?_, fun w f m spread desk h hm hl hd => ⟨fun hw hn => ?_, fun hbad => ?_⟩,
    fun z f h hbad => ?_, fun w f h => ⟨fun hbad => ?_, fun hw hl hd hm => ?_⟩,
    fun c f h => ⟨fun hle => ?_, fun hlt hbad => ?_⟩, fun c f kind tracking h hk ht => ?_⟩
  · have hu := modZone_onlyIn x.state z fun r => { r with configured := true, wing := w }
    refine (completes_of_within h rfl ?_ (Within.of_onlyIn hu (by decide)) (by decide)).mono fun t ⟨ht, hd, hch⟩ => ?_
    · simp only [doWriteEntryZone, configuringOnly_eq (hc h), underConfig_eq hg, onObject_val, done]
    obtain ⟨hz, hy⟩ := zones_of_modZone h.2.1 (ht.zone_eq (by decide))
    exact ⟨hz, hy, event_onlyIn h.2.1 hu ht, hd, hch⟩
  · refine (completes_of_entry h rfl ?_ (modZone_onlyIn x.state z fun r => { r with configured := false }) (by decide)
      (modZone_sameInputs rfl)).mono fun t ⟨ht, ho⟩ => ?_
    · simp only [doWriteEntryZone, configuringOnly_eq (hc h), underConfig_eq hg, onObject_val, done]
    obtain ⟨hz, hy⟩ := zones_of_modZone h.2.1 (ht.zone_eq (by decide))
    exact ⟨hz, hy, ho⟩
  · refine (completes_of_entry h rfl ?_ (modWing_onlyIn x.state w fun r =>
      { r with initialMode := m, staged := f.staged, spreadList := spread, evacDesk := desk }) (by decide)
      (modWing_sameInputs rfl)).mono fun t ⟨ht, ho⟩ => ?_
    · rw [doWriteEntryWing_eq (hc h) hg hm hl hd, decide_eq_true ⟨hw, hn⟩, need_true, done]
    obtain ⟨hv, hy⟩ := wings_of_modWing h.2.1 (ht.wing_eq (by decide))
    exact ⟨hv, hy, ho⟩
  · refine answersOnly_of_refused h rfl ?_
    rw [doWriteEntryWing_eq (hc h) hg hm hl hd, decide_eq_false (by tauto), need_false]
  · refine answersOnly_of_refused h rfl ?_
    rw [doWriteEntryZone, configuringOnly_eq (hc h)]
    rcases hbad with hz | ⟨w, rfl, hw⟩
    · exact onObject_of_le hz _
    · exact onObject_eq (.inr rfl) fun _ => onObject_of_le hw _
  · exact answersOnly_of_refused h rfl (doWriteEntryWing_badObject (hc h) hbad)
  · exact answersOnly_of_refused h rfl (doWriteEntryWing_badValue (hc h) hg hw hl hd hm)
  · refine answersOnly_of_refused h rfl ?_
    rw [doWriteEntryClass, configuringOnly_eq (hc h), onObject_of_le hle]
  · refine answersOnly_of_refused h rfl ?_
    rw [doWriteEntryClass, configuringOnly_eq (hc h)]
    refine onObject_eq (.inl hlt) fun _ => ?_
    rw [underConfig_eq hg]
    rcases hbad with hk | ht
    · rw [hk, onValue]
    · cases hk : f.kind with
      | none => rfl
      | some kind => rw [ht]; rfl
  · have hu : OnlyIn [Piece.classes] x.state
        { x.state with classes := x.state.classes.set c (classRecord kind tracking f) } :=
      onlyIn_of fun p => by cases p <;> simp [Same]
    refine (completes_of_entry h rfl ?_ hu (by decide) (SameInputs.of_onlyIn hu (by decide))).mono fun t ⟨hou, ho⟩ => ?_
    · simp only [doWriteEntryClass, configuringOnly_eq (hc h), underConfig_eq hg, onObject_val, hk, ht, onValue,
        doneApplied_eq]
    have hcls : ∀ y, t.cls y = if y = c then classRecord kind tracking f else s.cls y := fun y => by
      rw [hou.cls_eq (by decide), State.cls, Tbl.get_set, ← State.cls, taken_cls h.2.1]
    refine ⟨?_, fun y hy => ?_, ho⟩
    · rw [hcls, if_pos rfl, classRecord]
      cases f.window <;> cases kind <;> rfl
    · rw [hcls, if_neg hy]

end Sys2Proof.Machine
end

section
/-! The settings of wings and zones (O46). -/

set_option autoImplicit false

namespace Sys2Proof.Machine

variable {s u : State} {x : TakenRequest} {i : Instr} {act : Station → State → Verdict} {code : ReplyCode}
  {data : ReplyData} {ps : List Piece}

/-! ### The entry of a setting -/

section
variable (s) (changed : Bool) (subject : Subject) (wing : Option (Fin 4)) (name : SettingName)

theorem settingEntry_wing (v : Fin 4) : (settingEntry s changed subject wing name).wing v
    = if changed = true ∧ wing = some v then { s.wing v with revision := (s.wing v).revision + 1 } else s.wing v := by
  cases changed with
  | false => simp [settingEntry]
  | true => simp [settingEntry, append_wing]

theorem settingEntry_within : Within logward s (settingEntry s changed subject wing name) := by
  cases changed with
  | false => exact ⟨fun _ _ => Same.refl .., PortsQuiet.refl _⟩
  | true => exact append_within ..

theorem settingEntry_logged : Logged s (settingEntry s changed subject wing name)
    (if changed then [{ kind := .settingChanged, subject := subject, wing := wing, detail := .setting name }] else []) := by
  cases changed with
  | false => exact Logged.refl s
  | true => exact append_logged ..

theorem settingEntry_sameInputs : SameInputs s (settingEntry s changed subject wing name) := by
  cases changed with
  | false => exact {}
  | true => exact append_sameInputs ..

end

/-- The write of a setting that no door's precedence reads, with its entry where the value changes (R5). -/
theorem completes_of_setting {changed : Bool} {subject : Subject} {wing : Option (Fin 4)} {name : SettingName}
    (h : Ready i s x) (hx : exec i s = runCommand i act s)
    (ha : act x.port x.state = .taken (settingEntry u changed subject wing name) code data)
    (hu : OnlyIn ps x.state u) (hps : ∀ p ∈ [.ports, .log, .seconds] ++ endPieces, p ∉ ps)
    (hi : SameInputs x.state u) :
    Completes i s x code data fun t =>
      (∀ v, t.wing v = (settingEntry u changed subject wing name).wing v) ∧ (∀ z, t.zone z = u.zone z)
        ∧ Logged s t
          (if changed then [{ kind := .settingChanged, subject := subject, wing := wing, detail := .setting name }] else [])
        ∧ OnlyIn (ps ++ [.wings, .log] ++ answering) s t := by
  have he := settingEntry_within u changed subject wing name
  have hw : Within (ps ++ logward) x.state (settingEntry u changed subject wing name) :=
    ((Within.of_onlyIn hu (hps _ (by decide))).mono (by simp_all)).trans (he.mono (by simp_all))
  refine (completes_of_sameInputs h hx ha hw (fun p hp hm => ?_)
    (hi.trans (settingEntry_sameInputs ..))).mono fun t ht => ?_
  · rcases List.mem_append.mp hm with hm | hm
    · exact hps p (List.mem_append_right _ hp) hm
    · exact (by decide : ∀ p ∈ endPieces, p ∉ logward) p hp hm
  refine ⟨ht.wing_eq (by decide), fun z => ?_, ?_, ?_⟩
  · rw [ht.zone_eq (by decide), he.1.zone_eq (by decide)]
  · have hlog := hu .log (hps _ (by decide))
    have hl := (logged_nil hlog.1 hlog.2).trans (settingEntry_logged u changed subject wing name)
      (hu .seconds (hps _ (by decide)))
    exact (taken_logged h.2.1 hl).keep (ht .log (by decide))
  · refine (event_onlyIn (qs := []) h.2.1 hw.1 ht).mono fun p hp => ?_
    simp only [List.mem_append, logward, answering, outward, List.mem_cons] at hp ⊢
    tauto

/-! ### Authority and objects of a setting (R6) -/

theorem underSetting_pass {st : Station} {ok : Bool} (h : if s.inService then ok = true else st ≠ .guard) (k : Verdict) :
    underSetting s st ok k = k := by
  cases hs : s.inService <;> simp_all [underSetting, holdsConfig_eq]

theorem underSetting_refuse {st : Station} {ok : Bool} (h : if s.inService then ok = false else st = .guard)
    (k : Verdict) : underSetting s st ok k = .refused .notPermitted .none := by
  cases hs : s.inService <;> simp_all [underSetting, holdsConfig]

theorem onSettingZone_val {z : Fin 64} (h : s.inService = true → (s.zone z).configured = true) (k : Fin 64 → Verdict) :
    onSettingZone s z.val k = k z := by
  cases hs : s.inService <;> simp_all [onSettingZone]

theorem onSettingZone_badObject {n : Nat}
    (h : namesNone n fun k : Fin 64 => s.inService = false ∨ (s.zone k).configured = true) (k : Fin 64 → Verdict) :
    onSettingZone s n k = .refused .badObject .none := by
  simp only [onSettingZone, onObject]
  split
  next hn =>
    have hz := h ⟨n, hn⟩ rfl
    simp_all
  next => rfl

/-- In service a zone's setting wants a configured zone and the GUARD authority of its wing, in CONFIGURING the fire or the
services station (R6). -/
theorem zoneSetting_pass {z : Fin 64} (h : nextCommand s = some x)
    (hp : if s.inService then (s.zone z).configured = true ∧ holdsGuard s x.port (s.wingOf z) = true
      else x.port ≠ .guard) (k : Fin 64 → Verdict) :
    (onSettingZone x.state z.val fun z =>
      underSetting x.state x.port (holdsGuard x.state x.port (x.state.wingOf z)) (k z)) = k z := by
  rw [onSettingZone_val, underSetting_pass]
  · rw [taken_inService h, taken_holdsGuard h, taken_wingOf h]
    split at hp <;> simp_all
  · rw [taken_inService h, taken_zone h]
    split at hp <;> simp_all

theorem zoneSetting_refuse {z : Fin 64} (h : nextCommand s = some x)
    (hp : if s.inService then (s.zone z).configured = true ∧ holdsGuard s x.port (s.wingOf z) = false
      else x.port = .guard) (k : Fin 64 → Verdict) :
    (onSettingZone x.state z.val fun z =>
      underSetting x.state x.port (holdsGuard x.state x.port (x.state.wingOf z)) (k z))
      = .refused .notPermitted .none := by
  rw [onSettingZone_val, underSetting_refuse]
  · rw [taken_inService h, taken_holdsGuard h, taken_wingOf h]
    split at hp <;> simp_all
  · rw [taken_inService h, taken_zone h]
    split at hp <;> simp_all

/-! ### A wing's setting -/

/-- A setting of a wing in its range: the applied value, and the entry where it differs from the one that stood (R5). -/
theorem completes_of_wingSetting {w : Fin 4} {name : SettingName} {get : Wing → Nat} {put : Wing → Wing} {v a : Nat}
    (h : Ready i s x) (hx : exec i s = runCommand i act s)
    (ha : act x.port x.state = writeWingSetting x.state w name get put v a)
    (hput : (put (x.state.wing w)).doorReads = (x.state.wing w).doorReads) :
    Completes i s x (if v = a then .done else .doneAdjusted) (if v = a then .none else .applied [a]) fun t =>
      t.wing w = (if get (s.wing w) = a then put (s.wing w)
          else { put (s.wing w) with revision := (put (s.wing w)).revision + 1 })
        ∧ (∀ y, y ≠ w → t.wing y = s.wing y)
        ∧ Logged s t (if get (s.wing w) = a then [] else
          [{ kind := .settingChanged, subject := .wing w, wing := some w, detail := .setting name }])
        ∧ OnlyIn ([Piece.wings, .log] ++ answering) s t := by
  rw [writeWingSetting, doneApplied_eq] at ha
  simp only [List.cons.injEq, and_true] at ha
  refine (completes_of_setting h hx ha (modWing_onlyIn _ w put) (by decide) (modWing_sameInputs hput)).mono
    fun t ⟨hw, _, hl, ho⟩ => ⟨?_, fun y hy => ?_, ?_, ho.mono (by decide)⟩
  · rw [hw, settingEntry_wing, State.wing_modWing_self, taken_wing h.2.1]
    simp
  · rw [hw, settingEntry_wing, State.wing_modWing, if_neg hy, if_neg (by simp [hy.symm]), taken_wing h.2.1]
  · rw [taken_wing h.2.1] at hl
    simpa using hl

/-! ### A zone's setting -/

/-- The step that the applied vacancy period is: the first one at or above the value, the last where none is (R5). -/
theorem vacancyApplied_eq {v a : Nat} (hmem : a ∈ vacancySteps) (hle : v ≤ a ∨ a = 1800)
    (hmin : ∀ b ∈ vacancySteps, v ≤ b → a ≤ b) : vacancyApplied v = a := by
  rw [vacancyApplied]
  cases hf : vacancySteps.find? fun b => decide (v ≤ b) with
  | none =>
    have hnone : ∀ b ∈ vacancySteps, ¬ v ≤ b := by simpa using hf
    exact (hle.resolve_left (hnone a hmem)).symm
  | some b =>
    obtain ⟨hvb, before, after, hsteps, hbefore⟩ := List.find?_eq_some_iff_append.mp hf
    have hsorted : (before ++ b :: after).Pairwise (· ≤ ·) := hsteps ▸ (by decide : vacancySteps.Pairwise (· ≤ ·))
    have hb : b ∈ vacancySteps := by simp [hsteps]
    have hvb : v ≤ b := by simpa using hvb
    have hva : v ≤ a := hle.elim id fun h =>
      h ▸ hvb.trans ((by decide : ∀ b ∈ vacancySteps, b ≤ 1800) b hb)
    have hba : b ≤ a := by
      rw [hsteps, List.mem_append, List.mem_cons] at hmem
      rcases hmem with hm | rfl | hm
      · exact absurd hva (by simpa using hbefore a hm)
      · exact le_rfl
      · exact (List.pairwise_cons.mp (List.pairwise_append.mp hsorted).2.1).1 a hm
    exact le_antisymm hba (hmin b hb hvb)

theorem ActivityClasses.of_put (c : ActivityClasses) (source y : ActivitySource) (a : ActivityClass) :
    (c.put source a).of y = if y = source then a else c.of y := by
  cases source <;> cases y <;> rfl

/-- A setting of a zone: its record with the value, and the entry where the value changes (R5). -/
theorem completes_of_zoneSetting {z : Fin 64} {name : SettingName} {f : Zone → Zone} {same : Prop} [Decidable same]
    (h : Ready i s x) (hx : exec i s = runCommand i act s)
    (ha : act x.port x.state = .taken
      (settingEntry (x.state.modZone z f) (!decide same) (.zone z) (some (x.state.wingOf z)) name) code data)
    (hf : (f (x.state.zone z)).doorReads = (x.state.zone z).doorReads) :
    Completes i s x code data fun t =>
      t.zone z = f (s.zone z) ∧ (∀ y, y ≠ z → t.zone y = s.zone y)
        ∧ Logged s t (if same then [] else
          [{ kind := .settingChanged, subject := .zone z, wing := some (s.wingOf z), detail := .setting name }])
        ∧ OnlyIn ([Piece.zones, .wings, .log] ++ answering) s t := by
  refine (completes_of_setting h hx ha (modZone_onlyIn _ z f) (by decide) (modZone_sameInputs hf)).mono
    fun t ⟨_, hz, hl, ho⟩ => ?_
  obtain ⟨hself, hy⟩ := zones_of_modZone h.2.1 hz
  refine ⟨hself, hy, ?_, ho⟩
  rw [taken_wingOf h.2.1] at hl
  simpa using hl

/-- Settles O46: a setting in its range is written and logged where it changes, and refused without its authority, its
object or its class. -/
theorem wingAndZoneSettings : Obligations.WingAndZoneSettings := by
  intro s x
  refine ⟨fun w v a i name old new hi hp h => ?_, fun z v a hmem hle hmin hp h => ?_, fun z source c hp h => ?_,
    fun w v i hi h => ⟨fun hle => ?_, fun k hk hnp => ?_⟩, fun z v source c i hi h => ⟨fun hno => ?_, fun k hk hnp => ?_⟩,
    fun z source hp h => ?_⟩
  · have hs := taken_inService h.2.1
    rcases hi with ⟨rfl, rfl, rfl, rfl, rfl⟩ | ⟨rfl, rfl, rfl, rfl, rfl⟩ | ⟨rfl, rfl, rfl, rfl, rfl⟩
      | ⟨rfl, rfl, rfl, rfl, rfl⟩
    · refine completes_of_wingSetting (get := Wing.tAck) (put := fun r => { r with tAck := clamp 5 30 v }) h rfl ?_ rfl
      rw [doWriteSettingZoneWing, onObject_val, underSetting_pass (by simpa [hs, holdsFire] using hp)]
    · refine completes_of_wingSetting (get := Wing.tInv) (put := fun r => { r with tInv := clamp 30 300 v }) h rfl ?_ rfl
      rw [doWriteSettingZoneWing, onObject_val, underSetting_pass (by simpa [hs, holdsFire] using hp)]
    · refine completes_of_wingSetting (get := Wing.tSpread) (put := fun r => { r with tSpread := spreadApplied v }) h rfl ?_ rfl
      rw [doWriteSettingZoneWing, onObject_val, underSetting_pass (by simpa [hs, holdsFire] using hp)]
      rfl
    · refine completes_of_wingSetting (get := Wing.exitDelay) (put := fun r => { r with exitDelay := clamp 10 120 v }) h rfl ?_ rfl
      rw [doWriteSettingZoneWing, onObject_val, underSetting_pass (by simpa [hs, taken_holdsGuard h.2.1] using hp)]
  · obtain rfl := vacancyApplied_eq hmem hle hmin
    refine completes_of_zoneSetting (same := (s.zone z).vacancyPeriod = vacancyApplied v) (name := .vacancyPeriod)
      (f := fun r => { r with vacancyPeriod := vacancyApplied v }) h rfl ?_ rfl
    simp only [doWriteSettingZoneWing, zoneSetting_pass h.2.1 hp, doneApplied_eq, taken_zone h.2.1, List.cons.injEq, and_true,
      ne_eq, decide_not]
  · refine (completes_of_zoneSetting (z := z) (same := (s.zone z).classes.of source = c) (name := .activityClass source)
      (f := fun r => { r with classes := r.classes.put source c }) h rfl ?_ rfl).mono fun t ⟨hz, hy, hl, ho⟩ => ?_
    · simp only [doWriteSettingZoneWing, zoneSetting_pass h.2.1 hp, onValue, done, taken_zone h.2.1, ne_eq, decide_not]
    · refine ⟨?_, fun y hne => ?_, hy, hl, ho⟩
      · rw [hz, ActivityClasses.of_put, if_pos rfl]
      · rw [hz, ActivityClasses.of_put, if_neg hne]
  · refine answersOnly_of_refused h rfl ?_
    simp only [List.mem_cons, List.not_mem_nil, or_false] at hi
    rcases hi with rfl | rfl | rfl | rfl <;> rw [doWriteSettingZoneWing, onObject_of_le hle]
  · refine answersOnly_of_refused h rfl ?_
    have hs := taken_inService h.2.1
    subst hk
    simp only [List.mem_cons, List.not_mem_nil, or_false] at hi
    rcases hi with rfl | rfl | rfl | rfl <;> rw [doWriteSettingZoneWing, onObject_val] <;>
      exact underSetting_refuse (by simpa [hs, holdsFire, taken_holdsGuard h.2.1] using hnp) _
  · refine answersOnly_of_refused h rfl ?_
    rw [← taken_inService h.2.1] at hno
    simp only [← taken_zone h.2.1] at hno
    simp only [List.mem_cons, List.not_mem_nil, or_false] at hi
    rcases hi with rfl | rfl <;> rw [doWriteSettingZoneWing, onSettingZone_badObject hno]
  · refine answersOnly_of_refused h rfl ?_
    subst hk
    simp only [List.mem_cons, List.not_mem_nil, or_false] at hi
    rcases hi with rfl | rfl <;> rw [doWriteSettingZoneWing, zoneSetting_refuse h.2.1 hnp]
  · refine answersOnly_of_refused h rfl ?_
    simp only [doWriteSettingZoneWing, zoneSetting_pass h.2.1 hp, onValue]

end Sys2Proof.Machine
end

section
/-! SUPPORT. Every operation outside the Loop Scan Unit leaves the loops, their converters and the part state alone, adds to
the log without taking an entry back, and keeps the mismatch flag of every detector. -/

set_option autoImplicit false

namespace Sys2Proof.Machine

/-! ### The relation -/

/-- Every detector keeps its mirror-mismatch flag. -/
def MismatchKept (s t : State) : Prop :=
  ∀ n d, s.detector n = some d → ∃ e, t.detector n = some e ∧ e.mismatch = d.mismatch

theorem MismatchKept.refl (s : State) : MismatchKept s s := fun _ d h => ⟨d, h, rfl⟩

theorem MismatchKept.trans {s t u : State} (h : MismatchKept s t) (k : MismatchKept t u) : MismatchKept s u :=
  fun n d hd => by
    obtain ⟨e, he, hm⟩ := h n d hd
    obtain ⟨f, hf, hn⟩ := k n e he
    exact ⟨f, hf, hn.trans hm⟩

theorem MismatchKept.of_same {s t : State} (h : Same s t .detectors) : MismatchKept s t := fun n d hd =>
  ⟨d, by rw [State.detector, show t.detectors = s.detectors from h]; exact hd, rfl⟩

theorem putDetector_mismatchKept {s : State} {n : Fin 192} {d new : Detector} (h : s.detector n = some d)
    (hm : new.mismatch = d.mismatch) : MismatchKept s (s.putDetector n (some new)) := fun m e he => by
  rw [State.detector_putDetector]
  by_cases hmn : m = n
  · subst hmn
    rw [h] at he
    cases he
    exact ⟨new, if_pos rfl, hm⟩
  · exact ⟨e, by rw [if_neg hmn, he], rfl⟩

theorem mapDetectors_mismatchKept {s : State} {f : Detector → Detector} (h : ∀ d, (f d).mismatch = d.mismatch) :
    MismatchKept s { s with detectors := s.detectors.map fun d => d.map f } := fun n d hd =>
  ⟨f d, by rw [State.detector, Tbl.get_map, ← State.detector, hd]; rfl, h d⟩

/-- Two states in a row whose log only grows. -/
def LogGrows (s t : State) : Prop := t.seconds = s.seconds ∧ ∃ xs, Logged s t xs

theorem LogGrows.refl (s : State) : LogGrows s s := ⟨rfl, [], Logged.refl s⟩

theorem LogGrows.trans {s t u : State} (h : LogGrows s t) (k : LogGrows t u) : LogGrows s u := by
  obtain ⟨hs, xs, hx⟩ := h
  obtain ⟨ks, ys, hy⟩ := k
  exact ⟨ks.trans hs, xs ++ ys, hx.trans hy hs⟩

/-- A change of other pieces than the clock and the log logs nothing. -/
theorem LogGrows.of_onlyIn {ps : List Piece} {s t : State} (h : OnlyIn ps s t)
    (hp : ∀ p ∈ [Piece.seconds, .log], p ∉ ps) : LogGrows s t :=
  have hl := h .log (hp _ (by decide))
  ⟨h .seconds (hp _ (by decide)), [], logged_nil hl.1 hl.2⟩

theorem LogGrows.foldl {α : Type} {f : State → α → State} (h : ∀ s x, LogGrows s (f s x)) :
    ∀ (xs : List α) (s : State), LogGrows s (xs.foldl f s)
  | [], s => LogGrows.refl s
  | x :: xs, s => (h s x).trans (LogGrows.foldl h xs (f s x))

theorem append_logGrows (s : State) (k : EntryKind) (x : Subject) (w : Option (Fin 4)) (d : Detail) :
    LogGrows s (append s k x w d) := ⟨append_seconds .., _, append_logged ..⟩

/-- What an operation outside the Loop Scan Unit leaves of the loops, of the log and of the mismatch flags. -/
structure Aside (s t : State) : Prop where
  part : t.part = s.part
  loops : t.loops = s.loops
  converterA : t.converterA = s.converterA
  converterB : t.converterB = s.converterB
  log : LogGrows s t
  mismatch : MismatchKept s t

/-- The fields of a state that `Aside` speaks of, but for the detectors. -/
def State.scanReads (s : State) : PartState × Tbl 4 Loop × Holder × Holder × Seconds × List Entry × Nat :=
  (s.part, s.loops, s.converterA, s.converterB, s.seconds, s.log, s.nextSequence)

/-- A change of detectors that keeps their mismatch flags, and of other fields. -/
theorem Aside.of_reads {s t : State} (h : t.scanReads = s.scanReads) (hm : MismatchKept s t) : Aside s t := by
  simp only [State.scanReads, Prod.mk.injEq] at h
  obtain ⟨hp, hl, ha, hb, hs, hg, hn⟩ := h
  exact ⟨hp, hl, ha, hb, ⟨hs, [], logged_nil hg hn⟩, hm⟩

/-- A change of other fields. -/
theorem Aside.same {s t : State} (h : (t.scanReads, t.detectors) = (s.scanReads, s.detectors)) : Aside s t := by
  rw [Prod.mk.injEq] at h
  exact .of_reads h.1 (.of_same h.2)

theorem Aside.refl (s : State) : Aside s s := .same rfl

theorem Aside.trans {s t u : State} (h : Aside s t) (k : Aside t u) : Aside s u :=
  ⟨k.part.trans h.part, k.loops.trans h.loops, k.converterA.trans h.converterA, k.converterB.trans h.converterB,
    h.log.trans k.log, h.mismatch.trans k.mismatch⟩

theorem Aside.foldl {α : Type} {f : State → α → State} (h : ∀ s x, Aside s (f s x)) :
    ∀ (xs : List α) (s : State), Aside s (xs.foldl f s)
  | [], s => Aside.refl s
  | x :: xs, s => (h s x).trans (Aside.foldl h xs (f s x))

theorem Aside.ite {c : Prop} [Decidable c] {s t u : State} (ht : Aside s t) (hu : Aside s u) :
    Aside s (if c then t else u) := by
  split
  · exact ht
  · exact hu

/-- The pieces that `Aside` speaks of. -/
def asidePieces : List Piece := [.part, .loops, .converters, .seconds, .log, .detectors]

/-- A change of other pieces. -/
theorem Aside.of_onlyIn {ps : List Piece} {s t : State} (h : OnlyIn ps s t) (hp : ∀ p ∈ asidePieces, p ∉ ps) :
    Aside s t :=
  have hc := h .converters (hp _ (by decide))
  { part := h .part (hp _ (by decide)), loops := h .loops (hp _ (by decide)), converterA := hc.1, converterB := hc.2
    log := .of_onlyIn h fun p hq => hp p (by revert p; decide)
    mismatch := .of_same (h .detectors (hp _ (by decide))) }

theorem append_aside (s : State) (k : EntryKind) (x : Subject) (w : Option (Fin 4)) (d : Detail) :
    Aside s (append s k x w d) :=
  have h := append_onlyIn s k x w d
  have hc := h .converters (by decide)
  { part := h .part (by decide), loops := h .loops (by decide), converterA := hc.1, converterB := hc.2
    log := append_logGrows ..
    mismatch := .of_same (h .detectors (by decide)) }

/-- A change with the entry of it. -/
theorem Aside.append {s t : State} (h : Aside s t) (k : EntryKind) (x : Subject) (w : Option (Fin 4)) (d : Detail) :
    Aside s (append t k x w d) := h.trans (append_aside ..)

theorem writeSource_aside (s : State) (n : Fin 276) (v : ChannelValue) : Aside s (writeSource s n v) := .same rfl

theorem appendDoor_aside (s : State) (k : EntryKind) (n : Fin 48) (d : Detail) : Aside s (appendDoor s k n d) := by
  simp only [appendDoor]
  split
  · exact Aside.ite (append_aside ..) ((append_aside ..).append ..)
  · exact append_aside ..

/-! ### Presence and arming (chapter 5) -/

/-- A zone's security state is written with its entry. -/
theorem setSecurity_append_aside (s : State) (z : Fin 64) (x : Security) (k : EntryKind) (d : Detail) :
    Aside s (appendZone (setSecurity s z x) k z d) := Aside.append (.same (by rfl)) ..

theorem securityTakes_aside (s : State) (z : Fin 64) (a : ActivitySource) : Aside s (securityTakes s z a) := by
  simp only [securityTakes]
  split
  · exact setSecurity_append_aside ..
  · split
    · exact setSecurity_append_aside ..
    all_goals exact .same rfl
  all_goals exact .same rfl

theorem takeActivity_aside (s : State) (z : Fin 64) (a : ActivitySource) : Aside s (takeActivity s z a) := by
  simp only [takeActivity]
  split
  · split
    · exact .same rfl
    · exact Aside.trans (.same (by rfl)) (securityTakes_aside ..)
    · exact Aside.trans (.same (by rfl)) (securityTakes_aside ..)
  · exact .same rfl

theorem takeActivities_aside (s : State) (zs : List (Fin 64)) (a : ActivitySource) :
    Aside s (takeActivities s zs a) := Aside.foldl (fun t z => takeActivity_aside t z a) zs s

theorem takeDoorEvent_aside (s : State) (z : Fin 64) (b : BreachSource) : Aside s (takeDoorEvent s z b) := by
  simp only [takeDoorEvent]
  split
  · exact setSecurity_append_aside ..
  all_goals exact .same rfl

theorem suspendZone_aside (c : SuspendCause) (s : State) (z : Fin 64) : Aside s (suspendZone c s z) := by
  simp only [suspendZone]
  split
  · exact setSecurity_append_aside ..
  · exact setSecurity_append_aside ..
  all_goals exact .same rfl

theorem restoreZone_aside (s : State) (z : Fin 64) : Aside s (restoreZone s z) := by
  simp only [restoreZone]
  split
  · split <;> exact setSecurity_append_aside ..
  all_goals exact .same rfl

theorem takeTransit_aside (s : State) (z : Fin 64) : Aside s (takeTransit s z) :=
  Aside.ite (suspendZone_aside ..) (Aside.ite (restoreZone_aside ..) (.same (by rfl)))

/-! ### Calls (chapter 7) -/

theorem setCall_aside (s : State) (c : Fin 64) (h : HelpCall) : Aside s (setCall s c h) := .same rfl

theorem setLamp_aside (s : State) (c : Fin 64) (v : ChannelValue) : Aside s (setLamp s c v) := .same rfl

theorem enqueueCall_aside (s : State) (c : Fin 64) : Aside s (enqueueCall s c) := .same rfl

theorem dequeueCall_aside (s : State) (c : Fin 64) : Aside s (dequeueCall s c) := .same rfl

theorem modZone_aside (s : State) (z : Fin 64) (f : Zone → Zone) : Aside s (s.modZone z f) := .same rfl

theorem leaveDesk_aside (s : State) (k : Fin 8) (c : Fin 64) : Aside s (leaveDesk s k c) := .same rfl

theorem offerOne_aside (s : State) (c : Fin 64) : Aside s (offerOne s c) := by
  simp only [offerOne]
  split
  · split
    · split
      · exact Aside.append (.same (by rfl)) ..
      · exact .same rfl
    all_goals exact .same rfl
  · exact .same rfl

theorem offeringRound_aside (s : State) : Aside s (offeringRound s) := Aside.foldl offerOne_aside _ s

/-- A change followed by an offering round. -/
theorem Aside.round {s t : State} (h : Aside s t) : Aside s (offeringRound t) := h.trans (offeringRound_aside t)

theorem withdrawCall_aside (s : State) (c : Fin 64) (h : HelpCall) (k : Fin 8) (n : Place) :
    Aside s (withdrawCall s c h k n) := Aside.append (.same (by rfl)) ..

/-- A call's new record takes its place in the queue, and an entry is appended. -/
theorem moveCall_aside (s : State) (c : Fin 64) (h : HelpCall) (k : EntryKind) (d : Detail) :
    Aside s (appendPoint (enqueueCall (setCall s c h) c) k c d) := Aside.append (.same (by rfl)) ..

theorem evacuateCall_aside (w : Fin 4) (s : State) (c : Fin 64) : Aside s (evacuateCall w s c) := by
  simp only [evacuateCall]
  split
  · exact .same rfl
  · split
    · exact (moveCall_aside ..).trans (setCall_aside ..)
    · split
      · exact (moveCall_aside ..).trans (setCall_aside ..)
      · exact (moveCall_aside ..).trans (withdrawCall_aside ..)
    · exact moveCall_aside ..

theorem offerAfterEvacuation_aside (b s : State) : Aside s (offerAfterEvacuation b s) :=
  Aside.ite (offeringRound_aside s) (.same (by rfl))

theorem standDownCall_aside (s : State) (c : Fin 64) : Aside s (standDownCall s c) := by
  simp only [standDownCall]
  split
  · exact .same rfl
  · split
    · exact moveCall_aside ..
    all_goals exact .same rfl

theorem withdrawLost_aside (st : Station) (s : State) (c : Fin 64) : Aside s (withdrawLost st s c) := by
  simp only [withdrawLost]
  split
  · split
    · exact Aside.ite (withdrawCall_aside ..) (.same (by rfl))
    all_goals exact .same rfl
  · exact .same rfl

theorem requeueLost_aside (st : Station) (s : State) (c : Fin 64) : Aside s (requeueLost st s c) := by
  simp only [requeueLost]
  split
  · split
    · exact Aside.ite (Aside.append (.same (by rfl)) ..) (.same (by rfl))
    all_goals exact .same rfl
  · exact .same rfl

theorem loseDesks_aside (s : State) (st : Station) : Aside s (loseDesks s st) :=
  ((Aside.foldl (withdrawLost_aside st) _ s).trans (Aside.foldl (requeueLost_aside st) _ _)).round

theorem raiseCall_aside (s : State) (c : Fin 64) : Aside s (raiseCall s c) :=
  Aside.round <| Aside.trans
    (((((setCall_aside ..).trans (setLamp_aside ..)).trans (enqueueCall_aside ..)).trans (modZone_aside ..)).append ..)
    (takeActivity_aside ..)

theorem pressAgain_aside (s : State) (c : Fin 64) (h : HelpCall) : Aside s (pressAgain s c h) :=
  (Aside.ite (moveCall_aside ..) (setCall_aside ..)).trans (takeActivity_aside ..)

theorem lapseOffer_aside (s : State) (c : Fin 64) (h : HelpCall) (k : Fin 8) : Aside s (lapseOffer s c h k) :=
  ((leaveDesk_aside s k c).trans (moveCall_aside ..)).round

theorem acceptOffer_aside (s : State) (c : Fin 64) (h : HelpCall) (k : Fin 8) : Aside s (acceptOffer s c h k) :=
  Aside.round (Aside.append (.same (by rfl)) ..)

/-- A cleared call leaves its desk, its point, the queue and the count of its zone (R125). -/
theorem clearActive_aside (s : State) (c : Fin 64) (h : HelpCall) (st : Station) : Aside s (clearActive s c h st) := by
  have rest : ∀ {t : State}, Aside s t →
      Aside s (appendPoint ((dequeueCall (setLamp (t.modPoint c fun p => { p with state := .idle }) c .off) c).modZone
        (s.point c).zone fun r => { r with activeCalls := r.activeCalls - 1 }) .callCleared c (.station st)) :=
    fun {t} k => (((k.trans (u := t.modPoint c fun p => { p with state := .idle }) (.same (by rfl))).trans
      ((setLamp_aside ..).trans (dequeueCall_aside ..))).trans (modZone_aside ..)).append ..
  simp only [clearActive]
  split
  · exact (rest (leaveDesk_aside ..)).round
  · exact rest (.same (by rfl))
  · exact rest (.same (by rfl))

/-! ### The output stage (chapter 9) -/

theorem maintain_aside (s : State) (first count : Nat) (k : EntryKind) (stands : Channel → Bool)
    (f : Channel → Channel) : Aside s (maintain s first count k stands f) :=
  Aside.trans (t := changeRange s first count stands f) (.same rfl)
    (Aside.foldl (fun _ _ => Aside.ite (.same (by rfl)) (append_aside ..)) _ _)

theorem breakHolds_aside (s : State) (w : Fin 4) : Aside s (breakHolds s w) := by
  simp only [breakHolds]
  split <;> split
  · exact .same rfl
  · exact Aside.append (.same (by rfl)) ..
  · exact Aside.append (.same (by rfl)) ..
  · exact (Aside.append (.same (by rfl)) ..).append ..

/-! ### The fire sequence (chapter 4) -/

theorem trigger_aside (s : State) : Aside s (trigger s) := .of_onlyIn (trigger_onlyIn s) (by decide)

theorem writeFire_aside (s : State) (z : Fin 64) (f : FireState) : Aside s (writeFire s z f) :=
  .of_onlyIn (writeFire_within s z f).1 (by decide)

theorem deriveFire_aside (s : State) (z : Fin 64) : Aside s (deriveFire s z) :=
  Aside.ite (.same rfl) (writeFire_aside ..)

theorem sound_aside (s : State) (w : Fin 4) : Aside s (sound s w) := .same rfl

/-- A change of a wing's record with its entry and the value of its sounder. -/
theorem soundAfter_aside (s : State) (w : Fin 4) (f : Wing → Wing) (k : EntryKind) (d : Detail) :
    Aside s (sound (appendWing (s.modWing w f) k w d) w) := (Aside.append (.same (by rfl)) ..).trans (sound_aside ..)

theorem alertWing_aside (v : Fin 4) (s : State) (w : Fin 4) : Aside s (alertWing v s w) :=
  Aside.ite (soundAfter_aside ..) (.same (by rfl))

theorem endAlert_aside (v : Fin 4) (s : State) (w : Fin 4) : Aside s (endAlert v s w) :=
  Aside.ite (soundAfter_aside ..) (.same (by rfl))

theorem endTest_aside (c : TestEndCause) (s : State) (z : Fin 64) : Aside s (endTest c s z) := by
  have disarmed : ∀ d : Detector, (if d.zone = z then { d with testArmed := none } else d).mismatch = d.mismatch :=
    fun d => by split <;> rfl
  have h : Aside s (appendZone
      { s.modZone z fun r => { r with testTimer := none } with
        detectors := s.detectors.map fun d => d.map fun d => if d.zone = z then { d with testArmed := none } else d }
      .testEnded z (.testEnd c)) :=
    ((modZone_aside s z _).trans (.of_reads (by rfl) (mapDetectors_mismatchKept disarmed))).append ..
  exact Aside.ite (Aside.ite h (h.trans (trigger_aside _))) (.same (by rfl))

theorem changeStage_aside (s : State) (w : Fin 4) (x : Stage) (c : StageCause) : Aside s (changeStage s w x c) :=
  Aside.append (.same (by rfl)) ..

theorem leaveStandby_aside (s : State) (w : Fin 4) : Aside s (leaveStandby s w) :=
  (((breakHolds_aside s w).trans (Aside.foldl (suspendZone_aside .stage) _ _)).trans
    (Aside.ite (Aside.append (.same (by rfl)) ..) (.same (by rfl)))).trans (Aside.foldl (endTest_aside .stage) _ _)

theorem setEgress_aside (s : State) (w : Fin 4) (x : Bool) : Aside s (setEgress s w x) :=
  .of_onlyIn (setEgress_within s w x).1 (by decide)

theorem clearAlerted_aside (s : State) (w : Fin 4) : Aside s (clearAlerted s w) := .same rfl

theorem enterAckWait_aside (s : State) (w : Fin 4) : Aside s (enterAckWait s w) :=
  (((changeStage_aside ..).trans (leaveStandby_aside ..)).trans (clearAlerted_aside ..)).trans (sound_aside ..)

theorem enterEvacuate_aside (s : State) (w : Fin 4) (c : StageCause) : Aside s (enterEvacuate s w c) := by
  have left : Aside s (if s.atStandby w then clearAlerted (leaveStandby (changeStage s w .evacuate c) w) w
      else changeStage s w .evacuate c) :=
    Aside.ite (((changeStage_aside ..).trans (leaveStandby_aside ..)).trans (clearAlerted_aside ..)) (changeStage_aside ..)
  have loaded : ∀ (t : State) (f : Wing → Wing), Aside t (t.modWing w f) := fun _ _ => (.same (by rfl))
  exact ((((left.trans (setEgress_aside _ w true)).trans (loaded _ _)).trans (Aside.foldl (evacuateCall_aside w) _ _)).trans
    (sound_aside _ w)).trans (Aside.foldl (alertWing_aside w) _ _)

theorem returnEffects_aside (s : State) (w : Fin 4) (left : StageName) : Aside s (returnEffects s w left) := by
  have alerted : ∀ {t : State} (vs : List (Fin 4)), Aside s t →
      Aside s (match vs with | v :: _ => alertWing v t w | [] => t) := fun {t} vs k => by
    cases vs with
    | nil => exact k
    | cons v _ => exact k.trans (alertWing_aside v t w)
  have h2 : Aside s (setEgress (s.modWing w fun r => { r with spreadTimer := none, silenced := false }) w false) :=
    Aside.trans (.same (by rfl)) (setEgress_aside ..)
  exact (((alerted _ (Aside.ite (h2.trans (Aside.foldl (endAlert_aside w) _ _)) h2)).trans (sound_aside _ w)).trans
    (Aside.foldl restoreZone_aside _ _)).trans (Aside.foldl standDownCall_aside _ _)

theorem stageTakes_aside (s : State) (w : Fin 4) (o : AlarmOrigin) (several fresh : Bool) :
    Aside s (stageTakes s w o several fresh) := by
  simp only [stageTakes]
  split
  · exact Aside.ite (enterAckWait_aside ..) (enterEvacuate_aside ..)
  · exact enterEvacuate_aside ..
  · exact enterEvacuate_aside ..
  · exact .same rfl

theorem resound_aside (s : State) (w : Fin 4) (z : Fin 64) : Aside s (resound s w z) :=
  Aside.ite (soundAfter_aside ..) (.same (by rfl))

theorem zoneAlarm_aside (s : State) (z : Fin 64) (o : AlarmOrigin) (several : Bool) :
    Aside s (zoneAlarm s z o several) :=
  Aside.ite (stageTakes_aside ..)
    ((((writeFire_aside ..).append ..).trans (resound_aside ..)).trans (stageTakes_aside ..))

theorem fireCall_aside (s : State) (c : Fin 64) : Aside s (fireCall s c) := by
  refine (Aside.append ?_ ..).trans (zoneAlarm_aside ..)
  split
  all_goals exact .same rfl

theorem resetOneZone_aside (s : State) (z : Fin 64) : Aside s (resetOneZone s z) := by
  refine Aside.append (Aside.trans (Aside.trans (t := { s with
    detectors := s.detectors.map fun d => d.map fun d => if d.zone = z then d.resetAlarm else d }) ?_ ?_)
    (writeFire_aside ..)) ..
  · refine (.of_reads (by rfl) (mapDetectors_mismatchKept fun d => ?_))
    split
    · unfold Detector.resetAlarm; split <;> rfl
    · rfl
  · exact Aside.foldl (fun _ _ => (.same (by rfl))) _ _

/-! ### Detectors (chapter 3) -/

theorem followImpaired_aside (s : State) (z : Fin 64) (was now : Bool) : Aside s (followImpaired s z was now) :=
  .of_onlyIn (followImpaired_eq s z was now).2 (by decide)

theorem putDetector_aside {s : State} {n : Fin 192} {d new : Detector} (h : s.detector n = some d)
    (hm : new.mismatch = d.mismatch) : Aside s (s.putDetector n (some new)) :=
  (.of_reads (by rfl) (putDetector_mismatchKept h hm))

theorem writeDetector_aside {s : State} {n : Fin 192} {d new : Detector} (h : s.detector n = some d)
    (hm : new.mismatch = d.mismatch) (old : Detector) : Aside s (writeDetector s n old new) :=
  (putDetector_aside h hm).trans (followImpaired_aside ..)

theorem abortVerify_aside (s : State) (n : Fin 192) (d : Detector) (c : AbortCause) : Aside s (abortVerify s n d c) :=
  Aside.ite (append_aside ..) (.same (by rfl))

/-- A detector leaves its state, its verification cancelled first (R48). -/
theorem abortVerify_writeDetector_aside {s : State} {n : Fin 192} {d new : Detector} (c : AbortCause)
    (h : s.detector n = some d) (hm : new.mismatch = d.mismatch) :
    Aside s (writeDetector (abortVerify s n d c) n d new) :=
  (abortVerify_aside ..).trans (writeDetector_aside ((abortVerify_detector ..).trans h) hm d)

theorem enterFault_aside {s : State} {n : Fin 192} {old d : Detector} (k : FaultKind) (h : s.detector n = some old)
    (hm : d.mismatch = old.mismatch) : Aside s (enterFault s n old d k) := by
  have hw := abortVerify_writeDetector_aside (new :=
    { d with
      state := .fault k, level := none, riseRun := 0, testArmed := d.testArmed.map fun _ => false }) .fault h hm
  exact (hw.append ..).trans (deriveFire_aside ..)

theorem takeMissed_aside {s : State} {n : Fin 192} {d : Detector} (h : s.detector n = some d) :
    Aside s (takeMissed s n d) := by
  simp only [takeMissed]
  split
  · exact putDetector_aside h rfl
  all_goals exact Aside.ite (putDetector_aside h rfl) (enterFault_aside _ h rfl)

theorem takeFaultCode_aside {s : State} {n : Fin 192} {d : Detector} (k : FaultKind) (h : s.detector n = some d) :
    Aside s (takeFaultCode s n d k) := by
  simp only [takeFaultCode]
  split
  · exact putDetector_aside h rfl
  all_goals exact enterFault_aside _ h rfl

theorem promote_aside (s : State) (n : Fin 192) : Aside s (promote s n) := by
  simp only [promote]
  split
  next d h => exact (writeDetector_aside h (by rfl) d).append ..
  next => exact .same rfl

theorem afterMove_aside (s : State) (n : Fin 192) (z : Fin 64) (old new : DetectorState) :
    Aside s (afterMove s n z old new) := by
  simp only [afterMove]
  split
  · exact (Aside.foldl promote_aside _ s).trans (deriveFire_aside ..)
  · exact (Aside.foldl promote_aside _ s).trans (zoneAlarm_aside ..)

theorem track_aside (s : State) (n : Fin 192) (raw : Nat) : Aside s (track s n raw) := by
  simp only [track]
  split
  next d h => exact Aside.ite ((putDetector_aside h (by rfl)).append ..) (putDetector_aside h (by rfl))
  next => exact .same rfl

theorem evaluate_aside {s : State} {n : Fin 192} {old d : Detector} (fresh : Bool) (raw : Nat)
    (h : s.detector n = some old) (hm : d.mismatch = old.mismatch) : Aside s (evaluate s n old d fresh raw) := by
  unfold evaluate
  have moved : ∀ {t : State} (e : Option (EntryKind × Detail)), Aside s t →
      Aside s (match e with | some (k, x) => appendDetector t k n d.zone x | none => t) := fun e ht => by
    cases e with
    | none => exact ht
    | some kx => exact ht.append ..
  have written : ∀ new : Detector, new.mismatch = d.mismatch → Aside s (writeDetector s n old new) := fun new hn =>
    writeDetector_aside h (hn.trans hm) old
  refine Aside.ite ?_ (Aside.ite (Aside.trans ?_ (track_aside ..)) ?_)
  · exact (Aside.ite ((written _ (by rfl)).append ..) (written _ (by rfl))).trans (afterMove_aside ..)
  all_goals exact (moved _ (written _ (by rfl))).trans (afterMove_aside ..)

theorem takeValid_aside {s : State} {n : Fin 192} {d : Detector} (raw : Nat) (h : s.detector n = some d) :
    Aside s (takeValid s n d raw) := by
  simp only [takeValid]
  split
  · exact evaluate_aside _ _ h rfl
  · exact Aside.ite (putDetector_aside h rfl)
      ((append_aside ..).trans (evaluate_aside _ _ ((append_detector ..).trans h) rfl))
  case h_7 => exact .same rfl
  all_goals exact evaluate_aside _ _ h rfl

/-- A reading reaches neither a loop nor a mismatch flag, and adds to the log (R41). -/
theorem takeReading_aside (s : State) (n : Fin 192) (r : Reading) : Aside s (takeReading s n r) := by
  simp only [takeReading]
  split
  next => exact .same rfl
  next d h =>
    split
    · exact .same rfl
    · split
      · exact takeMissed_aside h
      · exact takeFaultCode_aside _ h
      · exact takeValid_aside _ h

theorem verifyExpires_aside {s : State} {n : Fin 192} {d : Detector} (h : s.detector n = some d) :
    Aside s (verifyExpires s n d) :=
  ((writeDetector_aside h (by rfl) d).append ..).trans (afterMove_aside ..)

theorem startTestOn_aside (s : State) (n : Fin 192) : Aside s (startTestOn s n) := by
  simp only [startTestOn]
  split
  next => exact .same rfl
  next d h =>
    have put : ∀ new : Detector, new.mismatch = d.mismatch →
        Aside s ((abortVerify s n d .test).putDetector n (some new)) := fun new hn =>
      (abortVerify_aside ..).trans (putDetector_aside ((abortVerify_detector ..).trans h) hn)
    split <;> exact put _ rfl

theorem startTest_aside (s : State) (z : Fin 64) : Aside s (startTest s z) := by
  have h := fun t => (Aside.foldl startTestOn_aside (t.detectorsOf z fun _ => true) t).append .testStarted (.zone z)
  exact Aside.trans (Aside.ite (Aside.trans (.same (by rfl)) (h _ _ _))
    ((Aside.trans (.same (by rfl)) (h _ _ _)).trans (trigger_aside _)))
    (deriveFire_aside ..)

/-! ### The doors (chapter 6) -/

theorem handDoorEvent_aside (s : State) (n : Fin 48) (b : BreachSource) : Aside s (handDoorEvent s n b) :=
  Aside.foldl (fun t z => takeDoorEvent_aside t z b) _ s

/-- A change of a door's record with the entry of it. -/
theorem modDoor_appendDoor_aside (s : State) (n : Fin 48) (f : Door → Door) (k : EntryKind) (d : Detail) :
    Aside s (appendDoor (s.modDoor n f) k n d) := Aside.trans (.same (by rfl)) (appendDoor_aside ..)

theorem openDoor_aside (s : State) (n : Fin 48) : Aside s (openDoor s n) :=
  Aside.ite (Aside.trans (.same (by rfl)) (handDoorEvent_aside ..))
    ((modDoor_appendDoor_aside ..).trans (handDoorEvent_aside ..))

theorem closeDoor_aside (s : State) (n : Fin 48) : Aside s (closeDoor s n) := by
  simp only [closeDoor]
  split
  · exact modDoor_appendDoor_aside ..
  · exact Aside.trans (.same (by rfl)) (takeActivities_aside ..)
  · exact Aside.trans (.same (by rfl)) (takeActivities_aside ..)
  all_goals exact .same rfl

theorem clearFaultReport_aside (s : State) (n : Fin 48) : Aside s (clearFaultReport s n) :=
  Aside.ite (modDoor_appendDoor_aside ..) (.same (by rfl))

theorem leaveFault_aside (s : State) (n : Fin 48) : Aside s (leaveFault s n) := by
  simp only [leaveFault]
  split
  · exact Aside.trans (.same (by rfl)) (clearFaultReport_aside ..)
  · exact Aside.ite (Aside.trans (.same (by rfl)) (clearFaultReport_aside ..))
      (((modDoor_appendDoor_aside ..).trans (handDoorEvent_aside ..)).trans (clearFaultReport_aside ..))
  · exact .same rfl

theorem contactChange_aside (s : State) (n : Fin 48) (x : Contact) : Aside s (contactChange s n x) := by
  simp only [contactChange]
  split
  · exact Aside.trans (.same (by rfl)) (modDoor_appendDoor_aside ..)
  · exact Aside.ite (.same (by rfl)) (Aside.trans (.same (by rfl)) (leaveFault_aside ..))
  · exact Aside.trans (.same (by rfl)) (modDoor_appendDoor_aside ..)
  · exact openDoor_aside ..
  · exact closeDoor_aside ..

theorem lineFaultChange_aside (s : State) (n : Fin 48) (faulty : Bool) : Aside s (lineFaultChange s n faulty) :=
  Aside.ite (modDoor_appendDoor_aside ..) (Aside.ite (leaveFault_aside ..) (.same (by rfl)))

theorem restDoor_aside (s : State) (n : Fin 48) : Aside s (restDoor s n) := Aside.ite (.same (by rfl)) (.same (by rfl))

/-! ### The routes (chapter 8) and the end of an event -/

theorem writeSelection_aside (g : List (Fin 64 × List Selection)) (s : State) (z : Fin 64) :
    Aside s (writeSelection g s z) := by
  simp only [writeSelection]
  split
  · exact Aside.append (.same (by rfl)) ..
  · exact Aside.append (.same (by rfl)) ..
  · exact .same rfl

theorem writeSign_aside (v : View) (sel : List Selection) (s : State) (g : Fin 96) : Aside s (writeSign v sel s g) :=
  Aside.ite (.same (by rfl)) (.same (by rfl))

theorem passEnd_aside (s : State) (v : View) (again : Bool) : Aside s (passEnd s v again) := by
  have transits : ∀ (t : State) (f : Fin 64 → Nat),
      Aside t { t with zones := t.zones.mapIdx fun z r => r.withTransit (f z) } := fun _ _ => (.same (by rfl))
  have claims : ∀ (t : State) (f : Fin 48 → Nat),
      Aside t { t with doors := t.doors.mapIdx fun n (d : Door) => d.withClaims (f n) } := fun _ _ => (.same (by rfl))
  have engine : ∀ (t : State) (e : RouteEngine), Aside t { t with engine := e } := fun _ _ => (.same (by rfl))
  exact ((((((Aside.foldl (writeSelection_aside _) _ s).trans (transits _ _)).trans
    (Aside.foldl takeTransit_aside _ _)).trans (Aside.foldl (writeSign_aside v _) _ _)).trans
    (Aside.foldl (fun t z => writeSource_aside ..) _ _)).trans (claims _ _)).trans (engine _ _)

theorem endEvent_aside (b s : State) : Aside s (endEvent b s) := .of_onlyIn (endEvent_onlyIn b s) (by decide)

end Sys2Proof.Machine
end

section
/-! SUPPORT. What the work of a scan on its detectors reaches: the requests that wait on a loop (R36) and the records of
detectors that a restart touches (R33) change no input of a door, and leave the ports quiet. -/

set_option autoImplicit false

namespace Sys2Proof.Machine

/-! ### The inputs of the doors, as far as a fire state goes -/

/-- What the doors' precedences read of a zone: of its fire state whether it is ALARM (R102, R104). -/
def Zone.lineReads (r : Zone) : Fin 4 × Bool × Occupancy × Security := (r.wing, r.fire.inAlarm, r.occupancy, r.security)

/-- What the end of an event reads of a door: all of its record but for its two settings (R96). -/
def Door.lineReads (d : Door) : Door := { d with tPass := 0, tHeld := 0 }

/-- Two states with doors that differ in their settings at most, and with the same wings and zones as far as the lines of
the precedences go. -/
structure InputsStand (s t : State) : Prop where
  door : ∀ n, (t.door n).lineReads = (s.door n).lineReads
  wing : ∀ w, (t.wing w).doorReads = (s.wing w).doorReads
  zone : ∀ z, (t.zone z).lineReads = (s.zone z).lineReads

theorem InputsStand.refl (s : State) : InputsStand s s := ⟨fun _ => rfl, fun _ => rfl, fun _ => rfl⟩

theorem InputsStand.trans {s t u : State} (h : InputsStand s t) (k : InputsStand t u) : InputsStand s u :=
  ⟨fun n => (k.door n).trans (h.door n), fun w => (k.wing w).trans (h.wing w), fun z => (k.zone z).trans (h.zone z)⟩

theorem SameInputs.stand {s t : State} (h : SameInputs s t) : InputsStand s t where
  door n := by rw [State.door, State.door, h.doors]
  wing := h.wing
  zone z := by
    have hz := h.zone z
    simp only [Zone.doorReads, Prod.mk.injEq] at hz
    obtain ⟨hw, hf, ho, hs⟩ := hz
    simp only [Zone.lineReads, hw, hf, ho, hs]

theorem InputsStand.stage_eq {s t : State} (h : InputsStand s t) (w : Fin 4) :
    (t.wing w).stage = (s.wing w).stage := congrArg (fun x => x.2.1) (h.wing w)

theorem InputsStand.wingOf_eq {s t : State} (h : InputsStand s t) (z : Fin 64) : t.wingOf z = s.wingOf z :=
  congrArg (fun x => x.1) (h.zone z)

theorem InputsStand.doorInputs_eq {s t : State} (h : InputsStand s t) (n : Fin 48) :
    doorInputs t n = doorInputs s n := by
  have hd := h.door n
  have hw := h.wing
  have hz := h.zone
  simp only [Wing.doorReads, Zone.lineReads, Prod.mk.injEq, forall_and] at hw hz
  simp only [Door.lineReads, Door.mk.injEq] at hd
  obtain ⟨hmode, hstage, hlock⟩ := hw
  obtain ⟨hwing, hfire, hocc, hsec⟩ := hz
  obtain ⟨hconf, ha, hb, hkind, hfail, hfree, hinner, -, -, -, -, -, -, -, hrex, hpass, -, -, -, hclaims⟩ := hd
  have hegress : egressLine t (t.door n) = egressLine s (s.door n) := by
    unfold egressLine
    rw [hkind]
    cases (s.door n).kind with
    | secureEgress => simp only [hclaims]
    | fireHold => rfl
    | store =>
      have hin : (t.door n).innerZone = (s.door n).innerZone := by simp only [Door.innerZone, hinner, ha, hb] <;> rfl
      dsimp only
      rw [hin]
      cases (s.door n).innerZone with
      | none => rfl
      | some z => simp only [State.evacuating, State.wingOf, hwing, hstage, hocc] <;> rfl
  simp only [doorInputs, hegress, Door.lockable, Door.sides, State.wingOf, hconf, ha, hb, hkind, hfree, hrex, hpass, hmode,
    hstage, hlock, hwing, hfire, hsec] <;> rfl

/-- An event that changed no line of a precedence leaves every door as it stood. -/
theorem settleDoors_of_inputsStand {b s : State} (h : InputsStand b s) (hc : s.channels = b.channels) :
    settleDoors b s = s := by
  have fixed : ∀ (f : State → Fin 48 → State), (∀ n, f s n = s) → ∀ ns : List (Fin 48), ns.foldl f s = s :=
    fun f hf ns => by
      induction ns with
      | nil => rfl
      | cons n ns ih => rw [List.foldl_cons, hf, ih]
  have computed : computeDoors b s = s := fixed _ (fun n => if_pos (h.doorInputs_eq n).symm) _
  have followed : ∀ n, followEffective b s n = s := fun n => by
    have hstatus : (s.door n).status = (b.door n).status := congrArg (fun d => d.status) (h.door n)
    simp [followEffective, hstatus, State.channel, hc]
  have supervised : ∀ n, superviseClosing b s n = s := fun n => by
    have hexp : (s.door n).expectedToClose = (b.door n).expectedToClose :=
      congrArg (fun d => d.expectedToClose) (h.door n)
    have : notClosedAfter (b.door n) (s.door n) = (s.door n).notClosedTimer := by
      simp only [notClosedAfter, hexp]
      cases (b.door n).expectedToClose <;> simp
    simp [superviseClosing, this]
  rw [settleDoors, computed]
  exact fixed _ (fun n => by simp only [followed, supervised, ite_self]) _

/-- The end of such an event opens a pass where one was triggered, and reaches the ports and the outputs. -/
theorem endEvent_onlyIn_of_inputsStand {b s : State} (h : InputsStand b s) (hc : s.channels = b.channels) :
    OnlyIn ([.engine] ++ outward) s (endEvent b s) := by
  rw [endEvent, settleDoors_of_inputsStand h hc]
  exact (((openPass_onlyIn s).mono (by decide)).trans ((startTransmitters_onlyIn _).mono (by decide))).trans
    (onlyIn_of fun p => by cases p <;> simp [Same, outward])

/-! ### Work within a list of pieces -/

/-- A change within `ps` that leaves the requests, replies and links of the ports and the lines of the doors alone, and
adds to the log. -/
structure Works (ps : List Piece) (s t : State) : Prop where
  within : Within ps s t
  inputs : InputsStand s t
  log : LogGrows s t

theorem Works.refl (ps : List Piece) (s : State) : Works ps s s := ⟨Within.refl ps s, InputsStand.refl s, LogGrows.refl s⟩

theorem Works.trans {ps : List Piece} {s t u : State} (h : Works ps s t) (k : Works ps t u) : Works ps s u :=
  ⟨h.within.trans k.within, h.inputs.trans k.inputs, h.log.trans k.log⟩

theorem Works.mono {ps qs : List Piece} {s t : State} (h : Works ps s t) (k : ∀ p ∈ ps, p ∈ qs) : Works qs s t :=
  ⟨h.within.mono k, h.inputs, h.log⟩

theorem Works.foldl {α : Type} {ps : List Piece} {f : State → α → State} (h : ∀ s x, Works ps s (f s x)) :
    ∀ (xs : List α) (s : State), Works ps s (xs.foldl f s)
  | [], s => Works.refl ps s
  | x :: xs, s => (h s x).trans (Works.foldl h xs (f s x))

theorem Works.ite {ps : List Piece} {c : Prop} [Decidable c] {s t u : State} (ht : Works ps s t) (hu : Works ps s u) :
    Works ps s (if c then t else u) := by
  split
  · exact ht
  · exact hu

/-- The pieces that `Works` reads. -/
def worksPieces : List Piece := [.ports, .seconds, .log, .doors, .wings, .zones]

/-- A change of other pieces. -/
theorem Works.of_onlyIn {ps : List Piece} {s t : State} (h : OnlyIn ps s t) (hp : ∀ p ∈ worksPieces, p ∉ ps) :
    Works ps s t :=
  ⟨.of_onlyIn h (hp _ (by decide)), (SameInputs.of_onlyIn h fun p hq => hp p (by revert p; decide)).stand,
    .of_onlyIn h fun p hq => hp p (by revert p; decide)⟩

theorem append_works (s : State) (k : EntryKind) (x : Subject) (w : Option (Fin 4)) (d : Detail) :
    Works logward s (append s k x w d) := ⟨append_within .., (append_sameInputs ..).stand, append_logGrows ..⟩

/-! ### Records of detectors -/

/-- The pieces that a detector's change of state reaches, where its zone enters no ALARM. -/
def detectorward : List Piece := [.zones, .detectors, .exits, .engine] ++ logward

theorem putDetector_works (s : State) (n : Fin 192) (x : Option Detector) : Works detectorward s (s.putDetector n x) :=
  (Works.of_onlyIn (putDetector_onlyIn s n x) (by decide)).mono (by decide)

theorem appendDetector_works (s : State) (k : EntryKind) (n : Fin 192) (z : Fin 64) (d : Detail) :
    Works detectorward s (appendDetector s k n z d) := (append_works ..).mono (by decide)

theorem followImpaired_works (s : State) (z : Fin 64) (was now : Bool) :
    Works detectorward s (followImpaired s z was now) := by
  obtain ⟨hz, ho⟩ := followImpaired_eq s z was now
  refine ⟨(Within.of_onlyIn ho (by decide)).mono (by decide), ⟨fun n => ?_, fun w => ?_, fun y => ?_⟩,
    .of_onlyIn ho (by decide)⟩
  · rw [State.door, State.door, show (followImpaired s z was now).doors = s.doors from ho .doors (by decide)]
  · rw [ho.wing_eq (by decide)]
  · rw [State.zone, hz, Tbl.get_modify]
    split <;> rfl

theorem writeDetector_works (s : State) (n : Fin 192) (old new : Detector) :
    Works detectorward s (writeDetector s n old new) := (putDetector_works ..).trans (followImpaired_works ..)

theorem abortVerify_works (s : State) (n : Fin 192) (d : Detector) (c : AbortCause) :
    Works detectorward s (abortVerify s n d c) := Works.ite (appendDetector_works ..) (Works.refl _ s)

theorem modZone_works {s : State} {z : Fin 64} {f : Zone → Zone}
    (h : (f (s.zone z)).lineReads = (s.zone z).lineReads) : Works detectorward s (s.modZone z f) := by
  refine ⟨(Within.of_onlyIn (modZone_onlyIn s z f) (by decide)).mono (by decide), ⟨fun _ => rfl, fun _ => rfl, fun y => ?_⟩,
    .of_onlyIn (modZone_onlyIn s z f) (by decide)⟩
  rw [State.zone_modZone]
  split
  next e => rw [e, h]
  next => rfl

/-- A fire state that stays out of ALARM changes no line of a door's precedence (R60, R102, R104). -/
theorem deriveFire_works (s : State) (z : Fin 64) : Works detectorward s (deriveFire s z) := by
  unfold deriveFire
  split
  next => exact Works.refl _ s
  next h =>
    have hf : (derivedFire s z).inAlarm = false := by
      unfold derivedFire
      split <;> rfl
    have hz : ({ s.zone z with fire := derivedFire s z } : Zone).lineReads = (s.zone z).lineReads := by
      simp [Zone.lineReads, hf, h]
    have triggered : ∀ t, Works detectorward t (trigger t) := fun t =>
      (Works.of_onlyIn (trigger_onlyIn t) (by decide)).mono (by decide)
    have exits : ∀ t, Works detectorward t (refreshExits t z) := fun t =>
      (Works.of_onlyIn (refreshExits_within t z).1 (by decide)).mono (by decide)
    exact Works.ite (Works.refl _ s) (((modZone_works hz).trans (triggered _)).trans (exits _))

theorem disableDetectorNow_works (s : State) (n : Fin 192) (d : Detector) :
    Works detectorward s (disableDetectorNow s n d) :=
  (((abortVerify_works ..).trans (writeDetector_works ..)).trans (appendDetector_works ..)).trans (deriveFire_works ..)

theorem enableDetectorNow_works (s : State) (n : Fin 192) (d : Detector) :
    Works detectorward s (enableDetectorNow s n d) :=
  ((writeDetector_works ..).trans (appendDetector_works ..)).trans (deriveFire_works ..)

theorem restartDetector_works (s : State) (n : Fin 192) : Works detectorward s (restartDetector s n) := by
  unfold restartDetector
  cases s.detector n with
  | none => exact Works.refl _ s
  | some d =>
    exact Works.ite (putDetector_works ..)
      (((abortVerify_works ..).trans (writeDetector_works ..)).trans (deriveFire_works ..))

/-! ### Waiting requests (R36) -/

/-- The pieces that the waiting requests of a loop reach. -/
def requestward : List Piece := [.scanLists] ++ detectorward

theorem writeMark_works (s : State) (d : Detector) (e : Bool) : Works requestward s (writeMark s d e) := by
  unfold writeMark
  split
  · exact (Works.of_onlyIn (putSlot_onlyIn _ _ _ _) (by decide)).mono (by decide)
  · exact Works.refl _ s

theorem applyRequest_works (s : State) (n : Fin 192) : Works requestward s (applyRequest s n) := by
  have put : ∀ x, Works requestward s (s.putDetector n x) := fun x => (putDetector_works ..).mono (by decide)
  unfold applyRequest
  split
  · exact Works.refl _ s
  · split
    · exact Works.refl _ s
    · exact Works.ite ((writeMark_works ..).trans ((disableDetectorNow_works ..).mono (by decide))) (put _)
    · exact Works.ite (put _) ((writeMark_works ..).trans ((enableDetectorNow_works ..).mono (by decide)))

theorem applyRequests_works (s : State) (u : ScanUnit) : Works requestward s (applyRequests s u) :=
  Works.foldl applyRequest_works _ s

theorem writeMark_aside (s : State) (d : Detector) (e : Bool) : Aside s (writeMark s d e) := by
  unfold writeMark
  split <;> exact .same rfl

theorem applyRequest_aside (s : State) (n : Fin 192) : Aside s (applyRequest s n) := by
  unfold applyRequest
  split
  next => exact .same rfl
  next d h =>
    have marked : ∀ e, (writeMark s d e).detector n = some d := fun e => (writeMark_detector ..).trans h
    split
    · exact .same rfl
    · refine Aside.ite ((writeMark_aside s d false).trans ?_) (putDetector_aside h rfl)
      exact ((abortVerify_writeDetector_aside _ (marked false) (by rfl)).append ..).trans (deriveFire_aside ..)
    · refine Aside.ite (putDetector_aside h rfl) ((writeMark_aside s d true).trans ?_)
      exact ((writeDetector_aside (marked true) (by rfl) d).append ..).trans (deriveFire_aside ..)

/-- The requests of a loop's detectors reach no loop (R36). -/
theorem applyRequests_aside (s : State) (u : ScanUnit) : Aside s (applyRequests s u) := Aside.foldl applyRequest_aside _ s

end Sys2Proof.Machine
end

section
/-! SUPPORT. The scan units and the converters: what a change of a unit's records and the release of its converters leave,
and what the two loops of a pair hold in common while the part is in service (R19, R21, R23, R28). -/

set_option autoImplicit false

namespace Sys2Proof.Machine

/-! ### Units (section 2.1) -/

@[simp] theorem mem_loops_loop (k l : Fin 4) : l ∈ (ScanUnit.loop k).loops ↔ l = k := by simp [ScanUnit.loops]

@[simp] theorem mem_loops_pair (p : Fin 2) (l : Fin 4) : l ∈ (ScanUnit.pair p).loops ↔ pairOf l = p := by
  revert p l; decide

@[simp] theorem pairOf_lowerLoop (p : Fin 2) : pairOf (lowerLoop p) = p := by revert p; decide

@[simp] theorem pairOf_upperLoop (p : Fin 2) : pairOf (upperLoop p) = p := by revert p; decide

@[simp] theorem pairOf_partnerOf (l : Fin 4) : pairOf (partnerOf l) = pairOf l := by revert l; decide

@[simp] theorem partnerOf_partnerOf (l : Fin 4) : partnerOf (partnerOf l) = l := by revert l; decide

theorem partnerOf_ne (l : Fin 4) : partnerOf l ≠ l := by revert l; decide

theorem pairOf_eq_iff (k l : Fin 4) : pairOf k = pairOf l ↔ k = l ∨ k = partnerOf l := by revert k l; decide

theorem lowerLoop_lt (p : Fin 2) : (lowerLoop p).val < 2 := p.isLt

theorem lowerLoop_pairOf_of_lt {l : Fin 4} (h : l.val < 2) : lowerLoop (pairOf l) = l := by revert l; decide

theorem eq_lower_or_partner (l : Fin 4) : lowerLoop (pairOf l) = l ∨ lowerLoop (pairOf l) = partnerOf l := by
  revert l; decide

theorem head_mem_loops (u : ScanUnit) : u.head ∈ u.loops := by
  cases u <;> simp [ScanUnit.head]

/-- A change of a unit's records reaches the loops of the unit. -/
theorem loop_modUnit (s : State) (u : ScanUnit) (f : Loop → Loop) (k : Fin 4) :
    (modUnit s u f).loop k = if k ∈ u.loops then f (s.loop k) else s.loop k := by
  cases u with
  | loop l => simp [modUnit, ScanUnit.loops, State.loop_modLoop]
  | pair p =>
    have hne : upperLoop p ≠ lowerLoop p := by revert p; decide
    simp only [modUnit, ScanUnit.loops, List.foldl_cons, List.foldl_nil, State.loop_modLoop, List.mem_cons,
      List.not_mem_nil, or_false]
    by_cases hu : k = upperLoop p
    · simp [hu, hne]
    · simp [hu]

theorem modUnit_onlyIn (s : State) (u : ScanUnit) (f : Loop → Loop) : OnlyIn [.loops] s (modUnit s u f) :=
  OnlyIn.foldl (fun t l => modLoop_onlyIn t l f) _ s

theorem OnlyIn.part_eq {ps : List Piece} {s t : State} (h : OnlyIn ps s t) (hp : Piece.part ∉ ps) : t.part = s.part :=
  h .part hp

theorem OnlyIn.loop_eq {ps : List Piece} {s t : State} (h : OnlyIn ps s t) (hp : Piece.loops ∉ ps) (l : Fin 4) :
    t.loop l = s.loop l := by rw [State.loop, State.loop, show t.loops = s.loops from h .loops hp]

theorem OnlyIn.converter_eq {ps : List Piece} {s t : State} (h : OnlyIn ps s t) (hp : Piece.converters ∉ ps)
    (c : Converter) : t.converter c = s.converter c := by
  obtain ⟨ha, hb⟩ := h .converters hp
  cases c
  · exact ha
  · exact hb

theorem OnlyIn.detector_eq {ps : List Piece} {s t : State} (h : OnlyIn ps s t) (hp : Piece.detectors ∉ ps)
    (n : Fin 192) : t.detector n = s.detector n := by
  rw [State.detector, State.detector, show t.detectors = s.detectors from h .detectors hp]

theorem OnlyIn.slot_eq {ps : List Piece} {s t : State} (h : OnlyIn ps s t) (hp : Piece.scanLists ∉ ps) (l : Fin 4)
    (k : Fin 48) : t.slot l k = s.slot l k := by
  rw [State.slot, State.slot, show t.scanLists = s.scanLists from h .scanLists hp]

@[simp] theorem converter_modUnit (s : State) (u : ScanUnit) (f : Loop → Loop) (c : Converter) :
    (modUnit s u f).converter c = s.converter c := (modUnit_onlyIn s u f).converter_eq (by decide) c

@[simp] theorem converter_modLoop (s : State) (l : Fin 4) (f : Loop → Loop) (c : Converter) :
    (s.modLoop l f).converter c = s.converter c := (modLoop_onlyIn s l f).converter_eq (by decide) c

theorem Aside.loop_eq {s t : State} (h : Aside s t) (l : Fin 4) : t.loop l = s.loop l := by
  rw [State.loop, State.loop, h.loops]

theorem Aside.converter_eq {s t : State} (h : Aside s t) (c : Converter) : t.converter c = s.converter c := by
  cases c
  · exact h.converterA
  · exact h.converterB

/-! ### Converters -/

theorem putConverter_onlyIn (s : State) (c : Converter) (h : Holder) : OnlyIn [.converters] s (s.putConverter c h) :=
  onlyIn_of fun p => by cases c <;> cases p <;> simp [Same, State.putConverter]

@[simp] theorem loop_putConverter (s : State) (c : Converter) (h : Holder) (l : Fin 4) :
    (s.putConverter c h).loop l = s.loop l := (putConverter_onlyIn s c h).loop_eq (by decide) l

theorem converter_putConverter (s : State) (c d : Converter) (h : Holder) :
    (s.putConverter c h).converter d = if d = c then h else s.converter d := by
  cases c <;> cases d <;> rfl

theorem releaseConverters_onlyIn (s : State) (u : ScanUnit) : OnlyIn [.converters] s (releaseConverters s u) := by
  have put : ∀ (t : State) (c : Converter) (b : Bool), OnlyIn [.converters] t (if b then t.putConverter c .free else t) :=
    fun t c b => by
      split
      · exact putConverter_onlyIn t c .free
      · exact OnlyIn.refl _ t
  exact (put s .a _).trans (put _ .b _)

@[simp] theorem loop_releaseConverters (s : State) (u : ScanUnit) (l : Fin 4) :
    (releaseConverters s u).loop l = s.loop l := (releaseConverters_onlyIn s u).loop_eq (by decide) l

/-- The converters of a unit become free, and no other. -/
theorem converter_releaseConverters (s : State) (u : ScanUnit) (c : Converter) :
    (releaseConverters s u).converter c = if (s.converter c).isFor u then .free else s.converter c := by
  cases c <;> by_cases ha : s.converterA.isFor u <;> by_cases hb : s.converterB.isFor u <;>
    simp [releaseConverters, ha, hb, State.converter, State.putConverter]

/-! ### What the loops of a pair hold in common -/

/-- The fields that the loops of a mirrored pair have in common (R28). -/
def Loop.common (r : Loop) : LoopState × Bool × Option Scan × Bool × Option Seconds × Option (Fin 48) :=
  (r.state, r.power, r.scan, r.due, r.lastStart, r.breakPosition)

/-- What the record of loop `l` and that of its partner hold in common (R19, R21, R28). -/
structure Loop.AgreesWith (l : Fin 4) (r q : Loop) : Prop where
  mode : q.mode = r.mode
  pending : q.pendingMode = r.pendingMode
  differs : r.pendingMode ≠ some r.mode
  inUse : r.mode = .mirrored → r.inUse = true
  common : r.mode = .mirrored → q.common = r.common
  timer : r.mode = .mirrored → 2 ≤ l.val → r.intervalTimer = none

/-- A converter is held by, or kept for, mirrored pairs alone (R23). -/
def HoldersOk (s : State) : Prop := ∀ c p, (s.converter c).pairOf = some p → (s.loop (lowerLoop p)).mode = .mirrored

/-- The loops agree pair by pair. -/
def PairsAgree (s : State) : Prop := ∀ l, Loop.AgreesWith l (s.loop l) (s.loop (partnerOf l))

theorem loopPairsOk_iff (s : State) :
    LoopPairsOk s ↔ HoldersOk s ∧ PairsAgree s
      ∧ (s.part = .configuring → (∀ c, s.converter c = .free) ∧ ∀ l, (s.loop l).quiet) := by
  constructor
  · rintro ⟨hh, hf, hl⟩
    refine ⟨fun c p h => hh p ?_, fun l => ?_, fun hp => ⟨fun c => ?_, fun l => (hl l).2.2.2.1 hp⟩⟩
    · cases c
      · exact .inl h
      · exact .inr h
    · obtain ⟨hm, hp, hd, -, hmir⟩ := hl l
      refine ⟨hm, hp, hd, fun h => (hmir h).1, fun h => ?_, fun h => (hmir h).2.2.2.2.2.2.2⟩
      obtain ⟨-, h1, h2, h3, h4, h5, h6, -⟩ := hmir h
      simp only [Loop.common, h1, h2, h3, h4, h5, h6]
    · cases c
      · exact (hf hp).1
      · exact (hf hp).2
  · rintro ⟨hh, hl, hc⟩
    refine ⟨fun p h => h.elim (hh .a p) (hh .b p), fun hp => ⟨(hc hp).1 .a, (hc hp).1 .b⟩, fun l => ?_⟩
    obtain ⟨hm, hp, hd, hu, hcom, ht⟩ := hl l
    refine ⟨hm, hp, hd, fun hpart => (hc hpart).2 l, fun h => ?_⟩
    have h6 := hcom h
    simp only [Loop.common, Prod.mk.injEq] at h6
    obtain ⟨h1, h2, h3, h4, h5, h6⟩ := h6
    exact ⟨hu h, h1, h2, h3, h4, h5, h6, ht h⟩

/-- The part is in service, and its loops and converters are as `LoopPairsOk` asks. -/
structure LoopsServed (s : State) : Prop where
  inService : s.part = .inService
  holders : HoldersOk s
  agree : PairsAgree s

theorem LoopsServed.ok {s : State} (h : LoopsServed s) : LoopPairsOk s :=
  (loopPairsOk_iff s).mpr ⟨h.holders, h.agree, fun hp => by simp [h.inService] at hp⟩

/-- A loop that is not quiet shows that the part is in service (R37). -/
theorem LoopPairsOk.served {s : State} (h : LoopPairsOk s) {l : Fin 4} (hq : ¬ (s.loop l).quiet) : LoopsServed s := by
  obtain ⟨hh, hl, hc⟩ := (loopPairsOk_iff s).mp h
  refine ⟨?_, hh, hl⟩
  cases hp : s.part with
  | inService => rfl
  | configuring => exact absurd ((hc hp).2 l) hq

theorem LoopPairsOk.served_of_inService {s : State} (h : LoopPairsOk s) (hs : s.part = .inService) : LoopsServed s :=
  have hi := (loopPairsOk_iff s).mp h
  ⟨hs, hi.1, hi.2.1⟩

/-- What the invariant reads: the part state, the loops and the converters. -/
theorem Aside.loopPairsOk {s t : State} (h : Aside s t) (k : LoopPairsOk s) : LoopPairsOk t := by
  simpa only [LoopPairsOk, State.loop, h.part, h.loops, h.converterA, h.converterB] using k

theorem Aside.served {s t : State} (h : Aside s t) (k : LoopsServed s) : LoopsServed t :=
  (h.loopPairsOk k.ok).served_of_inService (h.part.trans k.inService)

/-- A unit that a state scans as one: an independent loop, or a mirrored pair. -/
def ScanUnit.stands (s : State) : ScanUnit → Prop
  | .loop l => (s.loop l).mode = .independent
  | .pair p => (s.loop (lowerLoop p)).mode = .mirrored

/-- The loops of a pair hold one mode (R19). -/
theorem PairsAgree.mode_lower {s : State} (h : PairsAgree s) (l : Fin 4) :
    (s.loop (lowerLoop (pairOf l))).mode = (s.loop l).mode := by
  rcases eq_lower_or_partner l with e | e <;> rw [e]
  exact (h l).mode

theorem PairsAgree.mode_of_mem {s : State} (h : PairsAgree s) {u : ScanUnit} (hu : u.stands s) {l : Fin 4}
    (hl : l ∈ u.loops) : unitOf s l = u := by
  cases u with
  | loop k =>
    rw [mem_loops_loop] at hl
    subst hl
    simp only [ScanUnit.stands] at hu
    simp [unitOf, hu]
  | pair p =>
    rw [mem_loops_pair] at hl
    subst hl
    have := h.mode_lower l
    simp only [ScanUnit.stands] at hu
    simp [unitOf, ← this, hu]

theorem PairsAgree.unitOf_stands {s : State} (h : PairsAgree s) (l : Fin 4) : (unitOf s l).stands s := by
  unfold unitOf
  cases hm : (s.loop l).mode with
  | independent => exact hm
  | mirrored => exact (h.mode_lower l).trans hm

theorem mem_unitOf (s : State) (l : Fin 4) : l ∈ (unitOf s l).loops := by
  unfold unitOf
  cases (s.loop l).mode <;> simp

/-- A change of a unit's records that keeps the configuration of the loops, and that gives the common fields alike where
they were alike. -/
structure UnitChange (f : Loop → Loop) : Prop where
  mode : ∀ r, (f r).mode = r.mode := by intros; rfl
  pending : ∀ r, (f r).pendingMode = r.pendingMode := by intros; rfl
  inUse : ∀ r, (f r).inUse = r.inUse := by intros; rfl
  timer : ∀ r, (f r).intervalTimer = r.intervalTimer := by intros; rfl
  common : ∀ r q : Loop, q.common = r.common → (f q).common = (f r).common := by
    intro r q h; simp_all [Loop.common]

theorem LoopsServed.modUnit {s : State} (h : LoopsServed s) {u : ScanUnit} (hu : u.stands s) {f : Loop → Loop}
    (hf : UnitChange f) : LoopsServed (modUnit s u f) := by
  have mode_eq : ∀ l, ((Machine.modUnit s u f).loop l).mode = (s.loop l).mode := fun l => by
    rw [loop_modUnit]
    split
    · exact hf.mode _
    · rfl
  refine ⟨((modUnit_onlyIn s u f).part_eq (by decide)).trans h.inService, fun c p hc => ?_, fun l => ?_⟩
  · rw [mode_eq]
    exact h.holders c p (by simpa using hc)
  · have hl := h.agree l
    have together : (s.loop l).mode = .mirrored → (partnerOf l ∈ u.loops ↔ l ∈ u.loops) := fun hm => by
      cases u with
      | pair p => simp
      | loop k =>
        simp only [ScanUnit.stands] at hu
        simp only [mem_loops_loop]
        constructor
        · rintro rfl
          rw [hl.mode, hm] at hu
          cases hu
        · rintro rfl
          rw [hm] at hu
          cases hu
    rw [loop_modUnit, loop_modUnit]
    constructor
    · split <;> split <;> simp only [hf.mode, hl.mode]
    · split <;> split <;> simp only [hf.pending, hl.pending]
    · split <;> simpa only [hf.pending, hf.mode] using hl.differs
    · split <;> simpa only [hf.inUse, hf.mode] using hl.inUse
    · intro hm
      have hm' : (s.loop l).mode = .mirrored := by
        rw [← mode_eq l, loop_modUnit]
        exact hm
      have := hl.common hm'
      by_cases hmem : l ∈ u.loops
      · simpa [hmem, (together hm').mpr hmem] using hf.common _ _ this
      · simpa [hmem, mt (together hm').mp hmem] using this
    · split <;> simpa only [hf.timer, hf.mode] using hl.timer

/-- What a change of one loop's record leaves of every loop. -/
theorem modLoop_same {α : Type} {s : State} {l : Fin 4} {f : Loop → Loop} (g : Loop → α)
    (hg : g (f (s.loop l)) = g (s.loop l)) (k : Fin 4) : g ((s.modLoop l f).loop k) = g (s.loop k) := by
  rw [State.loop_modLoop]
  split
  next e => rw [e, hg]
  next => rfl

/-- A change of one loop's record that keeps its modes and the fields it has in common with its partner. -/
structure OwnChange (s : State) (l : Fin 4) (f : Loop → Loop) : Prop where
  mode : (f (s.loop l)).mode = (s.loop l).mode := by rfl
  pending : (f (s.loop l)).pendingMode = (s.loop l).pendingMode := by rfl
  common : (f (s.loop l)).common = (s.loop l).common := by rfl

theorem PairsAgree.modLoop {s : State} (h : PairsAgree s) {l : Fin 4} {f : Loop → Loop} (hf : OwnChange s l f)
    (hi : (s.loop l).mode = .mirrored → (f (s.loop l)).inUse = true)
    (ht : (s.loop l).mode = .mirrored → 2 ≤ l.val → (f (s.loop l)).intervalTimer = none) :
    PairsAgree (s.modLoop l f) := fun k => by
  have hk := h k
  constructor
  · rw [modLoop_same Loop.mode hf.mode, modLoop_same Loop.mode hf.mode, hk.mode]
  · rw [modLoop_same Loop.pendingMode hf.pending, modLoop_same Loop.pendingMode hf.pending, hk.pending]
  · rw [modLoop_same Loop.pendingMode hf.pending, modLoop_same Loop.mode hf.mode]
    exact hk.differs
  · rw [modLoop_same Loop.mode hf.mode, State.loop_modLoop]
    split
    next e => rw [e]; exact hi
    next => exact hk.inUse
  · rw [modLoop_same Loop.mode hf.mode, modLoop_same Loop.common hf.common, modLoop_same Loop.common hf.common]
    exact hk.common
  · rw [modLoop_same Loop.mode hf.mode, State.loop_modLoop]
    split
    next e => rw [e]; exact ht
    next => exact hk.timer

theorem HoldersOk.modLoop {s : State} (h : HoldersOk s) {l : Fin 4} {f : Loop → Loop}
    (hm : (f (s.loop l)).mode = (s.loop l).mode) : HoldersOk (s.modLoop l f) := fun c p hcp => by
  rw [modLoop_same Loop.mode hm]
  exact h c p (by simpa using hcp)

/-- A change of one loop's interval timer. -/
theorem LoopsServed.modLoop {s : State} (h : LoopsServed s) {l : Fin 4} {f : Loop → Loop} (hf : OwnChange s l f)
    (hi : (f (s.loop l)).inUse = (s.loop l).inUse)
    (ht : (s.loop l).mode = .mirrored → 2 ≤ l.val → (f (s.loop l)).intervalTimer = none) :
    LoopsServed (s.modLoop l f) :=
  ⟨h.inService, h.holders.modLoop hf.mode, h.agree.modLoop hf (fun hm => hi.trans ((h.agree l).inUse hm)) ht⟩

/-- A change of one loop's settings, or of the in-use flag of an independent one. -/
theorem LoopPairsOk.modLoop {s : State} (h : LoopPairsOk s) {l : Fin 4} {f : Loop → Loop} (hf : OwnChange s l f)
    (hi : (s.loop l).mode = .mirrored → (f (s.loop l)).inUse = true)
    (ht : (f (s.loop l)).intervalTimer = (s.loop l).intervalTimer) : LoopPairsOk (s.modLoop l f) := by
  obtain ⟨hh, ha, hc⟩ := (loopPairsOk_iff s).mp h
  refine (loopPairsOk_iff _).mpr ⟨hh.modLoop hf.mode, ha.modLoop hf hi fun hm hl => ht.trans ((ha l).timer hm hl),
    fun hp => ⟨fun c => by simpa using (hc hp).1 c, fun k => ?_⟩⟩
  have hq := (hc hp).2 k
  have hcom := modLoop_same Loop.common hf.common k
  simp only [Loop.common, Prod.mk.injEq] at hcom
  obtain ⟨h1, h2, h3, h4, h5, h6⟩ := hcom
  simp only [Loop.quiet, h1, h2, h3, h4, h5, h6, modLoop_same Loop.intervalTimer ht, modLoop_same Loop.pendingMode hf.pending]
  exact hq

/-- A converter is given to an independent loop or freed, or to a mirrored pair. -/
theorem LoopsServed.putConverter {s : State} (h : LoopsServed s) (c : Converter) {x : Holder}
    (hx : ∀ p, x.pairOf = some p → (s.loop (lowerLoop p)).mode = .mirrored) : LoopsServed (s.putConverter c x) := by
  refine ⟨((putConverter_onlyIn s c x).part_eq (by decide)).trans h.inService, fun d p hd => ?_, fun l => ?_⟩
  · rw [converter_putConverter] at hd
    rw [loop_putConverter]
    split at hd
    · exact hx p hd
    · exact h.holders d p hd
  · simpa only [loop_putConverter] using h.agree l

theorem LoopsServed.release {s : State} (h : LoopsServed s) (u : ScanUnit) : LoopsServed (releaseConverters s u) := by
  refine ⟨((releaseConverters_onlyIn s u).part_eq (by decide)).trans h.inService, fun c p hc => ?_, fun l => ?_⟩
  · rw [converter_releaseConverters] at hc
    rw [loop_releaseConverters]
    split at hc
    · cases hc
    · exact h.holders c p hc
  · simpa only [loop_releaseConverters] using h.agree l

end Sys2Proof.Machine
end

section
/-! SUPPORT. The start of a scan, the hand-out of a converter and the loops that become due (R22 to R24, R34): what each
leaves of the loops and the converters, and that each keeps what the loops of a pair hold in common. -/

set_option autoImplicit false

namespace Sys2Proof.Machine

/-! ### The start of a scan (R24) -/

/-- The pieces that the hand-out of converters reaches. -/
def scanward : List Piece := [.loops, .converters] ++ requestward

theorem modLoop_works (s : State) (l : Fin 4) (f : Loop → Loop) : Works scanward s (s.modLoop l f) :=
  (Works.of_onlyIn (modLoop_onlyIn s l f) (by decide)).mono (by decide)

theorem modUnit_works (s : State) (u : ScanUnit) (f : Loop → Loop) : Works scanward s (modUnit s u f) :=
  (Works.of_onlyIn (modUnit_onlyIn s u f) (by decide)).mono (by decide)

theorem putConverter_works (s : State) (c : Converter) (h : Holder) : Works scanward s (s.putConverter c h) :=
  (Works.of_onlyIn (putConverter_onlyIn s c h) (by decide)).mono (by decide)

theorem releaseConverters_works (s : State) (u : ScanUnit) : Works scanward s (releaseConverters s u) :=
  (Works.of_onlyIn (releaseConverters_onlyIn s u) (by decide)).mono (by decide)

theorem appendLoop_works (s : State) (k : EntryKind) (l : Fin 4) (d : Detail) : Works scanward s (appendLoop s k l d) :=
  (append_works ..).mono (by decide)

/-- The records of a unit whose scan starts, before its requests are applied. -/
def markStart (s : State) (u : ScanUnit) : State :=
  (modUnit s u fun r => { r with due := false, lastStart := some s.seconds }).modLoop u.head fun r =>
    { r with intervalTimer := some r.scanInterval }

/-- A unit whose scan starts, with its requests applied (R24, R36). -/
def beginScan (s : State) (u : ScanUnit) : State := applyRequests (markStart s u) u

theorem startScan_eq (s : State) (u : ScanUnit) :
    startScan s u = match enabledSlot ((beginScan s u).scanLists.get u.head) 0 with
      | some k => modUnit (beginScan s u) u fun r => { r with scan := some { slot := k, polls := [] } }
      | none => releaseConverters (beginScan s u) u := rfl

theorem markStart_onlyIn (s : State) (u : ScanUnit) : OnlyIn [.loops] s (markStart s u) :=
  OnlyIn.trans (modUnit_onlyIn s u _) (modLoop_onlyIn _ _ _)

theorem beginScan_works (s : State) (u : ScanUnit) : Works scanward s (beginScan s u) :=
  ((modUnit_works ..).trans (modLoop_works ..)).trans ((applyRequests_works ..).mono (by decide))

theorem startScan_works (s : State) (u : ScanUnit) : Works scanward s (startScan s u) := by
  rw [startScan_eq]
  split
  · exact (beginScan_works s u).trans (modUnit_works ..)
  · exact (beginScan_works s u).trans (releaseConverters_works ..)

/-- The start of a scan reaches detectors and slots through the requests alone. -/
theorem startScan_begun (s : State) (u : ScanUnit) : OnlyIn [.loops, .converters] (beginScan s u) (startScan s u) := by
  rw [startScan_eq]
  split
  · exact OnlyIn.mono (modUnit_onlyIn _ _ _) (by decide)
  · exact OnlyIn.mono (releaseConverters_onlyIn _ _) (by decide)

theorem startScan_mismatchKept (s : State) (u : ScanUnit) : MismatchKept s (startScan s u) :=
  ((MismatchKept.of_same (markStart_onlyIn s u .detectors (by decide))).trans (applyRequests_aside ..).mismatch).trans
    (.of_same (startScan_begun s u .detectors (by decide)))

/-- The records of a unit whose scan has started; with no enabled slot it has ended at once (R24). -/
theorem startScan_loop (s : State) (u : ScanUnit) (k : Fin 4) :
    (startScan s u).loop k = if k ∈ u.loops then
      { s.loop k with
        due := false, lastStart := some s.seconds
        intervalTimer := if k = u.head then some (s.loop k).scanInterval else (s.loop k).intervalTimer
        scan := match enabledSlot ((beginScan s u).scanLists.get u.head) 0 with
          | some j => some { slot := j, polls := [] }
          | none => (s.loop k).scan }
      else s.loop k := by
  have hb : (beginScan s u).loop k = (markStart s u).loop k := (applyRequests_aside ..).loop_eq k
  have hm : (markStart s u).loop k = if k ∈ u.loops then
      { s.loop k with
        due := false, lastStart := some s.seconds
        intervalTimer := if k = u.head then some (s.loop k).scanInterval else (s.loop k).intervalTimer }
      else s.loop k := by
    rw [markStart, State.loop_modLoop, loop_modUnit]
    by_cases hk : k = u.head
    · subst hk
      simp [head_mem_loops]
    · simp [hk]
  rw [startScan_eq]
  split
  next j hj =>
    rw [loop_modUnit, hb, hm]
    split <;> simp_all
  next hj =>
    rw [loop_releaseConverters, hb, hm]

/-- The converters at a scan's start: those of a unit without an enabled slot are free again. -/
theorem startScan_converter (s : State) (u : ScanUnit) (c : Converter) :
    (startScan s u).converter c
      = if (enabledSlot ((beginScan s u).scanLists.get u.head) 0 = none) ∧ (s.converter c).isFor u = true then .free
        else s.converter c := by
  have hb : (beginScan s u).converter c = s.converter c :=
    ((applyRequests_aside ..).converter_eq c).trans ((markStart_onlyIn s u).converter_eq (by decide) c)
  rw [startScan_eq]
  split
  next j hj => rw [converter_modUnit, hb, if_neg (by simp [hj])]
  next hj => rw [converter_releaseConverters, hb]; simp [hj]

theorem markStart_mode (s : State) (u : ScanUnit) (l : Fin 4) : ((markStart s u).loop l).mode = (s.loop l).mode := by
  rw [markStart, State.loop_modLoop, loop_modUnit]
  split <;> split <;> rfl

theorem LoopsServed.startScan {s : State} (h : LoopsServed s) {u : ScanUnit} (hu : u.stands s) :
    LoopsServed (startScan s u) := by
  have hm : LoopsServed (markStart s u) := by
    refine (h.modUnit hu {}).modLoop {} rfl fun hmir hle => ?_
    rw [loop_modUnit, if_pos (head_mem_loops u)] at hmir
    cases u with
    | loop l => exact absurd (hmir.symm.trans hu) (by simp)
    | pair p => exact absurd (lowerLoop_lt p) (Nat.not_lt.mpr hle)
  have hb : LoopsServed (beginScan s u) := (applyRequests_aside ..).served hm
  have hub : u.stands (beginScan s u) := by
    cases u <;> simp only [ScanUnit.stands, beginScan, (applyRequests_aside ..).loop_eq, markStart_mode] <;> exact hu
  rw [startScan_eq]
  split
  · exact hb.modUnit hub {}
  · exact hb.release u

/-! ### The hand-out of converters (R23) -/

@[simp] theorem other_other (c : Converter) : c.other.other = c := by cases c <;> rfl

theorem other_ne (c : Converter) : c.other ≠ c := by cases c <;> decide

/-- A unit that may be given a converter: a loop of the converter's that wants one, or a mirrored pair that does. -/
def Eligible (s : State) (c : Converter) : ScanUnit → Prop
  | .loop l => (s.loop l).mode = .independent ∧ (s.loop l).wants = true ∧ converterOf l = c
  | .pair p => (s.loop (lowerLoop p)).mode = .mirrored ∧ (s.loop (lowerLoop p)).wants = true

theorem mem_contenders {s : State} {c : Converter} {u : ScanUnit} : u ∈ contenders s c ↔ Eligible s c u := by
  simp only [contenders, List.mem_filterMap, List.mem_finRange, true_and]
  constructor
  · rintro ⟨l, hl⟩
    split at hl
    next hw =>
      cases hm : (s.loop l).mode with
      | independent =>
        simp only [hm, Option.ite_none_right_eq_some, Option.some.injEq] at hl
        obtain ⟨hc, rfl⟩ := hl
        exact ⟨hm, hw, hc⟩
      | mirrored =>
        simp only [hm, Option.ite_none_right_eq_some, Option.some.injEq] at hl
        obtain ⟨hlt, rfl⟩ := hl
        simp only [Eligible, lowerLoop_pairOf_of_lt hlt]
        exact ⟨hm, hw⟩
    next => cases hl
  · intro h
    cases u with
    | loop l =>
      obtain ⟨hm, hw, hc⟩ := h
      exact ⟨l, by simp [hm, hw, hc]⟩
    | pair p =>
      obtain ⟨hm, hw⟩ := h
      exact ⟨lowerLoop p, by simp [hm, hw, Nat.le_of_lt_succ (lowerLoop_lt p)]⟩

/-- One hand-out of a converter: a loop starts its scan, a pair that keeps the other converter starts its scan, or a pair
that does not keeps this one. -/
inductive Give (s : State) : State → Prop
  | loop (c : Converter) (l : Fin 4) : s.converter c = .free → Eligible s c (.loop l) →
    Give s (startScan (s.putConverter c (.loop l)) (.loop l))
  | pair (c : Converter) (p : Fin 2) : s.converter c = .free → s.converter c.other = .kept p →
    Give s (startScan ((s.putConverter c (.pair p)).putConverter c.other (.pair p)) (.pair p))
  | keep (c : Converter) (p : Fin 2) : s.converter c = .free → Eligible s c (.pair p) → s.converter c.other ≠ .kept p →
    Give s (s.putConverter c (.kept p))

/-- What an arbiter picks: the pair that keeps the other converter, or else the winner among the contenders (R23). -/
theorem arbiterPick_cases {s : State} {c : Converter} {u : ScanUnit} (h : arbiterPick s c = some u) :
    s.converter c = .free ∧ ((∃ p, u = .pair p ∧ s.converter c.other = .kept p)
      ∨ (∀ p, s.converter c.other ≠ .kept p) ∧ winner s (contenders s c) = some u) := by
  unfold arbiterPick at h
  split at h
  next hf =>
    refine ⟨hf, ?_⟩
    unfold keepsOther at h
    split at h
    next p hp =>
      cases h
      split at hp
      next q hq => cases hp; exact .inl ⟨_, rfl, hq⟩
      all_goals cases hp
    next hn =>
      refine .inr ⟨fun p hp => ?_, h⟩
      simp [hp] at hn
  all_goals cases h

/-- A pick that is handed out while it is eligible. -/
theorem giveConverter_give {s : State} {c : Converter} {u : ScanUnit} (hf : s.converter c = .free)
    (h : (∃ p, u = .pair p ∧ s.converter c.other = .kept p) ∨ Eligible s c u) : Give s (giveConverter s c (some u)) := by
  cases u with
  | loop l => exact .loop c l hf (h.resolve_left (by simp))
  | pair p =>
    simp only [giveConverter]
    split
    next hk => exact .pair c p hf hk
    next hk =>
      refine .keep c p hf (h.resolve_left ?_) hk
      rintro ⟨q, hq, hkq⟩
      cases hq
      exact hk hkq

/-- A loop's scan that starts in the hand-out of one converter leaves the other one, and every other loop. -/
theorem giveLoop_other {s : State} {c d : Converter} {l : Fin 4} (hd : d ≠ c) (hf : s.converter d = .free) :
    (startScan (s.putConverter c (.loop l)) (.loop l)).converter d = .free := by
  rw [startScan_converter, converter_putConverter, if_neg hd, hf]
  simp

theorem giveLoop_loop {s : State} {c : Converter} {k l : Fin 4} (hk : k ≠ l) :
    (startScan (s.putConverter c (.loop l)) (.loop l)).loop k = s.loop k := by
  rw [startScan_loop, if_neg (by simpa using hk), loop_putConverter]

/-- Both arbiters' hand-outs are hand-outs one after the other: what the first gives leaves the pick of the second
eligible. -/
theorem handOut_gives (s : State) : (arbiterPick s .a = none ∨ Give s (giveConverter s .a (arbiterPick s .a)))
    ∧ (arbiterPick s .b = none ∨ Give (giveConverter s .a (arbiterPick s .a)) (handOut s)) := by
  have picked : ∀ {c u}, arbiterPick s c = some u →
      (∃ p, u = .pair p ∧ s.converter c.other = .kept p) ∨ Eligible s c u := fun h =>
    (arbiterPick_cases h).2.imp_right fun hw => mem_contenders.mp (winner_eq_some hw.2).1
  constructor
  · cases ha : arbiterPick s .a with
    | none => exact .inl rfl
    | some u => exact .inr (giveConverter_give (arbiterPick_cases ha).1 (picked ha))
  · cases hb : arbiterPick s .b with
    | none => exact .inl rfl
    | some v =>
      refine .inr ?_
      rw [handOut, hb]
      have hbf := (arbiterPick_cases hb).1
      cases ha : arbiterPick s .a with
      | none => exact giveConverter_give hbf (picked hb)
      | some u =>
        have haf := (arbiterPick_cases ha).1
        have hv : Eligible s .b v := (picked hb).resolve_left fun ⟨p, _, hk⟩ => by
          rw [show Converter.b.other = .a from rfl, haf] at hk; cases hk
        have hu : Eligible s .a u := (picked ha).resolve_left fun ⟨p, _, hk⟩ => by
          rw [show Converter.a.other = .b from rfl, hbf] at hk; cases hk
        cases u with
        | loop l =>
          have hg : giveConverter s .a (some (.loop l)) = startScan (s.putConverter .a (.loop l)) (.loop l) := rfl
          rw [hg]
          refine giveConverter_give (giveLoop_other (by decide) hbf) (.inr ?_)
          obtain ⟨hm, -, hc⟩ := hu
          cases v with
          | loop k =>
            have hne : k ≠ l := fun e => by
              have := hv.2.2
              rw [e, hc] at this
              cases this
            simpa only [Eligible, giveLoop_loop hne] using hv
          | pair p =>
            have hne : lowerLoop p ≠ l := fun e => by
              have := hv.1
              rw [e, hm] at this
              cases this
            simpa only [Eligible, giveLoop_loop hne] using hv
        | pair p =>
          have hg : giveConverter s .a (some (.pair p)) = s.putConverter .a (.kept p) :=
            if_neg (by rw [show Converter.a.other = .b from rfl, hbf]; simp)
          rw [hg]
          refine giveConverter_give (by rw [converter_putConverter, if_neg (by decide), hbf]) (.inr ?_)
          cases v <;> simpa only [Eligible, loop_putConverter] using hv

/-- Hand-outs one after the other. -/
def Gives : State → State → Prop := Relation.ReflTransGen Give

theorem handOut_gives_star (s : State) : Gives s (handOut s) := by
  obtain ⟨ha, hb⟩ := handOut_gives s
  have h1 : Gives s (giveConverter s .a (arbiterPick s .a)) := ha.elim (fun h => h ▸ .refl) .single
  exact h1.trans (hb.elim (fun h => by rw [handOut, h]; exact .refl) .single)

theorem handOuts_gives (n : Nat) (s : State) : Gives s (handOuts n s) := by
  induction n generalizing s with
  | zero => exact .refl
  | succ n ih => exact (handOut_gives_star s).trans (ih _)

theorem LoopsServed.give {s t : State} (h : LoopsServed s) (g : Give s t) : LoopsServed t := by
  cases g with
  | loop c l _ hl => exact (h.putConverter c (by simp [Holder.pairOf])).startScan (by simpa [ScanUnit.stands] using hl.1)
  | pair c p _ hk =>
    have hm := h.holders c.other p (by rw [hk]; rfl)
    have hp : ∀ q, (Holder.pair p).pairOf = some q → (s.loop (lowerLoop q)).mode = .mirrored := fun q hq => by
      cases hq; exact hm
    exact ((h.putConverter c hp).putConverter c.other (by simpa using hp)).startScan (by simpa [ScanUnit.stands] using hm)
  | keep c p _ hl _ => exact h.putConverter c fun q hq => by cases hq; exact hl.1

theorem LoopsServed.gives {s t : State} (h : LoopsServed s) (g : Gives s t) : LoopsServed t := by
  induction g with
  | refl => exact h
  | tail _ g ih => exact ih.give g

theorem Give.works {s t : State} (g : Give s t) : Works scanward s t := by
  cases g with
  | loop => exact (putConverter_works ..).trans (startScan_works ..)
  | pair => exact ((putConverter_works ..).trans (putConverter_works ..)).trans (startScan_works ..)
  | keep => exact putConverter_works ..

theorem Give.mismatchKept {s t : State} (g : Give s t) : MismatchKept s t := by
  have put : ∀ (t : State) c h, MismatchKept t (t.putConverter c h) := fun t c h =>
    .of_same (putConverter_onlyIn t c h .detectors (by decide))
  cases g with
  | loop => exact MismatchKept.trans (put _ _ _) (startScan_mismatchKept _ _)
  | pair => exact MismatchKept.trans (MismatchKept.trans (put _ _ _) (put _ _ _)) (startScan_mismatchKept _ _)
  | keep => exact put _ _ _

theorem Gives.works {s t : State} (g : Gives s t) : Works scanward s t := by
  induction g with
  | refl => exact Works.refl _ s
  | tail _ g ih => exact ih.trans g.works

theorem Gives.mismatchKept {s t : State} (g : Gives s t) : MismatchKept s t := by
  induction g with
  | refl => exact MismatchKept.refl s
  | tail _ g ih => exact MismatchKept.trans ih g.mismatchKept

/-! ### Becoming due (R22, R34) -/

theorem settleDue_works (s : State) (l : Fin 4) : Works scanward s (settleDue s l) :=
  Works.ite ((modUnit_works ..).trans (appendLoop_works ..)) (Works.refl _ s)

theorem intervalDue_works (s : State) (l : Fin 4) : Works scanward s (intervalDue s l) :=
  Works.ite ((modLoop_works ..).trans (modUnit_works ..)) (Works.refl _ s)

theorem makeDue_works (s : State) : Works scanward s (makeDue s) :=
  (Works.foldl settleDue_works _ s).trans (Works.foldl intervalDue_works _ _)

/-- What becomes due reaches no detector. -/
theorem makeDue_onlyIn (s : State) : OnlyIn ([.loops] ++ logward) s (makeDue s) := by
  refine (OnlyIn.foldl (fun t l => ?_) _ s).trans (OnlyIn.foldl (fun t l => ?_) _ _)
  · unfold settleDue
    split
    · exact OnlyIn.trans (OnlyIn.mono (modUnit_onlyIn _ _ _) (by decide)) (OnlyIn.mono (append_onlyIn _ _ _ _ _) (by decide))
    · exact OnlyIn.refl _ t
  · unfold intervalDue
    split
    · exact OnlyIn.trans (OnlyIn.mono (modLoop_onlyIn _ _ _) (by decide)) (OnlyIn.mono (modUnit_onlyIn _ _ _) (by decide))
    · exact OnlyIn.refl _ t

theorem LoopsServed.settleDue {s : State} (h : LoopsServed s) (l : Fin 4) : LoopsServed (settleDue s l) := by
  unfold Machine.settleDue
  split
  · exact (append_aside ..).served (h.modUnit (h.agree.unitOf_stands l) {})
  · exact h

theorem LoopsServed.intervalDue {s : State} (h : LoopsServed s) (l : Fin 4) : LoopsServed (intervalDue s l) := by
  unfold Machine.intervalDue
  split
  · have hm : LoopsServed (s.modLoop l fun r => { r with intervalTimer := none }) :=
      h.modLoop {} rfl fun _ _ => rfl
    have mode_eq : ∀ k, ((s.modLoop l fun r => { r with intervalTimer := none }).loop k).mode = (s.loop k).mode := fun k => by
      rw [State.loop_modLoop]; split <;> rfl
    have hu : (unitOf s l).stands (s.modLoop l fun r => { r with intervalTimer := none }) := by
      have := h.agree.unitOf_stands l
      cases hx : unitOf s l <;> simpa only [hx, ScanUnit.stands, mode_eq] using this
    exact hm.modUnit hu {}
  · exact h

theorem LoopsServed.foldl {α : Type} {f : State → α → State} (hf : ∀ s x, LoopsServed s → LoopsServed (f s x)) :
    ∀ (xs : List α) {s : State}, LoopsServed s → LoopsServed (xs.foldl f s)
  | [], _, h => h
  | x :: xs, s, h => LoopsServed.foldl hf xs (hf s x h)

theorem LoopsServed.makeDue {s : State} (h : LoopsServed s) : LoopsServed (makeDue s) :=
  LoopsServed.foldl (fun _ l k => k.intervalDue l) _ (LoopsServed.foldl (fun _ l k => k.settleDue l) _ h)

/-! ### The arbiters' work (R23) -/

theorem arbitrate_gives (s : State) : Gives (makeDue s) (arbitrate s) := handOuts_gives 8 _

theorem arbitrate_works (s : State) : Works scanward s (arbitrate s) := (makeDue_works s).trans (arbitrate_gives s).works

theorem arbitrate_mismatchKept (s : State) : MismatchKept s (arbitrate s) :=
  (MismatchKept.of_same (makeDue_onlyIn s .detectors (by decide))).trans (arbitrate_gives s).mismatchKept

theorem LoopsServed.arbitrate {s : State} (h : LoopsServed s) : LoopsServed (arbitrate s) :=
  h.makeDue.gives (arbitrate_gives s)

end Sys2Proof.Machine
end

section
/-! SUPPORT. The restart of loops, the resets of the part, the polls and the power-up (R25 to R38): each leaves the loops of
a pair in agreement. -/

set_option autoImplicit false

namespace Sys2Proof.Machine

/-! ### The invariant through a change elsewhere -/

theorem LoopPairsOk.congr {s t : State} (h : LoopPairsOk s) (hp : t.part = s.part) (hl : t.loops = s.loops)
    (ha : t.converterA = s.converterA) (hb : t.converterB = s.converterB) : LoopPairsOk t := by
  simpa only [LoopPairsOk, State.loop, hp, hl, ha, hb] using h

/-- The pieces that the invariant speaks of. -/
def pairPieces : List Piece := [.part, .loops, .converters]

theorem LoopPairsOk.of_onlyIn {ps : List Piece} {s t : State} (h : LoopPairsOk s) (k : OnlyIn ps s t)
    (hp : ∀ p ∈ pairPieces, p ∉ ps) : LoopPairsOk t :=
  have hc := k .converters (hp _ (by decide))
  h.congr (k .part (hp _ (by decide))) (k .loops (hp _ (by decide))) hc.1 hc.2

theorem LoopsServed.of_onlyIn {ps : List Piece} {s t : State} (h : LoopsServed s) (k : OnlyIn ps s t)
    (hp : ∀ p ∈ pairPieces, p ∉ ps) : LoopsServed t :=
  (h.ok.of_onlyIn k hp).served_of_inService (OnlyIn.part_eq k (hp _ (by decide)) |>.trans h.inService)

theorem LoopsServed.works {ps : List Piece} {s t : State} (h : LoopsServed s) (k : Works ps s t)
    (hp : ∀ p ∈ pairPieces, p ∉ ps) : LoopsServed t := h.of_onlyIn k.within.1 hp

/-! ### Records of a pair that change alike -/

/-- A pending mode that is taken leaves a mirrored loop in use, and no mode pending (R21, R32). -/
theorem Loop.AgreesWith.takePending {l : Fin 4} {r q : Loop} (h : Loop.AgreesWith l r q) :
    q.takePending.mode = r.takePending.mode ∧ q.takePending.pendingMode = none ∧ r.takePending.pendingMode = none
      ∧ (r.takePending.mode = .mirrored → r.takePending.inUse = true) := by
  have hq : q.pendingMode = r.pendingMode := h.pending
  unfold Loop.takePending
  rw [hq]
  cases hp : r.pendingMode with
  | none => exact ⟨h.mode, hq.trans hp, hp, h.inUse⟩
  | some m => cases m <;> exact ⟨rfl, rfl, rfl, by simp⟩

/-- Two records without a pending mode and with no interval timer running. -/
theorem Loop.AgreesWith.of_fresh {l : Fin 4} {r q : Loop} (hm : q.mode = r.mode) (hq : q.pendingMode = none)
    (hr : r.pendingMode = none) (hi : r.mode = .mirrored → r.inUse = true)
    (hc : r.mode = .mirrored → q.common = r.common) (ht : r.intervalTimer = none) : Loop.AgreesWith l r q :=
  ⟨hm, hq.trans hr.symm, by simp [hr], hi, hc, fun _ _ => ht⟩

/-- What a reset of the part makes of a loop's record: the pending mode is taken, no interval timer runs, and the loops
in use get common fields that are the same for all (R37, R38). -/
structure LoopReset (f : Loop → Loop) : Prop where
  mode : ∀ r, (f r).mode = r.takePending.mode
  pending : ∀ r, (f r).pendingMode = r.takePending.pendingMode
  inUse : ∀ r, (f r).inUse = r.takePending.inUse
  timer : ∀ r, (f r).intervalTimer = none
  common : ∀ r q, r.takePending.inUse = true → q.takePending.inUse = true → (f q).common = (f r).common

theorem LoopReset.pairsAgree {f : Loop → Loop} (hf : LoopReset f) {s t : State} (h : PairsAgree s)
    (ht : ∀ l, t.loop l = f (s.loop l)) : PairsAgree t := fun l => by
  obtain ⟨hm, hq, hr, hi⟩ := (h l).takePending
  have hi' := (h (partnerOf l)).takePending.2.2.2
  rw [ht, ht]
  refine .of_fresh ?_ ?_ ?_ ?_ ?_ (hf.timer _)
  · rw [hf.mode, hf.mode, hm]
  · rw [hf.pending, hq]
  · rw [hf.pending, hr]
  · rw [hf.mode, hf.inUse]; exact hi
  · rw [hf.mode]; exact fun h => hf.common _ _ (hi h) (hi' (hm.trans h))

theorem started_loopReset : LoopReset Loop.started where
  mode r := by simp only [Loop.started]; split <;> rfl
  pending r := by simp only [Loop.started]; split <;> rfl
  inUse r := by simp only [Loop.started]; split <;> rfl
  timer r := by simp only [Loop.started]; split <;> rfl
  common r q hr hq := by simp [Loop.started, hr, hq, Loop.powerDown, Loop.common]

theorem configured_loopReset : LoopReset Loop.configured where
  mode _ := rfl
  pending _ := rfl
  inUse _ := rfl
  timer _ := rfl
  common _ _ _ _ := rfl

/-! ### START, RESTART and ENTER CONFIGURATION (R37, R38) -/

theorem holdersOk_of_free {s : State} (h : ∀ c, s.converter c = .free) : HoldersOk s := fun c p hc => by
  rw [h c] at hc
  cases hc

theorem startRecords_served {s : State} (h : LoopPairsOk s) (rebase : Bool) : LoopsServed (startRecords rebase s) :=
  ⟨rfl, holdersOk_of_free fun c => by cases c <;> rfl,
    started_loopReset.pairsAgree ((loopPairsOk_iff s).mp h).2.1 fun l => Tbl.get_map ..⟩

theorem restAllDoors_aside (s : State) : Aside s (restAllDoors s) := Aside.foldl restDoor_aside _ s

theorem computeAllDoors_aside (s : State) : Aside s (computeAllDoors s) :=
  Aside.foldl (fun t n => Aside.of_onlyIn (computeDoor_onlyIn t n) (by decide)) _ s

theorem startDoors_aside (s : State) : Aside s (startDoors s) :=
  ((computeAllDoors_aside s).trans (restAllDoors_aside _)).trans (.of_onlyIn (ps := [.doors])
    (onlyIn_of fun p => by cases p <;> simp [Same, startDoors]) (by decide))

theorem startPart_served {s : State} (h : LoopPairsOk s) (rebase : Bool) (k : EntryKind) :
    LoopsServed (startPart rebase k s) :=
  (((append_aside ..).trans (Aside.foldl fireCall_aside _ _)).trans (startDoors_aside _)).served
    (startRecords_served h rebase)

theorem configured_quiet {l : Fin 4} {r q : Loop} (h : Loop.AgreesWith l r q) : r.configured.quiet :=
  ⟨rfl, rfl, rfl, rfl, rfl, h.takePending.2.2.1, rfl, rfl⟩

theorem configurePart_loopPairsOk {s : State} (h : LoopPairsOk s) : LoopPairsOk (configurePart s) := by
  rw [configurePart_eq]
  have hl : ∀ l, (configureRecords s).loop l = (s.loop l).configured := fun l => Tbl.get_map ..
  have hf : ∀ c, (configureRecords s).converter c = .free := fun c => by cases c <;> rfl
  have ha := ((loopPairsOk_iff s).mp h).2.1
  refine (((computeAllDoors_aside _).trans (restAllDoors_aside _)).append ..).loopPairsOk
    ((loopPairsOk_iff _).mpr ⟨holdersOk_of_free hf, configured_loopReset.pairsAgree ha hl, fun _ => ⟨hf, fun l => ?_⟩⟩)
  rw [hl]
  exact configured_quiet (ha l)

/-! ### The restart of loops (R32) -/

/-- A loop's record whose scan is abandoned (R32). -/
def Loop.abandoned (r : Loop) : Loop := { r with scan := none, due := false, intervalTimer := none }

/-- A loop's record that a restart reaches, before an upper loop takes its pair's common fields. -/
def Loop.restarted (r : Loop) : Loop := r.abandoned.takePending.powerDown

/-- The records that the restart of loops gives, before its detectors and its entries. -/
def restartRecords (s : State) (ls : List (Fin 4)) : State :=
  ls.foldl joinPair (ls.foldl (fun t l => t.modLoop l fun r => r.takePending.powerDown) (ls.foldl abandonScan s))

/-- A restart of loops after its records: the detectors and the entries. -/
def restartDetectors (s : State) (ls : List (Fin 4)) : State :=
  (s.detectors.indices fun _ d =>
    match d with
    | some d => ls.contains d.loop
    | none => false).foldl restartDetector s

/-- The entries of a restart. -/
def logRestarts (s : State) (ls : List (Fin 4)) : State :=
  ls.foldl (fun t l => appendLoop t .loopRestart l (.loopMode (t.loop l).mode)) s

theorem restartLoops_eq (s : State) (ls : List (Fin 4)) :
    restartLoops s ls = arbitrate (logRestarts (restartDetectors (restartRecords s ls) ls) ls) := rfl

theorem loop_abandonScan (s : State) (l k : Fin 4) :
    (abandonScan s l).loop k = if k = l then (s.loop k).abandoned else s.loop k := by
  simp only [abandonScan, State.loop_modLoop, loop_releaseConverters]
  split
  next h => rw [h]; rfl
  next => rfl

/-- A change of one loop's record after the other changes the records of those loops. -/
theorem loop_foldl {g : State → Fin 4 → State} {f : Loop → Loop}
    (hg : ∀ t l k, (g t l).loop k = if k = l then f (t.loop k) else t.loop k) {ls : List (Fin 4)} (hn : ls.Nodup)
    (s : State) (k : Fin 4) : (ls.foldl g s).loop k = if k ∈ ls then f (s.loop k) else s.loop k := by
  induction ls generalizing s with
  | nil => rfl
  | cons l ls ih =>
    obtain ⟨hl, hn⟩ := List.nodup_cons.mp hn
    rw [List.foldl_cons, ih hn, hg]
    by_cases hk : k = l
    · subst hk; simp [hl]
    · simp [hk]

/-- A loop's pair record does not depend on which loops of its pair have joined. -/
theorem pairRecord_joinPair (s : State) (l k : Fin 4) : pairRecord (joinPair s l) k = pairRecord s k := by
  have mode_eq : ∀ k, ((joinPair s l).loop k).mode = (s.loop k).mode := fun k => by
    rw [joinPair_loop]
    split
    next h =>
      subst h
      cases hu : isMirroredUpper s k with
      | true => rw [pairRecord_of_upper hu]; rfl
      | false => rw [pairRecord_of_not_upper hu]
    next => rfl
  have upper_eq : isMirroredUpper (joinPair s l) k = isMirroredUpper s k := by
    simp only [isMirroredUpper, mode_eq]
  cases hu : isMirroredUpper s k with
  | false =>
    rw [pairRecord_of_not_upper (upper_eq.trans hu), pairRecord_of_not_upper hu, joinPair_loop]
    split
    next h => subst h; exact pairRecord_of_not_upper hu
    next => rfl
  | true =>
    have hlow : ∀ p, isMirroredUpper s (lowerLoop p) = false := fun p => by
      simp [isMirroredUpper, Nat.not_le.mpr (lowerLoop_lt p)]
    have lower_eq : (joinPair s l).loop (lowerLoop (pairOf k)) = s.loop (lowerLoop (pairOf k)) := by
      rw [joinPair_loop]
      split
      next h => subst h; exact pairRecord_of_not_upper (hlow _)
      next => rfl
    rw [pairRecord_of_upper (upper_eq.trans hu), pairRecord_of_upper hu, lower_eq, joinPair_loop]
    split
    next h => subst h; rw [pairRecord_of_upper hu]; rfl
    next => rfl

theorem loop_joinPairs (ls : List (Fin 4)) (s : State) (k : Fin 4) :
    (ls.foldl joinPair s).loop k = if k ∈ ls then pairRecord s k else s.loop k := by
  induction ls generalizing s with
  | nil => rfl
  | cons l ls ih =>
    rw [List.foldl_cons, ih, pairRecord_joinPair, joinPair_loop]
    by_cases hk : k = l
    · subst hk; simp
    · simp [hk]

/-- The records of a restart: the loops it reaches are restarted, and an upper loop that is mirrored then has its pair's
common fields. -/
theorem loop_restartRecords {ls : List (Fin 4)} (hn : ls.Nodup) (s : State) (k : Fin 4) :
    (restartRecords s ls).loop k = if k ∈ ls then
      if 2 ≤ k.val ∧ (s.loop k).restarted.mode = .mirrored then
        Loop.joined (if lowerLoop (pairOf k) ∈ ls then (s.loop (lowerLoop (pairOf k))).restarted
          else s.loop (lowerLoop (pairOf k))) (s.loop k).restarted
      else (s.loop k).restarted
      else s.loop k := by
  have powered : ∀ j, ((ls.foldl (fun t l => t.modLoop l fun r => r.takePending.powerDown)
      (ls.foldl abandonScan s)).loop j) = if j ∈ ls then (s.loop j).restarted else s.loop j := fun j => by
    rw [loop_foldl (fun t l => State.loop_modLoop t l _) hn, loop_foldl loop_abandonScan hn]
    split <;> rfl
  rw [restartRecords, loop_joinPairs]
  by_cases hk : k ∈ ls
  · simp only [hk, if_true, pairRecord, isMirroredUpper, powered, Bool.and_eq_true, decide_eq_true_eq]
  · simp only [hk, if_false, powered]

theorem restartReach_nodup (s : State) (l : Fin 4) : (restartReach s l).Nodup := by
  unfold restartReach
  split
  · generalize pairOf l = p
    revert p
    decide
  · simp

/-- A restart reaches the pair of a loop whose mode, or pending mode, is mirrored, and else the loop alone (R32). -/
theorem mem_restartReach {s : State} {l k : Fin 4} : k ∈ restartReach s l ↔ k = l ∨
    ((s.loop l).mode = .mirrored ∨ (s.loop l).pendingMode = some .mirrored) ∧ k = partnerOf l := by
  unfold restartReach
  split
  next h =>
    have : k ∈ [lowerLoop (pairOf l), upperLoop (pairOf l)] ↔ k = l ∨ k = partnerOf l := by
      rw [← pairOf_eq_iff]
      exact mem_loops_pair (pairOf l) k
    simpa only [h, true_and] using this
  next h => simp only [h, false_and, or_false, List.mem_singleton]

theorem abandonScan_onlyIn (s : State) (l : Fin 4) : OnlyIn [.loops, .converters] s (abandonScan s l) :=
  OnlyIn.trans (OnlyIn.mono (releaseConverters_onlyIn s _) (by decide)) (OnlyIn.mono (modLoop_onlyIn _ _ _) (by decide))

theorem joinPair_onlyIn (s : State) (l : Fin 4) : OnlyIn [.loops, .converters] s (joinPair s l) :=
  OnlyIn.mono (modLoop_onlyIn _ _ _) (by decide)

theorem restartRecords_onlyIn (s : State) (ls : List (Fin 4)) : OnlyIn [.loops, .converters] s (restartRecords s ls) :=
  OnlyIn.trans (OnlyIn.trans (OnlyIn.foldl abandonScan_onlyIn ls s)
    (OnlyIn.foldl (fun t l => OnlyIn.mono (modLoop_onlyIn t l _) (by decide)) ls _)) (OnlyIn.foldl joinPair_onlyIn ls _)

/-- A restart frees converters, and gives none away. -/
theorem converter_restartRecords (s : State) (ls : List (Fin 4)) (c : Converter) :
    (restartRecords s ls).converter c = (ls.foldl abandonScan s).converter c :=
  OnlyIn.converter_eq (ps := [.loops]) (OnlyIn.trans (OnlyIn.foldl (fun t l => modLoop_onlyIn t l _) ls _)
    (OnlyIn.foldl (fun t l => modLoop_onlyIn t l _) ls _)) (by decide) c

theorem converter_abandonScan (s : State) (l : Fin 4) (c : Converter) :
    (abandonScan s l).converter c = if (s.converter c).isFor (unitOf s l) then .free else s.converter c := by
  rw [abandonScan, converter_modLoop, converter_releaseConverters]

/-- A converter after scans are abandoned is free, or as it was. -/
theorem converter_abandonScans (ls : List (Fin 4)) (s : State) (c : Converter) :
    (ls.foldl abandonScan s).converter c = .free ∨ (ls.foldl abandonScan s).converter c = s.converter c := by
  induction ls generalizing s with
  | nil => exact .inr rfl
  | cons l ls ih =>
    have := converter_abandonScan s l c
    rcases ih (abandonScan s l) with h | h
    · exact .inl h
    · rw [List.foldl_cons, h, this]
      split
      · exact .inl rfl
      · exact .inr rfl

/-- The converters of the units whose scans are abandoned are free. -/
theorem abandonScans_free {ls : List (Fin 4)} {l : Fin 4} (hl : l ∈ ls) (s : State) (c : Converter)
    (hc : (s.converter c).isFor (unitOf s l) = true) : (ls.foldl abandonScan s).converter c = .free := by
  induction ls generalizing s with
  | nil => cases hl
  | cons k ls ih =>
    have unit_eq : unitOf (abandonScan s k) l = unitOf s l := by
      have : ((abandonScan s k).loop l).mode = (s.loop l).mode := by
        rw [loop_abandonScan]; split <;> rfl
      simp only [unitOf, this]
    rw [List.foldl_cons]
    by_cases hf : (abandonScan s k).converter c = .free
    · rcases converter_abandonScans ls (abandonScan s k) c with h | h
      · exact h
      · exact h.trans hf
    · have hk := converter_abandonScan s k c
      rcases List.mem_cons.mp hl with rfl | hl
      · exact absurd (hk.trans (if_pos hc)) hf
      · refine ih hl _ ?_
        rw [unit_eq, hk]
        split
        next h => exact absurd (hk.trans (if_pos h)) hf
        next => exact hc

/-- What a restart takes over of a loop's record. -/
theorem restarted_eq (r : Loop) : r.restarted.mode = r.takePending.mode ∧ r.restarted.pendingMode = r.takePending.pendingMode
    ∧ r.restarted.inUse = r.takePending.inUse ∧ r.restarted.intervalTimer = none := by
  unfold Loop.restarted Loop.takePending Loop.abandoned
  cases hp : r.pendingMode with
  | none => simp [Loop.powerDown, hp]
  | some m => cases m <;> simp [Loop.powerDown]

/-- A restarted loop has no mode pending, and it is in use where it is mirrored. -/
theorem Loop.AgreesWith.restarted {l : Fin 4} {r q : Loop} (h : Loop.AgreesWith l r q) :
    q.restarted.mode = r.restarted.mode ∧ q.restarted.pendingMode = none ∧ r.restarted.pendingMode = none
      ∧ (r.restarted.mode = .mirrored → r.restarted.inUse = true) := by
  obtain ⟨hm, hp, hi, -⟩ := restarted_eq r
  obtain ⟨hm', hp', -, -⟩ := restarted_eq q
  rw [hm, hm', hp, hp', hi]
  exact h.takePending

/-- A loop that is mirrored after a restart had its pair reached. -/
theorem mirrored_of_restarted {r : Loop} (h : r.restarted.mode = .mirrored) :
    r.mode = .mirrored ∨ r.pendingMode = some .mirrored := by
  rw [(restarted_eq r).1, Loop.takePending] at h
  split at h
  next => exact .inl h
  next hp => exact .inr hp
  next => cases h

/-- Where a restart reaches a loop and not its partner, no mode of the pair is, or becomes, mirrored. -/
theorem independent_of_alone {s : State} (h : PairsAgree s) {l k : Fin 4} (hk : k ∈ restartReach s l)
    (hp : partnerOf k ∉ restartReach s l) : (s.loop k).mode = .independent ∧ (s.loop k).pendingMode = none := by
  rw [mem_restartReach] at hk hp
  rcases hk with rfl | ⟨-, rfl⟩
  · have hn : ¬ ((s.loop k).mode = .mirrored ∨ (s.loop k).pendingMode = some .mirrored) := fun c => hp (.inr ⟨c, rfl⟩)
    have hd := (h k).differs
    cases hm : (s.loop k).mode with
    | mirrored => exact absurd (.inl hm) hn
    | independent =>
      cases hp : (s.loop k).pendingMode with
      | none => exact ⟨rfl, rfl⟩
      | some m =>
        cases m with
        | mirrored => exact absurd (.inr hp) hn
        | independent => exact absurd (hp.trans (congrArg some hm.symm)) hd
  · exact absurd (.inl (partnerOf_partnerOf l)) hp

/-- A restarted loop's record, with its pair's common fields where it is the upper loop of a mirrored pair. -/
def Loop.paired (l : Fin 4) (r q : Loop) : Loop := if 2 ≤ l.val ∧ r.mode = .mirrored then Loop.joined q r else r

theorem paired_eq (l : Fin 4) (r q : Loop) : (Loop.paired l r q).mode = r.mode
    ∧ (Loop.paired l r q).pendingMode = r.pendingMode ∧ (Loop.paired l r q).inUse = r.inUse
    ∧ (Loop.paired l r q).intervalTimer = r.intervalTimer := by
  unfold Loop.paired
  split <;> exact ⟨rfl, rfl, rfl, rfl⟩

theorem paired_common {l : Fin 4} {r q : Loop} (hm : q.mode = r.mode) (hr : r.mode = .mirrored) :
    (Loop.paired (partnerOf l) q r).common = (Loop.paired l r q).common := by
  have hside : ∀ l : Fin 4, 2 ≤ (partnerOf l).val ↔ ¬ 2 ≤ l.val := by decide
  unfold Loop.paired
  by_cases hl : 2 ≤ l.val
  · rw [if_neg fun x => (hside l).mp x.1 hl, if_pos ⟨hl, hr⟩]; rfl
  · rw [if_pos ⟨(hside l).mpr hl, hm.trans hr⟩, if_neg fun x => hl x.1]; rfl

/-- The records of a restart where the loops of each pair agree: an upper loop that is mirrored then takes the common
fields of its lower loop, which the restart reaches with it. -/
theorem loop_restartRecords_of_agree {s : State} (h : PairsAgree s) (l k : Fin 4) :
    (restartRecords s (restartReach s l)).loop k = if k ∈ restartReach s l then
      Loop.paired k (s.loop k).restarted (s.loop (partnerOf k)).restarted else s.loop k := by
  have hlower : ∀ k : Fin 4, 2 ≤ k.val → lowerLoop (pairOf k) = partnerOf k := by decide
  rw [loop_restartRecords (restartReach_nodup s l)]
  by_cases hk : k ∈ restartReach s l
  · rw [if_pos hk, if_pos hk, Loop.paired]
    by_cases hu : 2 ≤ k.val ∧ (s.loop k).restarted.mode = .mirrored
    · have hp : partnerOf k ∈ restartReach s l := by
        by_contra hp
        obtain ⟨hm, hn⟩ := independent_of_alone h hk hp
        have := mirrored_of_restarted hu.2
        simp [hm, hn] at this
      rw [if_pos hu, if_pos hu, hlower k hu.1, if_pos hp]
    · rw [if_neg hu, if_neg hu]
  · rw [if_neg hk, if_neg hk]

/-- Two records of independent loops without a pending mode. -/
theorem Loop.AgreesWith.of_independent {l : Fin 4} {r q : Loop} (hr : r.mode = .independent) (hq : q.mode = .independent)
    (hrp : r.pendingMode = none) (hqp : q.pendingMode = none) : Loop.AgreesWith l r q := by
  constructor <;> simp [hr, hq, hrp, hqp]

theorem restartRecords_agree {s : State} (h : PairsAgree s) (l : Fin 4) :
    PairsAgree (restartRecords s (restartReach s l)) := fun k => by
  have independent : ∀ k, (s.loop k).mode = .independent ∧ (s.loop k).pendingMode = none →
      (s.loop k).restarted.mode = .independent ∧ (s.loop k).restarted.pendingMode = none := fun k ⟨hm, hp⟩ => by
    obtain ⟨h1, h2, -⟩ := restarted_eq (s.loop k)
    rw [h1, h2, Loop.takePending, hp]
    exact ⟨hm, hp⟩
  have partner : ∀ k, (s.loop k).mode = .independent ∧ (s.loop k).pendingMode = none →
      (s.loop (partnerOf k)).mode = .independent ∧ (s.loop (partnerOf k)).pendingMode = none := fun k ⟨hm, hp⟩ =>
    ⟨(h k).mode.trans hm, (h k).pending.trans hp⟩
  rw [loop_restartRecords_of_agree h, loop_restartRecords_of_agree h, partnerOf_partnerOf]
  obtain ⟨hm1, hp1, hi1, ht1⟩ := paired_eq k (s.loop k).restarted (s.loop (partnerOf k)).restarted
  obtain ⟨hm2, hp2, -, -⟩ := paired_eq (partnerOf k) (s.loop (partnerOf k)).restarted (s.loop k).restarted
  by_cases hk : k ∈ restartReach s l <;> by_cases hq : partnerOf k ∈ restartReach s l
  · rw [if_pos hk, if_pos hq]
    obtain ⟨hm, hp, hr, hi⟩ := (h k).restarted
    refine .of_fresh ?_ (hp2.trans hp) (hp1.trans hr) ?_ ?_ (ht1.trans (restarted_eq _).2.2.2)
    · rw [hm1, hm2, hm]
    · rw [hm1, hi1]; exact hi
    · rw [hm1]; exact paired_common hm
  · rw [if_pos hk, if_neg hq]
    have ho := independent_of_alone h hk hq
    obtain ⟨hm, hp⟩ := independent k ho
    obtain ⟨hm', hp'⟩ := partner k ho
    exact .of_independent (hm1.trans hm) hm' (hp1.trans hp) hp'
  · rw [if_neg hk, if_pos hq]
    have ho := independent_of_alone h hq (by rwa [partnerOf_partnerOf])
    obtain ⟨hm, hp⟩ := independent _ ho
    obtain ⟨hm', hp'⟩ := partner _ ho
    rw [partnerOf_partnerOf] at hm' hp'
    exact .of_independent hm' (hm2.trans hm) hp' (hp2.trans hp)
  · rw [if_neg hk, if_neg hq]
    exact h k

theorem isFor_pair {x : Holder} {p : Fin 2} (h : x.pairOf = some p) : x.isFor (.pair p) = true := by
  cases x <;> simp_all [Holder.pairOf, Holder.isFor]

theorem restartRecords_served {s : State} (h : LoopsServed s) (l : Fin 4) :
    LoopsServed (restartRecords s (restartReach s l)) := by
  refine ⟨(OnlyIn.part_eq (restartRecords_onlyIn s _) (by decide)).trans h.inService, fun c p hc => ?_,
    restartRecords_agree h.agree l⟩
  rw [converter_restartRecords] at hc
  have hs : (s.converter c).pairOf = some p := by
    rcases converter_abandonScans (restartReach s l) s c with e | e
    · rw [e] at hc; cases hc
    · rwa [e] at hc
  have hm := h.holders c p hs
  have hout : lowerLoop p ∉ restartReach s l := fun hin => by
    have hu : unitOf s (lowerLoop p) = .pair p := by simp [unitOf, hm]
    rw [abandonScans_free hin s c (by rw [hu]; exact isFor_pair hs)] at hc
    cases hc
  rw [loop_restartRecords_of_agree h.agree, if_neg hout]
  exact hm

theorem restartDetectors_works (s : State) (ls : List (Fin 4)) : Works detectorward s (restartDetectors s ls) :=
  Works.foldl restartDetector_works _ s

theorem logRestarts_aside (s : State) (ls : List (Fin 4)) : Aside s (logRestarts s ls) :=
  Aside.foldl (fun _ _ => append_aside ..) ls s

theorem restartLoops_served {s : State} (h : LoopsServed s) (l : Fin 4) :
    LoopsServed (restartLoops s (restartReach s l)) := by
  rw [restartLoops_eq]
  exact ((logRestarts_aside _ _).served
    ((restartRecords_served h l).works (restartDetectors_works _ _) (by decide))).arbitrate

/-! ### Polls and power-up (R25 to R34) -/

/-- A change of a unit's records with the entry of it. -/
theorem LoopsServed.modUnit_append {s : State} (h : LoopsServed s) {u : ScanUnit} (hu : u.stands s) {f : Loop → Loop}
    (hf : UnitChange f) (k : EntryKind) (l : Fin 4) (d : Detail) : LoopsServed (appendLoop (Machine.modUnit s u f) k l d) :=
  (append_aside ..).served (h.modUnit hu hf)

theorem stands_modUnit {s : State} {u v : ScanUnit} {f : Loop → Loop} (hf : ∀ r, (f r).mode = r.mode) :
    v.stands (modUnit s u f) ↔ v.stands s := by
  have : ∀ l, ((modUnit s u f).loop l).mode = (s.loop l).mode := fun l => by
    rw [loop_modUnit]
    split
    · exact hf _
    · rfl
  cases v <;> simp only [ScanUnit.stands, this]

theorem Aside.stands {s t : State} (h : Aside s t) (u : ScanUnit) : u.stands t ↔ u.stands s := by
  cases u <;> simp only [ScanUnit.stands, h.loop_eq]

theorem appendLoop_aside (s : State) (k : EntryKind) (l : Fin 4) (d : Detail) : Aside s (appendLoop s k l d) :=
  append_aside ..

/-- A judgment of a scan keeps the loops served, and the unit it judges. -/
theorem clearLineFault_served {s : State} (h : LoopsServed s) {u : ScanUnit} (hu : u.stands s) (r : Reading) :
    LoopsServed (clearLineFault s u r) ∧ u.stands (clearLineFault s u r) := by
  unfold clearLineFault
  split
  · exact ⟨h.modUnit_append hu {} .., ((appendLoop_aside ..).stands u).mpr ((stands_modUnit (by intro; rfl)).mpr hu)⟩
  · exact ⟨h, hu⟩

theorem judgeLineFault_served {s : State} (h : LoopsServed s) {u : ScanUnit} (hu : u.stands s) (xs : List PollNote) :
    LoopsServed (judgeLineFault s u xs) ∧ u.stands (judgeLineFault s u xs) := by
  unfold judgeLineFault
  split
  · exact ⟨h.modUnit_append hu {} .., ((appendLoop_aside ..).stands u).mpr ((stands_modUnit (by intro; rfl)).mpr hu)⟩
  · exact ⟨h, hu⟩

theorem judgeBreak_served {s : State} (h : LoopsServed s) {u : ScanUnit} (hu : u.stands s) (xs : List PollNote) :
    LoopsServed (judgeBreak s u xs) := by
  simp only [judgeBreak]
  split
  · split
    · exact h
    · exact h.modUnit_append hu {} ..
  · split
    · exact h.modUnit_append hu {} ..
    · exact h

theorem endScan_served {s : State} (h : LoopsServed s) {u : ScanUnit} (hu : u.stands s) (xs : List PollNote) :
    LoopsServed (endScan s u xs) := by
  obtain ⟨hj, hju⟩ := judgeLineFault_served (h.modUnit hu (f := fun x => { x with scan := none }) {})
    ((stands_modUnit (by intro; rfl)).mpr hu) xs
  cases u with
  | loop l => exact (hj.release _).arbitrate
  | pair p => exact ((judgeBreak_served hj hju xs).release _).arbitrate

theorem moveOn_served {s : State} (h : LoopsServed s) {u : ScanUnit} (hu : u.stands s) (sc : Scan) (x : PollNote) :
    LoopsServed (moveOn s u sc x) := by
  simp only [moveOn]
  split
  · exact h.modUnit hu {}
  · exact endScan_served h hu _

theorem takeMismatch_onlyIn (s : State) (n : Fin 192) (a b : Reading) :
    OnlyIn ([.detectors] ++ logward) s (takeMismatch s n a b) := by
  unfold takeMismatch
  split
  · exact OnlyIn.refl _ s
  · dsimp only
    split
    · exact OnlyIn.trans (OnlyIn.mono (putDetector_onlyIn _ _ _) (by decide))
        (OnlyIn.mono (append_onlyIn _ _ _ _ _) (by decide))
    · exact OnlyIn.mono (putDetector_onlyIn _ _ _) (by decide)

theorem completePoll_served {s : State} (h : LoopsServed s) {l : Fin 4} (hu : (ScanUnit.loop l).stands s) (sc : Scan)
    (r : Reading) : LoopsServed (completePoll s l sc r) := by
  have hread : Aside s (match detectorPolled s l sc.slot with
      | some n => takeReading s n r
      | none => s) := by
    split
    · exact takeReading_aside ..
    · exact Aside.refl s
  obtain ⟨hc, hcu⟩ := clearLineFault_served (hread.served h) ((hread.stands _).mpr hu) r
  exact moveOn_served hc hcu _ _

theorem completeMirrored_served {s : State} (h : LoopsServed s) {p : Fin 2} (hu : (ScanUnit.pair p).stands s) (sc : Scan)
    (a b : Reading) : LoopsServed (completeMirrored s p sc a b) := by
  have hread : ∀ t, (t = match detectorPolled s (lowerLoop p) sc.slot with
      | some n => takeReading (takeMismatch s n a b) n (combineEnds a b)
      | none => s) → LoopsServed t ∧ (ScanUnit.pair p).stands t := by
    rintro t rfl
    split
    · have hm := takeMismatch_onlyIn s ‹_› a b
      refine ⟨(takeReading_aside ..).served (h.of_onlyIn hm (by decide)), ?_⟩
      simp only [ScanUnit.stands, (takeReading_aside ..).loop_eq, OnlyIn.loop_eq hm (by decide)]
      exact hu
    · exact ⟨h, hu⟩
  obtain ⟨hr, hru⟩ := hread _ rfl
  obtain ⟨hc, hcu⟩ := clearLineFault_served hr hru (combineEnds a b)
  exact moveOn_served hc hcu _ _

theorem powerUp_served {s : State} (h : LoopsServed s) (l : Fin 4) : LoopsServed (powerUp s l) :=
  h.modUnit (h.agree.unitOf_stands l) {}

end Sys2Proof.Machine
end

section
/-! The two loops of a pair through every step (O14): the owners' verdicts, and what each event of the opcode table leaves. -/

set_option autoImplicit false

namespace Sys2Proof.Machine

/-! ### Verdicts -/

/-- Where the command is taken, the state its owner leaves is as `P` says. -/
def Verdict.Leaves (P : State → Prop) : Verdict → Prop
  | .refused _ _ => True
  | .taken t _ _ => P t

section
variable {P : State → Prop}

theorem Verdict.Leaves.mono {Q : State → Prop} {v : Verdict} (h : v.Leaves P) (k : ∀ t, P t → Q t) : v.Leaves Q := by
  cases v with
  | refused => trivial
  | taken t => exact k t h

theorem done_leaves {t : State} (h : P t) : (done t).Leaves P := h

theorem doneApplied_leaves {t : State} {given applied : List Nat} (h : P t) :
    (doneApplied t given applied).Leaves P := by
  simp only [doneApplied]
  split <;> exact h

theorem need_leaves {ok : Bool} {code : ReplyCode} {k : Verdict} (h : ok = true → k.Leaves P) :
    (need ok code k).Leaves P := by
  cases ok
  · trivial
  · exact h rfl

theorem ite_leaves {c : Prop} [Decidable c] {v w : Verdict} (hv : v.Leaves P) (hw : w.Leaves P) :
    (if c then v else w).Leaves P := by
  split
  · exact hv
  · exact hw

theorem onObject_leaves {n size : Nat} {k : Fin size → Verdict} (h : ∀ i, (k i).Leaves P) :
    (onObject n size k).Leaves P := by
  simp only [onObject]
  split
  · exact h _
  · trivial

theorem onObjects_leaves {size : Nat} (ns : List Nat) {k : List (Fin size) → Verdict} (h : ∀ xs, (k xs).Leaves P) :
    (onObjects ns size k).Leaves P := by
  induction ns generalizing k with
  | nil => exact h []
  | cons n rest ih => exact onObject_leaves fun x => ih fun xs => h (x :: xs)

theorem onOptional_leaves {size : Nat} (n : Option Nat) {k : Option (Fin size) → Verdict} (h : ∀ x, (k x).Leaves P) :
    (onOptional n size k).Leaves P := by
  cases n with
  | none => exact h none
  | some n => exact onObject_leaves fun x => h (some x)

theorem onValue_leaves {α : Type} {x : Option α} {k : α → Verdict} (h : ∀ a, (k a).Leaves P) :
    (onValue x k).Leaves P := by
  cases x with
  | none => trivial
  | some a => exact h a

theorem onDetector_leaves {s : State} {n : Nat} {k : Fin 192 → Detector → Verdict}
    (h : ∀ i d, s.detector i = some d → (k i d).Leaves P) : (onDetector s n k).Leaves P := by
  refine onObject_leaves fun i => ?_
  cases hd : s.detector i with
  | none => trivial
  | some d => exact h i d hd

theorem onRoutes_leaves (rs : List RouteFields) {k : List Route → Verdict} (h : ∀ xs, (k xs).Leaves P) :
    (onRoutes rs k).Leaves P := by
  induction rs generalizing k with
  | nil => exact h []
  | cons r rest ih => exact onObject_leaves fun a => onObject_leaves fun e => ih fun xs => h _

theorem onSideB_leaves (b : SideFields) {k : Option (Option (Fin 64)) → Verdict} (h : ∀ x, (k x).Leaves P) :
    (onSideB b k).Leaves P := by
  cases b with
  | zone z => exact onObject_leaves fun z => h (some (some z))
  | outside => exact h _
  | other => exact h _

end

/-! ### Runtime commands outside the Loop Scan Unit -/

theorem doAcknowledgeWing_aside (w : Nat) (st : Station) (s : State) : (doAcknowledgeWing w st s).Leaves (Aside s) := by
  refine need_leaves fun _ => onObject_leaves fun w => need_leaves fun _ => ?_
  split
  · exact done_leaves ((changeStage_aside ..).trans (sound_aside ..))
  all_goals trivial

theorem doEvacuateWing_aside (w : Nat) (st : Station) (s : State) : (doEvacuateWing w st s).Leaves (Aside s) :=
  need_leaves fun _ => onObject_leaves fun _ => need_leaves fun _ => ite_leaves (done_leaves (Aside.refl s))
    (done_leaves (enterEvacuate_aside ..).round)

theorem doSilenceWing_aside (w : Nat) (r : Revision) (st : Station) (s : State) :
    (doSilenceWing w r st s).Leaves (Aside s) :=
  need_leaves fun _ => onObject_leaves fun _ => need_leaves fun _ => need_leaves fun _ => need_leaves fun _ =>
    ite_leaves (done_leaves (Aside.refl s)) (done_leaves (Aside.append (Aside.trans (.same (by rfl)) (sound_aside ..)) ..))

theorem afterZoneReset_aside (s : State) (w : Fin 4) : Aside s (afterZoneReset s w) := by
  simp only [afterZoneReset]
  split
  · exact Aside.ite ((changeStage_aside ..).trans (returnEffects_aside ..)) (Aside.refl s)
  · exact Aside.ite ((changeStage_aside ..).trans (returnEffects_aside ..)) (Aside.refl s)
  all_goals exact Aside.refl s

theorem doResetZone_aside (z : Nat) (r : Revision) (st : Station) (s : State) :
    (doResetZone z r st s).Leaves (Aside s) :=
  need_leaves fun _ => onObject_leaves fun _ => need_leaves fun _ => need_leaves fun _ => need_leaves fun _ =>
    need_leaves fun _ => need_leaves fun _ => done_leaves ((resetOneZone_aside ..).trans (afterZoneReset_aside ..))

theorem resetWingNow_aside (s : State) (w : Fin 4) : Aside s (resetWingNow s w) :=
  Aside.trans (Aside.append (Aside.trans (Aside.foldl resetOneZone_aside _ s) (.same (by rfl))) ..) (returnEffects_aside ..)

theorem doResetWing_aside (w : Nat) (r : Revision) (st : Station) (s : State) :
    (doResetWing w r st s).Leaves (Aside s) :=
  need_leaves fun _ => onObject_leaves fun w => need_leaves fun _ => need_leaves fun _ => need_leaves fun _ =>
    need_leaves fun _ => done_leaves (resetWingNow_aside s w)

theorem doManualAlarmZone_aside (z : Nat) (st : Station) (s : State) : (doManualAlarmZone z st s).Leaves (Aside s) :=
  need_leaves fun _ => onObject_leaves fun _ => need_leaves fun _ => need_leaves fun _ => done_leaves
    (((append_aside ..).trans (zoneAlarm_aside ..)).trans (offerAfterEvacuation_aside ..))

theorem markExit_aside (s : State) (e : Fin 16) (b : Bool) : Aside s (markExit s e b) :=
  Aside.ite (Aside.refl s) (Aside.append (Aside.trans (.same (by rfl)) (trigger_aside _)) ..)

theorem doMarkExitBlocked_aside (e : Nat) (st : Station) (s : State) : (doMarkExitBlocked e st s).Leaves (Aside s) :=
  need_leaves fun _ => onObject_leaves fun e => need_leaves fun _ => need_leaves fun _ =>
    done_leaves (markExit_aside s e true)

theorem doMarkExitOpen_aside (e : Nat) (st : Station) (s : State) : (doMarkExitOpen e st s).Leaves (Aside s) :=
  need_leaves fun _ => onObject_leaves fun e => need_leaves fun _ => need_leaves fun _ =>
    done_leaves (markExit_aside s e false)

theorem doDisableDetector_aside (n : Nat) (st : Station) (s : State) : (doDisableDetector n st s).Leaves (Aside s) :=
  need_leaves fun _ => onDetector_leaves fun _ _ h => need_leaves fun _ => done_leaves (putDetector_aside h rfl)

theorem doEnableDetector_aside (n : Nat) (st : Station) (s : State) : (doEnableDetector n st s).Leaves (Aside s) :=
  need_leaves fun _ => onDetector_leaves fun _ _ h => need_leaves fun _ => done_leaves (putDetector_aside h rfl)

theorem doSetWingMode_aside (w : Nat) (m : Option Mode) (st : Station) (s : State) :
    (doSetWingMode w m st s).Leaves (Aside s) :=
  need_leaves fun _ => onObject_leaves fun _ => need_leaves fun _ => onValue_leaves fun _ =>
    ite_leaves (done_leaves (Aside.refl s)) (done_leaves (Aside.append (.same (by rfl)) ..))

theorem doArmZone_aside (z : Nat) (st : Station) (s : State) : (doArmZone z st s).Leaves (Aside s) :=
  need_leaves fun _ => onObject_leaves fun _ => need_leaves fun _ => need_leaves fun _ => need_leaves fun _ =>
    need_leaves fun _ => need_leaves fun _ => need_leaves fun _ => need_leaves fun _ => need_leaves fun _ =>
    done_leaves (setSecurity_append_aside ..)

theorem doDisarmZone_aside (z : Nat) (st : Station) (s : State) : (doDisarmZone z st s).Leaves (Aside s) := by
  refine need_leaves fun _ => onObject_leaves fun z => need_leaves fun _ => need_leaves fun _ => ?_
  have disarmed : Aside s (disarm s z) := setSecurity_append_aside ..
  split
  case h_4 => exact done_leaves (Aside.refl s)
  case h_5 => trivial
  all_goals exact done_leaves disarmed

theorem doClearBreach_aside (z : Nat) (r : Revision) (st : Station) (s : State) :
    (doClearBreach z r st s).Leaves (Aside s) :=
  need_leaves fun _ => onObject_leaves fun _ => need_leaves fun _ => need_leaves fun _ => need_leaves fun _ =>
    need_leaves fun _ => done_leaves (setSecurity_append_aside ..)

theorem doPassDoor_aside (n : Nat) (st : Station) (s : State) : (doPassDoor n st s).Leaves (Aside s) :=
  need_leaves fun _ => onObject_leaves fun _ => need_leaves fun _ => need_leaves fun _ => need_leaves fun _ =>
    done_leaves (modDoor_appendDoor_aside ..)

theorem doLockdownWing_aside (w : Nat) (st : Station) (s : State) : (doLockdownWing w st s).Leaves (Aside s) :=
  need_leaves fun _ => onObject_leaves fun _ => need_leaves fun _ => need_leaves fun _ =>
    ite_leaves (done_leaves (Aside.refl s)) (done_leaves (Aside.append (.same (by rfl)) ..))

theorem doEndLockdown_aside (w : Nat) (st : Station) (s : State) : (doEndLockdown w st s).Leaves (Aside s) :=
  need_leaves fun _ => onObject_leaves fun _ => need_leaves fun _ =>
    ite_leaves (done_leaves (Aside.append (.same (by rfl)) ..)) (done_leaves (Aside.refl s))

theorem doReportPatrol_aside (z : Nat) (st : Station) (s : State) : (doReportPatrol z st s).Leaves (Aside s) :=
  need_leaves fun _ => onObject_leaves fun _ => need_leaves fun _ => need_leaves fun _ =>
    done_leaves ((append_aside ..).trans (takeActivity_aside ..))

theorem doTestZoneOn_aside (z : Nat) (st : Station) (s : State) : (doTestZoneOn z st s).Leaves (Aside s) :=
  need_leaves fun _ => onObject_leaves fun z => need_leaves fun _ => need_leaves fun _ => need_leaves fun _ =>
    done_leaves (startTest_aside s z)

theorem doTestZoneOff_aside (z : Nat) (st : Station) (s : State) : (doTestZoneOff z st s).Leaves (Aside s) :=
  need_leaves fun _ => onObject_leaves fun z => need_leaves fun _ => need_leaves fun _ => need_leaves fun _ =>
    done_leaves (endTest_aside .off s z)

/-- A maintenance command of the output stage (R151 to R153). -/
theorem onRange_maintain_aside (s : State) (st : Station) (first count : Nat) (k : EntryKind)
    (stands : Channel → Bool) (f : Channel → Channel) :
    (onRange s st first count (done (maintain s first count k stands f))).Leaves (Aside s) :=
  need_leaves fun _ => need_leaves fun _ => need_leaves fun _ => need_leaves fun _ => need_leaves fun _ =>
    done_leaves (maintain_aside ..)

theorem doAcceptCall_aside (c k : Nat) (st : Station) (s : State) : (doAcceptCall c k st s).Leaves (Aside s) := by
  refine need_leaves fun _ => onObject_leaves fun c => need_leaves fun _ => onObject_leaves fun k =>
    need_leaves fun _ => need_leaves fun _ => ?_
  cases s.call c with
  | none => trivial
  | some h =>
    dsimp only
    cases h.phase with
    | raised => trivial
    | offered d n => exact ite_leaves (done_leaves (acceptOffer_aside ..)) trivial
    | accepted d => exact ite_leaves (done_leaves (Aside.refl s)) trivial

theorem doClearCall_aside (c : Nat) (st : Station) (s : State) : (doClearCall c st s).Leaves (Aside s) := by
  refine need_leaves fun _ => onObject_leaves fun c => need_leaves fun _ => need_leaves fun _ => need_leaves fun _ => ?_
  cases s.call c with
  | none => exact done_leaves (Aside.refl s)
  | some h => exact done_leaves (clearActive_aside ..)

theorem writeCapacity_aside (s : State) (k : Fin 8) (n : Nat) : Aside s (writeCapacity s k n) := by
  have written : Aside s (appendPart (s.modDesk k fun d => { d with capacity := n }) .settingChanged
      (.setting .deskCapacity)) := Aside.append (.same (by rfl)) ..
  exact Aside.ite (Aside.refl s) (Aside.ite written.round written)

theorem doSetDeskCapacity_aside (k v : Nat) (st : Station) (s : State) : (doSetDeskCapacity k v st s).Leaves (Aside s) :=
  need_leaves fun _ => onObject_leaves fun k => need_leaves fun _ => need_leaves fun _ =>
    doneApplied_leaves (writeCapacity_aside s k _)

/-! ### Writes of the configuration and of the settings outside the Loop Scan Unit -/

theorem doWriteEntryZone_aside (z : Nat) (f : ZoneFields) (st : Station) (s : State) :
    (doWriteEntryZone z f st s).Leaves (Aside s) := by
  refine need_leaves fun _ => onObject_leaves fun z => ?_
  cases f with
  | unconfigured => exact need_leaves fun _ => done_leaves (.same (by rfl))
  | configured w => exact onObject_leaves fun w => need_leaves fun _ => done_leaves (.same (by rfl))

theorem doWriteEntryWing_aside (w : Nat) (f : WingFields) (st : Station) (s : State) :
    (doWriteEntryWing w f st s).Leaves (Aside s) :=
  need_leaves fun _ => onObject_leaves fun _ => onObjects_leaves _ fun _ => onOptional_leaves _ fun _ =>
    need_leaves fun _ => onValue_leaves fun _ => need_leaves fun _ => done_leaves (.same (by rfl))

theorem doWriteEntryClass_aside (c : Nat) (f : ClassFields) (st : Station) (s : State) :
    (doWriteEntryClass c f st s).Leaves (Aside s) :=
  need_leaves fun _ => onObject_leaves fun _ => need_leaves fun _ => onValue_leaves fun _ => onValue_leaves fun _ =>
    doneApplied_leaves (.same (by rfl))

theorem doWriteEntryScanList_aside (l k : Nat) (f : SlotFields) (st : Station) (s : State) :
    (doWriteEntryScanList l k f st s).Leaves (Aside s) := by
  refine need_leaves fun _ => onObject_leaves fun l => onObject_leaves fun k => need_leaves fun _ => ?_
  cases f with
  | endMark => exact done_leaves (.same (by rfl))
  | address a e => exact need_leaves fun _ => done_leaves (.same (by rfl))

theorem doWriteEntryDoor_aside (n : Nat) (f : DoorFields) (st : Station) (s : State) :
    (doWriteEntryDoor n f st s).Leaves (Aside s) := by
  refine need_leaves fun _ => onObject_leaves fun n => ?_
  cases f with
  | unconfigured => exact need_leaves fun _ => done_leaves (.same (by rfl))
  | configured a b kind fail free inner =>
    exact onObject_leaves fun a => onSideB_leaves _ fun b => need_leaves fun _ => onValue_leaves fun b =>
      onValue_leaves fun kind => onValue_leaves fun fail => need_leaves fun _ => onValue_leaves fun inner =>
        done_leaves (Aside.trans (.same (by rfl)) (restDoor_aside ..))

theorem doWriteEntryCallPoint_aside (c : Nat) (f : PointFields) (st : Station) (s : State) :
    (doWriteEntryCallPoint c f st s).Leaves (Aside s) := by
  refine need_leaves fun _ => onObject_leaves fun c => ?_
  cases f with
  | unconfigured => exact need_leaves fun _ => done_leaves (.same (by rfl))
  | configured z kind desks =>
    exact onObject_leaves fun z => onObjects_leaves _ fun desks => need_leaves fun _ => onValue_leaves fun kind =>
      need_leaves fun _ => done_leaves (.same (by rfl))

theorem doWriteEntryDesk_aside (k : Nat) (f : DeskFields) (st : Station) (s : State) :
    (doWriteEntryDesk k f st s).Leaves (Aside s) :=
  need_leaves fun _ => onObject_leaves fun k => need_leaves fun _ => onValue_leaves fun _ => doneApplied_leaves (.same (by rfl))

theorem doWriteEntryExit_aside (e : Nat) (f : ExitFields) (st : Station) (s : State) :
    (doWriteEntryExit e f st s).Leaves (Aside s) := by
  refine need_leaves fun _ => onObject_leaves fun e => ?_
  cases f with
  | unconfigured => exact need_leaves fun _ => done_leaves (.same (by rfl))
  | configured z d =>
    exact onObject_leaves fun z => onOptional_leaves _ fun d => need_leaves fun _ => done_leaves (.same (by rfl))

theorem doWriteEntryDescriptor_aside (i : Nat) (f : DescriptorFields) (st : Station) (s : State) :
    (doWriteEntryDescriptor i f st s).Leaves (Aside s) :=
  need_leaves fun _ => onObject_leaves fun _ => onObject_leaves fun _ => onOptional_leaves _ fun _ =>
    need_leaves fun _ => onValue_leaves fun _ => done_leaves (.same (by rfl))

theorem doWriteEntryRouteList_aside (z : Nat) (rs : List RouteFields) (st : Station) (s : State) :
    (doWriteEntryRouteList z rs st s).Leaves (Aside s) :=
  need_leaves fun _ => onObject_leaves fun _ => onRoutes_leaves _ fun _ => need_leaves fun _ => need_leaves fun _ =>
    done_leaves (.same (by rfl))

theorem doWriteEntrySign_aside (g z : Nat) (st : Station) (s : State) : (doWriteEntrySign g z st s).Leaves (Aside s) :=
  need_leaves fun _ => onObject_leaves fun _ => onObject_leaves fun _ => need_leaves fun _ => done_leaves (.same (by rfl))

theorem doWriteEntryChannel_aside (n : Nat) (p : Option Polarity) (st : Station) (s : State) :
    (doWriteEntryChannel n p st s).Leaves (Aside s) :=
  need_leaves fun _ => onObject_leaves fun _ => need_leaves fun _ => onValue_leaves fun _ => need_leaves fun _ =>
    done_leaves (.same (by rfl))

theorem settingEntry_aside {s t : State} (h : Aside s t) (changed : Bool) (x : Subject) (w : Option (Fin 4))
    (n : SettingName) : Aside s (settingEntry t changed x w n) := Aside.ite (h.append ..) h

/-- A numeric setting of a wing (R5). -/
theorem writeWingSetting_aside {s : State} {st : Station} {ok : Bool} {w : Fin 4} {x : SettingName} {get : Wing → Nat}
    {put : Wing → Wing} {given applied : Nat} :
    (underSetting s st ok (writeWingSetting s w x get put given applied)).Leaves (Aside s) :=
  need_leaves fun _ => doneApplied_leaves (settingEntry_aside (.same (by rfl)) ..)

theorem doWriteSettingZoneWing_aside (i : ZoneWingSetting) (st : Station) (s : State) :
    (doWriteSettingZoneWing i st s).Leaves (Aside s) := by
  cases i <;> simp only [doWriteSettingZoneWing]
  case vacancyPeriod z v =>
    exact onObject_leaves fun z => need_leaves fun _ => need_leaves fun _ =>
      doneApplied_leaves (settingEntry_aside (.same (by rfl)) ..)
  case activityClass z source value =>
    exact onObject_leaves fun z => need_leaves fun _ => need_leaves fun _ => onValue_leaves fun x =>
      done_leaves (settingEntry_aside (.same (by rfl)) ..)
  all_goals exact onObject_leaves fun w => writeWingSetting_aside

theorem doWriteSettingDoor_aside (n : Nat) (i : DoorSetting) (st : Station) (s : State) :
    (doWriteSettingDoor n i st s).Leaves (Aside s) := by
  refine onObject_leaves fun n => need_leaves fun _ => need_leaves fun _ => ?_
  cases i with
  | tPass v => exact doneApplied_leaves (settingEntry_aside (.same (by rfl)) ..)
  | tHeld v => exact doneApplied_leaves (settingEntry_aside (.same (by rfl)) ..)

theorem writeDeskList_aside (s : State) (c : Fin 64) (ks : List (Fin 8)) : Aside s (writeDeskList s c ks) := by
  have written : Aside s (append
      (s.modPoint c fun p => { p with deskList := ks, state := p.state.relisted ks.length }) .settingChanged (.point c)
      (some (s.wingOf (s.point c).zone)) (.setting .deskList)) := Aside.append (.same (by rfl)) ..
  exact Aside.ite (Aside.refl s) (Aside.ite written.round written)

theorem doWriteSettingDeskList_aside (c : Nat) (ks : List Nat) (st : Station) (s : State) :
    (doWriteSettingDeskList c ks st s).Leaves (Aside s) :=
  onObject_leaves fun _ => need_leaves fun _ => onObjects_leaves _ fun _ => need_leaves fun _ => need_leaves fun _ =>
    done_leaves (writeDeskList_aside ..)

theorem doWriteSettingTOffer_aside (k v : Nat) (st : Station) (s : State) :
    (doWriteSettingTOffer k v st s).Leaves (Aside s) :=
  onObject_leaves fun k => need_leaves fun _ => doneApplied_leaves (settingEntry_aside (.same (by rfl)) ..)

theorem doWriteSettingRouting_aside (g : Option Group) (x : Option StationSet) (b : Bool) (st : Station) (s : State) :
    (doWriteSettingRouting g x b st s).Leaves (Aside s) := by
  have written : ∀ g x, Aside s (writeRouting s g x b) := fun g x =>
    Aside.ite (Aside.refl s) (Aside.append (.same (by rfl)) ..)
  exact need_leaves fun _ => onValue_leaves fun g => need_leaves fun _ => onValue_leaves fun x => ite_leaves
    (done_leaves (written g x)) (done_leaves (written g x))

theorem doWriteSettingAuthority_aside (x : Option Station) (w : Nat) (c : Option Category) (b : Bool) (st : Station)
    (s : State) : (doWriteSettingAuthority x w c b st s).Leaves (Aside s) :=
  onObject_leaves fun _ => need_leaves fun _ => onValue_leaves fun _ => onValue_leaves fun _ =>
    done_leaves (Aside.ite (Aside.refl s) (Aside.append (.same (by rfl)) ..))

end Sys2Proof.Machine
end

section
/-! The loops of a pair through every step (O14): the commands of the Loop Scan Unit, the resets, and what each event of the
opcode table leaves. -/

set_option autoImplicit false

namespace Sys2Proof.Machine

/-! ### Commands that write loops or detectors -/

theorem part_configuring {s : State} (h : (!s.inService) = true) : s.part = .configuring := by
  simp only [State.inService] at h
  cases hp : s.part with
  | configuring => rfl
  | inService => simp [hp] at h

theorem part_inService {s : State} (h : s.inService = true) : s.part = .inService := by
  simpa [State.inService] using h

theorem recountZone_onlyIn (s : State) (z : Fin 64) : OnlyIn [.zones] s (recountZone s z) := modZone_onlyIn s z _

theorem recountOld_onlyIn (d : Option Detector) (s : State) : OnlyIn [.zones] s (recountOld d s) := by
  cases d with
  | none => exact OnlyIn.refl _ s
  | some d => exact recountZone_onlyIn s d.zone

theorem doWriteEntryDetector_pairs {s : State} (h : LoopPairsOk s) (n : Nat) (f : DetectorFields) (st : Station) :
    (doWriteEntryDetector n f st s).Leaves LoopPairsOk := by
  have written : ∀ (n : Fin 192) (x : Option Detector),
      OnlyIn [.zones, .detectors] s (recountOld (s.detector n) (s.putDetector n x)) := fun n x =>
    OnlyIn.trans (OnlyIn.mono (putDetector_onlyIn s n x) (by decide)) (OnlyIn.mono (recountOld_onlyIn _ _) (by decide))
  refine need_leaves fun _ => onObject_leaves fun n => ?_
  cases f with
  | removed => exact need_leaves fun _ => done_leaves (h.of_onlyIn (written n none) (by decide))
  | placed l a z c =>
    exact onObject_leaves fun l => onObject_leaves fun z => onObject_leaves fun c => need_leaves fun _ =>
      need_leaves fun _ => done_leaves ((h.of_onlyIn (written n _) (by decide)).of_onlyIn (recountZone_onlyIn _ z) (by decide))

/-- A write of both loops of a pair reaches these two alone (R19). -/
theorem loop_writePairMode (s : State) (l : Fin 4) (f : Loop → Loop) (k : Fin 4) :
    (writePairMode s l f).loop k = if pairOf k = pairOf l then f (s.loop k) else s.loop k := by
  simp only [writePairMode, State.loop_modLoop, pairOf_eq_iff]
  by_cases hl : k = l
  · subst hl; simp [(partnerOf_ne k).symm]
  · by_cases hp : k = partnerOf l
    · subst hp; simp [partnerOf_ne]
    · simp [hl, hp]

theorem writePairMode_onlyIn (s : State) (l : Fin 4) (f : Loop → Loop) : OnlyIn [.loops] s (writePairMode s l f) :=
  OnlyIn.trans (modLoop_onlyIn s l f) (modLoop_onlyIn _ _ _)

theorem PairsAgree.writePairMode {s : State} (h : PairsAgree s) (l : Fin 4) {f : Loop → Loop}
    (hf : ∀ k, Loop.AgreesWith k (f (s.loop k)) (f (s.loop (partnerOf k)))) :
    PairsAgree (writePairMode s l f) := fun k => by
  rw [loop_writePairMode, loop_writePairMode, pairOf_partnerOf]
  split
  · exact hf k
  · exact h k

/-- A mode written while the part is CONFIGURING (R19). -/
theorem configureMode_pairs {s : State} (h : LoopPairsOk s) (hp : s.part = .configuring) (l : Fin 4) (m : LoopMode) :
    LoopPairsOk (configureMode s l m) := by
  obtain ⟨-, ha, hc⟩ := (loopPairsOk_iff s).mp h
  obtain ⟨hfree, hquiet⟩ := hc hp
  have written : ∀ f : Loop → Loop, (∀ k, Loop.AgreesWith k (f (s.loop k)) (f (s.loop (partnerOf k)))) →
      (∀ r : Loop, r.quiet → (f r).quiet) → LoopPairsOk (writePairMode s l f) := fun f hf hq => by
    have free : ∀ c, (writePairMode s l f).converter c = .free := fun c =>
      (OnlyIn.converter_eq (writePairMode_onlyIn s l f) (by decide) c).trans (hfree c)
    refine (loopPairsOk_iff _).mpr ⟨holdersOk_of_free free, ha.writePairMode l hf, fun _ => ⟨free, fun k => ?_⟩⟩
    rw [loop_writePairMode]
    split
    · exact hq _ (hquiet k)
    · exact hquiet k
  have common : ∀ k, (s.loop (partnerOf k)).common = (s.loop k).common := fun k => by
    obtain ⟨h1, h2, h3, h4, -, -, h7, h8⟩ := hquiet k
    obtain ⟨g1, g2, g3, g4, -, -, g7, g8⟩ := hquiet (partnerOf k)
    simp only [Loop.common, h1, h2, h3, h4, h7, h8, g1, g2, g3, g4, g7, g8]
  have pending : ∀ k, (s.loop k).pendingMode = none := fun k => by
    obtain ⟨-, -, -, -, -, h6, -⟩ := hquiet k
    exact h6
  have timer : ∀ k, (s.loop k).intervalTimer = none := fun k => by
    obtain ⟨-, -, -, -, h5, -⟩ := hquiet k
    exact h5
  simp only [configureMode]
  split
  · exact written _ (fun k => .of_fresh rfl (pending _) (pending _) (fun _ => rfl) (fun _ => common k) (timer k))
      fun _ => id
  · exact written _ (fun k => .of_independent rfl rfl (pending _) (pending _)) fun _ => id
  · exact h

theorem doWriteEntryLoop_pairs {s : State} (h : LoopPairsOk s) (l : Nat) (u : Bool) (m : Option LoopMode) (st : Station) :
    (doWriteEntryLoop l u m st s).Leaves LoopPairsOk := by
  refine need_leaves fun hp => onObject_leaves fun l => need_leaves fun _ => onValue_leaves fun m =>
    need_leaves fun _ => ?_
  split
  next hm => exact done_leaves (h.modLoop {} (fun hmir => by rw [hm.2] at hmir; cases hmir) rfl)
  next => exact done_leaves (configureMode_pairs h (part_configuring hp) l m)

/-- A mode written in service waits as the pending mode of both loops (R21). -/
theorem pendingMode_served {s : State} (h : LoopsServed s) (l : Fin 4) (m : LoopMode) :
    LoopsServed (writePairMode s l fun r => { r with pendingMode := pendingAfter r.mode m }) := by
  refine ⟨(OnlyIn.part_eq (writePairMode_onlyIn s l _) (by decide)).trans h.inService, fun c p hc => ?_,
    h.agree.writePairMode l fun k => ?_⟩
  · rw [OnlyIn.converter_eq (writePairMode_onlyIn s l _) (by decide)] at hc
    have := h.holders c p hc
    rw [loop_writePairMode]
    split <;> exact this
  · obtain ⟨hm, -, -, hi, hc, ht⟩ := h.agree k
    refine ⟨hm, by rw [hm], ?_, hi, hc, ht⟩
    by_cases e : m = (s.loop k).mode <;> simp [pendingAfter, e]

theorem LoopPairsOk.settingEntry {s : State} (h : LoopPairsOk s) (changed : Bool) (x : Subject) (w : Option (Fin 4))
    (n : SettingName) : LoopPairsOk (settingEntry s changed x w n) :=
  (settingEntry_aside (Aside.refl s) ..).loopPairsOk h

theorem doWriteSettingLoop_pairs {s : State} (h : LoopPairsOk s) (l : Nat) (i : LoopSetting) (st : Station) :
    (doWriteSettingLoop l i st s).Leaves LoopPairsOk := by
  refine onObject_leaves fun l => need_leaves fun _ => need_leaves fun _ => ?_
  have inUse := (((loopPairsOk_iff s).mp h).2.1 l).inUse
  cases i with
  | scanInterval v => exact doneApplied_leaves ((h.modLoop {} inUse rfl).settingEntry ..)
  | settlePeriod v => exact doneApplied_leaves ((h.modLoop {} inUse rfl).settingEntry ..)
  | mode m =>
    refine onValue_leaves fun m => need_leaves fun _ => ?_
    split
    next hs =>
      exact need_leaves fun _ => done_leaves
        ((pendingMode_served (h.served_of_inService (part_inService hs)) l m).ok.settingEntry ..)
    next hs =>
      exact done_leaves ((configureMode_pairs h (part_configuring (by simp [hs])) l m).settingEntry ..)

theorem doRestartLoop_pairs {s : State} (h : LoopPairsOk s) (l : Nat) (st : Station) :
    (doRestartLoop l st s).Leaves LoopPairsOk :=
  need_leaves fun hs => onObject_leaves fun l => need_leaves fun _ => need_leaves fun _ => need_leaves fun _ =>
    done_leaves (restartLoops_served (h.served_of_inService (part_inService hs)) l).ok

/-! ### The resets and the clock -/

theorem doStart_pairs {s : State} (h : LoopPairsOk s) (st : Station) : (doStart st s).Leaves LoopPairsOk := by
  refine need_leaves fun _ => need_leaves fun _ => ?_
  split
  · trivial
  · exact done_leaves (startPart_served h ..).ok

theorem doRestart_pairs {s : State} (h : LoopPairsOk s) (st : Station) : (doRestart st s).Leaves LoopPairsOk :=
  need_leaves fun _ => need_leaves fun _ => need_leaves fun _ => need_leaves fun _ =>
    done_leaves (startPart_served h ..).ok

theorem doEnterConfiguration_pairs {s : State} (h : LoopPairsOk s) (st : Station) :
    (doEnterConfiguration st s).Leaves LoopPairsOk :=
  need_leaves fun _ => need_leaves fun _ => need_leaves fun _ => done_leaves (configurePart_loopPairsOk h)

/-- The end of an event that resets the part. -/
theorem sendOff_aside (s : State) (ms : List ChannelMessage) :
    Aside s { startTransmitters (openPass s) with fieldOut := ms, stationOut := [] } :=
  .of_onlyIn (ps := [.engine, .ports, .fieldOut, .stationOut])
    (OnlyIn.trans (OnlyIn.trans (OnlyIn.mono (openPass_onlyIn s) (by decide))
      (OnlyIn.mono (startTransmitters_onlyIn _) (by decide))) (onlyIn_of fun p => by cases p <;> simp [Same]))
    (by decide)

theorem endStart_aside (s : State) : Aside s (endStart s) := sendOff_aside s _

theorem endReset_aside (b s : State) : Aside s (endReset b s) := sendOff_aside s _

theorem loopPairsOk_reset : LoopPairsOk State.reset := by
  have hl : ∀ l, State.reset.loop l = Loop.powerOn := fun l => Tbl.get_fill ..
  have hf : ∀ c, State.reset.converter c = .free := fun c => by cases c <;> rfl
  refine (loopPairsOk_iff _).mpr ⟨holdersOk_of_free hf, fun l => ?_, fun _ => ⟨hf, fun l => ?_⟩⟩
  · rw [hl, hl]
    exact .of_independent rfl rfl rfl rfl
  · rw [hl]
    exact ⟨rfl, rfl, rfl, rfl, rfl, rfl, rfl, rfl⟩

/-- A second that passes counts the timers of both loops of a pair alike (4.3). -/
theorem tick_pairs {s : State} (h : LoopPairsOk s) : LoopPairsOk (tick s) := by
  have hl : ∀ l, (tick s).loop l = (s.loop l).tick := fun l => Tbl.get_map ..
  have hcv : ∀ c, (tick s).converter c = s.converter c := fun c => by cases c <;> rfl
  obtain ⟨hh, ha, hc⟩ := (loopPairsOk_iff s).mp h
  refine (loopPairsOk_iff _).mpr ⟨fun c p hp => ?_, fun l => ?_, fun hp => ⟨fun c => ?_, fun l => ?_⟩⟩
  · rw [hcv] at hp
    rw [hl]
    exact hh c p hp
  · obtain ⟨hm, hq, hd, hi, hcom, ht⟩ := ha l
    rw [hl, hl]
    refine ⟨hm, hq, hd, hi, fun hmir => ?_, fun hmir hle => ?_⟩
    · have := hcom hmir
      simp only [Loop.common, Prod.mk.injEq] at this
      obtain ⟨h1, h2, h3, h4, h5, h6⟩ := this
      simp only [Loop.common, Loop.tick, h1, h2, h3, h4, h5, h6]
    · simp only [Loop.tick, ht hmir hle, countDown, Option.map_none]
  · rw [hcv]
    exact (hc hp).1 c
  · obtain ⟨h1, h2, h3, h4, h5, h6, h7, h8⟩ := (hc hp).2 l
    rw [hl]
    exact ⟨by rw [Loop.tick, h1]; rfl, h2, h3, h4, by simp [Loop.tick, h5, countDown], h6, h7, h8⟩

/-! ### Outcomes -/

theorem modPort_aside (s : State) (st : Station) (f : Port → Port) : Aside s (s.modPort st f) :=
  .of_onlyIn (modPort_onlyIn s st f) (by decide)

/-- The next state of an outcome, where it has one, holds its pairs in agreement. -/
def OutcomePairs (o : Host.Outcome State Fault Refusal) : Prop := ∀ t, o = .next t → LoopPairsOk t

theorem next_pairs {t : State} (h : LoopPairsOk t) : OutcomePairs (.next t) := fun _ e => by cases e; exact h

theorem LoopPairsOk.ended {t : State} (h : LoopPairsOk t) (b : State) : LoopPairsOk (endEvent b t) :=
  (endEvent_aside b t).loopPairsOk h

theorem applyVerdict_pairs {x : TakenRequest} (h : LoopPairsOk x.state) {v : Verdict} (hv : v.Leaves LoopPairsOk) :
    LoopPairsOk (applyVerdict x v) := by
  cases v with
  | refused code data => exact (modPort_aside ..).loopPairsOk h
  | taken t code data => exact (modPort_aside ..).loopPairsOk hv

theorem nextCommand_pairs {s : State} (h : LoopPairsOk s) {x : TakenRequest} (hx : nextCommand s = some x) :
    LoopPairsOk x.state := h.of_onlyIn (nextCommand_onlyIn hx) (by decide)

/-- A body that spells no row is refused (R169). -/
theorem judgeUnspelled_leaves {P : State → Prop} (s : State) (st : Station) (x : Spelled) :
    (judgeUnspelled s st x).Leaves P := by
  cases x with
  | unknown => trivial
  | badSwitch z => exact need_leaves fun _ => onObject_leaves fun z => need_leaves fun _ => need_leaves fun _ => trivial
  | badTable => exact need_leaves fun _ => need_leaves fun _ => trivial
  | row i => trivial

theorem endOfCommand_pairs {s : State} (h : LoopPairsOk s) {x : TakenRequest} (hx : nextCommand s = some x) {v : Verdict}
    (hv : v.Leaves LoopPairsOk) : OutcomePairs (.next (endEvent s (applyVerdict x v))) :=
  next_pairs ((applyVerdict_pairs (nextCommand_pairs h hx) hv).ended s)

theorem runCommand_pairs {s : State} (h : LoopPairsOk s) {c : Instr} {act : Station → State → Verdict}
    (k : ∀ st t, LoopPairsOk t → (act st t).Leaves LoopPairsOk) : OutcomePairs (runCommand c act s) := by
  simp only [runCommand]
  split
  next => exact next_pairs h
  next x hx =>
    split
    · split
      · exact endOfCommand_pairs h hx (k _ _ (nextCommand_pairs h hx))
      · exact next_pairs h
    all_goals exact endOfCommand_pairs h hx (judgeUnspelled_leaves ..)

/-- A command outside the Loop Scan Unit. -/
theorem runAside_pairs {s : State} (h : LoopPairsOk s) {c : Instr} {act : Station → State → Verdict}
    (k : ∀ st t, (act st t).Leaves (Aside t)) : OutcomePairs (runCommand c act s) :=
  runCommand_pairs h fun st t ht => (k st t).mono fun _ ha => ha.loopPairsOk ht

theorem runReset_pairs {s : State} (h : LoopPairsOk s) {c : Instr} {act : Station → State → Verdict}
    {close : State → State → State} (k : ∀ st t, LoopPairsOk t → (act st t).Leaves LoopPairsOk)
    (hc : ∀ b t, Aside t (close b t)) : OutcomePairs (runReset c act close s) := by
  simp only [runReset]
  split
  next => exact next_pairs h
  next x hx =>
    have hs := nextCommand_pairs h hx
    split
    · split
      · split
        next t code data ha =>
          have hv : (Verdict.taken t code data).Leaves LoopPairsOk := ha ▸ k x.port x.state hs
          exact next_pairs ((hc ..).loopPairsOk (applyVerdict_pairs hs hv))
        next => exact endOfCommand_pairs h hx trivial
      · exact next_pairs h
    all_goals exact endOfCommand_pairs h hx (judgeUnspelled_leaves ..)

theorem runQuery_pairs {s : State} (h : LoopPairsOk s) {c : Instr} {answer : State → Answer} :
    OutcomePairs (runQuery c answer s) := by
  simp only [runQuery]
  split
  next => exact next_pairs h
  next x hx =>
    have ends : ∀ r : Reply, OutcomePairs (.next (endEvent s (addReply x.state x.port r))) := fun r =>
      next_pairs (((modPort_aside ..).loopPairsOk (h.of_onlyIn (nextQuery_onlyIn hx) (by decide))).ended s)
    split
    · split
      · exact ends _
      · exact next_pairs h
    all_goals exact ends _

theorem occursWhen_pairs {s t : State} (h : LoopPairsOk s) {ok : Bool} (ht : ok = true → LoopPairsOk t) :
    OutcomePairs (occursWhen ok s t) := by
  cases ok
  · exact next_pairs h
  · exact next_pairs ((ht rfl).ended s)

/-- An event outside the Loop Scan Unit. -/
theorem occursAside_pairs {s t : State} (h : LoopPairsOk s) {ok : Bool} (ht : Aside s t) :
    OutcomePairs (occursWhen ok s t) := occursWhen_pairs h fun _ => ht.loopPairsOk h

/-! ### The ports -/

theorem execPowerOn_pairs (s : State) : OutcomePairs (execPowerOn s) := next_pairs (loopPairsOk_reset.congr rfl rfl rfl rfl)

theorem queueFrame_onlyIn (s : State) (st : Station) (f : Frame) : OnlyIn [.ports] s (queueFrame s st f) := by
  simp only [queueFrame]
  split
  · exact OnlyIn.refl _ s
  · split
    · split <;> exact modPort_onlyIn _ _ _
    · split
      · split <;> exact modPort_onlyIn _ _ _
      · exact modPort_onlyIn _ _ _

theorem queueFrame_aside (s : State) (st : Station) (f : Frame) : Aside s (queueFrame s st f) :=
  .of_onlyIn (queueFrame_onlyIn s st f) (by decide)

theorem takeFrame_aside (s : State) (st : Station) (f : Frame) : Aside s (takeFrame s st f) := by
  have up : Aside s (queueFrame (append (loadSilence s st) .linkUp (.station st) none .none) st f) :=
    ((modPort_aside ..).append ..).trans (queueFrame_aside ..)
  exact Aside.ite ((modPort_aside ..).trans (queueFrame_aside ..)) (Aside.ite up.round up)

theorem execFrameReceived_pairs {s : State} (h : LoopPairsOk s) (st : Station) (bytes : List Byte) :
    OutcomePairs (execFrameReceived st bytes s) := by
  refine next_pairs (LoopPairsOk.ended (Aside.loopPairsOk ?_ h) s)
  split
  · exact (modPort_aside ..).trans (takeFrame_aside ..)
  · exact modPort_aside ..

theorem execTransmissionEnd_pairs {s : State} (h : LoopPairsOk s) (st : Station) :
    OutcomePairs (execTransmissionEnd st s) := by
  have out : ∀ (t : State) (x : SentFrame), Aside t { t with stationOut := [(st, x)] } := fun t x => (.same (by rfl))
  have sent : ∀ (f : Port → Port) (x : SentFrame), OutcomePairs (sentOut s (s.modPort st f) st x) := fun f x =>
    next_pairs ((out _ x).loopPairsOk (((modPort_aside ..).loopPairsOk h).ended s))
  simp only [execTransmissionEnd]
  split
  · exact next_pairs h
  · split
    · exact sent _ _
    · exact next_pairs h
  · split
    · exact sent _ _
    · exact next_pairs h

theorem loseLink_aside (s : State) (st : Station) : Aside s (loseLink s st) := by
  have lost : Aside s (append (s.modPort st Port.lost) .linkLost (.station st) none .none) := (modPort_aside ..).append ..
  exact Aside.trans (Aside.ite (lost.trans (Aside.foldl (fun t w => enterEvacuate_aside t w .linkLoss) _ _)) lost)
    (loseDesks_aside ..)

theorem execLinkSilenceExpiry_pairs {s : State} (h : LoopPairsOk s) (st : Station) :
    OutcomePairs (execLinkSilenceExpiry st s) := by
  simp only [execLinkSilenceExpiry]
  split
  · exact next_pairs (((loseLink_aside ..).loopPairsOk h).ended s)
  · exact next_pairs h

/-! ### The loops -/

/-- An event of the loops occurs while a loop is not quiet, and so in service (R37). -/
theorem arbitrate_pairs {s : State} (h : LoopPairsOk s) {l : Fin 4} (hq : ¬ (s.loop l).quiet) : LoopPairsOk (arbitrate s) :=
  (h.served hq).arbitrate.ok

theorem execPollComplete_pairs {s : State} (h : LoopPairsOk s) (l : Fin 4) (r : Reading) :
    OutcomePairs (execPollComplete l r s) := by
  simp only [execPollComplete]
  split
  next sc hm hsc =>
    have hs := h.served (l := l) fun hq => by
      obtain ⟨-, -, hn, -⟩ := hq
      rw [hsc] at hn
      cases hn
    exact next_pairs (((offerAfterEvacuation_aside ..).loopPairsOk (completePoll_served hs hm sc r).ok).ended s)
  next => exact next_pairs h

theorem execMirroredPollComplete_pairs {s : State} (h : LoopPairsOk s) (p : Fin 2) (a b : Reading) :
    OutcomePairs (execMirroredPollComplete p a b s) := by
  simp only [execMirroredPollComplete]
  split
  next sc hm hsc =>
    have hs := h.served (l := lowerLoop p) fun hq => by
      obtain ⟨-, -, hn, -⟩ := hq
      rw [hsc] at hn
      cases hn
    exact next_pairs (((offerAfterEvacuation_aside ..).loopPairsOk (completeMirrored_served hs hm sc a b).ok).ended s)
  next => exact next_pairs h

/-- A loop that runs or restarts is not quiet. -/
theorem not_quiet_of_state {r : Loop} (h : r.state ≠ .off) : ¬ r.quiet := fun hq => h hq.1

/-! ### The other events of the part and the field -/

theorem execVerifyTimerExpiry_pairs {s : State} (h : LoopPairsOk s) (n : Fin 192) :
    OutcomePairs (execVerifyTimerExpiry n s) := by
  unfold execVerifyTimerExpiry
  cases hd : s.detector n with
  | none => exact next_pairs h
  | some d => exact occursAside_pairs h ((verifyExpires_aside hd).trans (offerAfterEvacuation_aside ..))

theorem execStageTimerExpiry_pairs {s : State} (h : LoopPairsOk s) (w : Fin 4) :
    OutcomePairs (execStageTimerExpiry w s) := by
  have entered : ∀ c, OutcomePairs (.next (endEvent s (offeringRound (enterEvacuate s w c)))) := fun c =>
    next_pairs (((enterEvacuate_aside ..).round.loopPairsOk h).ended s)
  simp only [execStageTimerExpiry]
  split
  · exact entered _
  · exact entered _
  all_goals exact next_pairs h

theorem spread_aside (s : State) (w : Fin 4) : Aside s (spread s w) :=
  Aside.trans (.same (by rfl)) (Aside.foldl (fun t v => enterEvacuate_aside t v .spread) _ _)

theorem execContactInput_pairs {s : State} (h : LoopPairsOk s) (n : Fin 48) (r : Contact) :
    OutcomePairs (execContactInput n r s) :=
  occursAside_pairs h (Aside.ite (contactChange_aside ..) (Aside.trans (.same (by rfl)) (restDoor_aside ..)))

theorem heldExpires_aside (s : State) (n : Fin 48) : Aside s (heldExpires s n) :=
  Aside.ite (modDoor_appendDoor_aside ..) (.same (by rfl))

theorem pressPoint_aside (s : State) (c : Fin 64) : Aside s (pressPoint s c) := by
  simp only [pressPoint]
  split
  · exact (fireCall_aside ..).trans (offerAfterEvacuation_aside ..)
  · exact pressAgain_aside ..
  · exact raiseCall_aside ..
  · exact raiseCall_aside ..

theorem restorePoint_aside (s : State) (c : Fin 64) : Aside s (restorePoint s c) := by
  simp only [restorePoint]
  split
  · exact append_aside ..
  · exact Aside.refl s

theorem execCallPointInput_pairs {s : State} (h : LoopPairsOk s) (c : Fin 64) (x : PointInput) :
    OutcomePairs (execCallPointInput c x s) := by
  refine occursAside_pairs h (Aside.ite ?_ (.same (by rfl)))
  cases x with
  | pressed => exact Aside.trans (.same (by rfl)) (pressPoint_aside ..)
  | restored => exact Aside.trans (.same (by rfl)) (restorePoint_aside ..)

theorem execOfferTimerExpiry_pairs {s : State} (h : LoopPairsOk s) (c : Fin 64) :
    OutcomePairs (execOfferTimerExpiry c s) := by
  unfold execOfferTimerExpiry
  cases s.call c with
  | none => exact next_pairs h
  | some x =>
    dsimp only
    split
    · exact next_pairs (((lapseOffer_aside ..).loopPairsOk h).ended s)
    all_goals exact next_pairs h

theorem execSelectionPassEnd_pairs {s : State} (h : LoopPairsOk s) : OutcomePairs (execSelectionPassEnd s) := by
  simp only [execSelectionPassEnd]
  split
  · exact next_pairs (((passEnd_aside ..).loopPairsOk h).ended s)
  all_goals exact next_pairs h

theorem lineChanges_aside (s : State) (n : Fin 276) (b : Bool) : Aside s (lineChanges s n b) := by
  have handed : ∀ t, Aside t (handLineFault t n b) := fun t => by
    simp only [handLineFault]
    split
    · exact Aside.ite (Aside.ite (lineFaultChange_aside ..) (restDoor_aside ..)) (Aside.refl t)
    · exact Aside.refl t
  exact (Aside.trans (.same (by rfl)) (Aside.ite (append_aside ..) (Aside.refl _))).trans (handed _)

/-! ### Every step -/

theorem exec_pairs {s : State} (h : LoopPairsOk s) (i : Instr) : OutcomePairs (exec i s) := by
  cases i with
  | powerOn => exact execPowerOn_pairs s
  | frameReceived st bytes => exact execFrameReceived_pairs h st bytes
  | transmissionEnd st => exact execTransmissionEnd_pairs h st
  | linkSilenceExpiry st => exact execLinkSilenceExpiry_pairs h st
  | acknowledgeWing w => exact runAside_pairs h (doAcknowledgeWing_aside w)
  | evacuateWing w => exact runAside_pairs h (doEvacuateWing_aside w)
  | silenceWing w r => exact runAside_pairs h (doSilenceWing_aside w r)
  | resetZone z r => exact runAside_pairs h (doResetZone_aside z r)
  | resetWing w r => exact runAside_pairs h (doResetWing_aside w r)
  | manualAlarmZone z => exact runAside_pairs h (doManualAlarmZone_aside z)
  | markExitBlocked e => exact runAside_pairs h (doMarkExitBlocked_aside e)
  | markExitOpen e => exact runAside_pairs h (doMarkExitOpen_aside e)
  | disableDetector n => exact runAside_pairs h (doDisableDetector_aside n)
  | enableDetector n => exact runAside_pairs h (doEnableDetector_aside n)
  | restartLoop l => exact runCommand_pairs h fun st _ ht => doRestartLoop_pairs ht l st
  | start => exact runReset_pairs h (fun st _ ht => doStart_pairs ht st) fun _ => endStart_aside
  | restart => exact runReset_pairs h (fun st _ ht => doRestart_pairs ht st) fun _ => endStart_aside
  | enterConfiguration =>
    exact runReset_pairs h (fun st _ ht => doEnterConfiguration_pairs ht st) endReset_aside
  | setWingMode w m => exact runAside_pairs h (doSetWingMode_aside w m)
  | armZone z => exact runAside_pairs h (doArmZone_aside z)
  | disarmZone z => exact runAside_pairs h (doDisarmZone_aside z)
  | clearBreach z r => exact runAside_pairs h (doClearBreach_aside z r)
  | passDoor n => exact runAside_pairs h (doPassDoor_aside n)
  | lockdownWing w => exact runAside_pairs h (doLockdownWing_aside w)
  | endLockdown w => exact runAside_pairs h (doEndLockdown_aside w)
  | reportPatrol z => exact runAside_pairs h (doReportPatrol_aside z)
  | testZoneOn z => exact runAside_pairs h (doTestZoneOn_aside z)
  | testZoneOff z => exact runAside_pairs h (doTestZoneOff_aside z)
  | holdChannels a n => exact runAside_pairs h fun st t => onRange_maintain_aside t st a n ..
  | freeChannels a n => exact runAside_pairs h fun st t => onRange_maintain_aside t st a n ..
  | releaseDrive a n => exact runAside_pairs h fun st t => onRange_maintain_aside t st a n ..
  | restoreDrive a n => exact runAside_pairs h fun st t => onRange_maintain_aside t st a n ..
  | acceptCall c k => exact runAside_pairs h (doAcceptCall_aside c k)
  | clearCall c => exact runAside_pairs h (doClearCall_aside c)
  | setDeskCapacity k v => exact runAside_pairs h (doSetDeskCapacity_aside k v)
  | writeEntryZone z f => exact runAside_pairs h (doWriteEntryZone_aside z f)
  | writeEntryWing w f => exact runAside_pairs h (doWriteEntryWing_aside w f)
  | writeEntryClass c f => exact runAside_pairs h (doWriteEntryClass_aside c f)
  | writeEntryDetector n f => exact runCommand_pairs h fun st _ ht => doWriteEntryDetector_pairs ht n f st
  | writeEntryLoop l u m => exact runCommand_pairs h fun st _ ht => doWriteEntryLoop_pairs ht l u m st
  | writeEntryScanList l k f => exact runAside_pairs h (doWriteEntryScanList_aside l k f)
  | writeEntryDoor n f => exact runAside_pairs h (doWriteEntryDoor_aside n f)
  | writeEntryCallPoint c f => exact runAside_pairs h (doWriteEntryCallPoint_aside c f)
  | writeEntryDesk k f => exact runAside_pairs h (doWriteEntryDesk_aside k f)
  | writeEntryExit e f => exact runAside_pairs h (doWriteEntryExit_aside e f)
  | writeEntryDescriptor i f => exact runAside_pairs h (doWriteEntryDescriptor_aside i f)
  | writeEntryRouteList z rs => exact runAside_pairs h (doWriteEntryRouteList_aside z rs)
  | writeEntrySign g z => exact runAside_pairs h (doWriteEntrySign_aside g z)
  | writeEntryChannel n p => exact runAside_pairs h (doWriteEntryChannel_aside n p)
  | writeSettingZoneWing i => exact runAside_pairs h (doWriteSettingZoneWing_aside i)
  | writeSettingLoop l i => exact runCommand_pairs h fun st _ ht => doWriteSettingLoop_pairs ht l i st
  | writeSettingDoor n i => exact runAside_pairs h (doWriteSettingDoor_aside n i)
  | writeSettingDeskList c ks => exact runAside_pairs h (doWriteSettingDeskList_aside c ks)
  | writeSettingTOffer k v => exact runAside_pairs h (doWriteSettingTOffer_aside k v)
  | writeSettingRouting g x b => exact runAside_pairs h (doWriteSettingRouting_aside g x b)
  | writeSettingAuthority x w c b => exact runAside_pairs h (doWriteSettingAuthority_aside x w c b)
  | status => exact runQuery_pairs h
  | readZone z => exact runQuery_pairs h
  | readWing w => exact runQuery_pairs h
  | readDetector n => exact runQuery_pairs h
  | readLoop l => exact runQuery_pairs h
  | readDoor n => exact runQuery_pairs h
  | readCallQueue => exact runQuery_pairs h
  | readCallPoint c => exact runQuery_pairs h
  | readRoute z => exact runQuery_pairs h
  | readExit e => exact runQuery_pairs h
  | readChannel n => exact runQuery_pairs h
  | readLog a n => exact runQuery_pairs h
  | intervalTimerExpiry l =>
    refine occursWhen_pairs h fun hok => arbitrate_pairs h (l := l) (not_quiet_of_state fun e => ?_)
    simp [e, LoopState.scans] at hok
  | pollComplete l r => exact execPollComplete_pairs h l r
  | mirroredPollComplete p a b => exact execMirroredPollComplete_pairs h p a b
  | powerOffExpiry l =>
    refine occursWhen_pairs h fun hok => (powerUp_served (h.served (l := l) (not_quiet_of_state fun e => ?_)) l).ok
    simp [e] at hok
  | settleExpiry l =>
    refine occursWhen_pairs h fun hok => arbitrate_pairs h (l := l) (not_quiet_of_state fun e => ?_)
    simp [e] at hok
  | verifyTimerExpiry n => exact execVerifyTimerExpiry_pairs h n
  | testTimerExpiry z => exact occursAside_pairs h (endTest_aside .timeout s z)
  | stageTimerExpiry w => exact execStageTimerExpiry_pairs h w
  | spreadTimerExpiry w => exact occursAside_pairs h ((spread_aside s w).trans (offerAfterEvacuation_aside ..))
  | presenceInput z => exact occursAside_pairs h (takeActivity_aside s z .presence)
  | vacancyTimerExpiry z => exact occursAside_pairs h (modZone_aside ..)
  | exitDelayExpiry z => exact occursAside_pairs h (setSecurity_append_aside ..)
  | contactInput n r => exact execContactInput_pairs h n r
  | heldTimerExpiry n => exact occursAside_pairs h (heldExpires_aside s n)
  | notClosedTimerExpiry n => exact occursAside_pairs h (modDoor_appendDoor_aside ..)
  | rexPress n => exact occursAside_pairs h (.same (by rfl))
  | rexGrantExpiry n => exact occursAside_pairs h (.same (by rfl))
  | passGrantExpiry n => exact occursAside_pairs h (.same (by rfl))
  | callPointInput c x => exact execCallPointInput_pairs h c x
  | offerTimerExpiry c => exact execOfferTimerExpiry_pairs h c
  | selectionPassEnd => exact execSelectionPassEnd_pairs h
  | channelLineReport n r => exact occursAside_pairs h (lineChanges_aside s n (saysFaulty r))

/-- Settles O14: every operation outside the Loop Scan Unit leaves the loops and the converters alone, and every one of its
own changes a mirrored pair's two records alike. -/
theorem loopPairsAgree : Obligations.LoopPairsAgree := fun s t hs h => by
  simp only [step] at h
  split at h
  next => cases h; exact tick_pairs hs
  next c rest _ => exact exec_pairs (s := { s with pending := rest }) (hs.congr rfl rfl rfl rfl) c t h

end Sys2Proof.Machine
end

section
/-! The waiting requests of detectors (O29), and what the taking of a command leaves the Loop Scan Unit to judge. -/

set_option autoImplicit false

namespace Sys2Proof.Machine

section
variable {s : State} {x : TakenRequest}

theorem taken_detector (h : nextCommand s = some x) (n : Fin 192) : x.state.detector n = s.detector n :=
  OnlyIn.detector_eq (nextCommand_onlyIn h) (by decide) n

theorem taken_loop (h : nextCommand s = some x) (l : Fin 4) : x.state.loop l = s.loop l :=
  OnlyIn.loop_eq (nextCommand_onlyIn h) (by decide) l

theorem taken_holdsService (h : nextCommand s = some x) (st : Station) (w : Fin 4) :
    holdsService x.state st w = holdsService s st w := by
  rw [holdsService, show x.state.authority = s.authority from nextCommand_onlyIn h .authority (by decide), holdsService]

end

theorem onDetector_val {s : State} {n : Fin 192} {d : Detector} (h : s.detector n = some d)
    (k : Fin 192 → Detector → Verdict) : onDetector s n.val k = k n d := by
  rw [onDetector, onObject_val, h]

/-- A station's word on a detector's request. -/
theorem mayServeDetector_eq {s : State} {x : TakenRequest} (h : nextCommand s = some x) (d : Detector) :
    mayServeDetector x.state x.port d = (decide (x.port = .fire) || holdsService s x.port (s.wingOf d.zone)) := by
  rw [mayServeDetector, holdsFire, taken_holdsService h, taken_wingOf h]

/-- A request that is taken waits in its detector's record (R35). -/
theorem completes_of_request {s : State} {x : TakenRequest} {i : Instr} {n : Fin 192} {d : Detector} {r : WaitingRequest}
    {act : Station → State → Verdict} (h : Ready i s x) (hx : exec i s = runCommand i act s)
    (ha : act x.port x.state = done (recordRequest x.state n d r)) :
    Completes i s x .done .none fun t =>
      t.detector n = some { d with waiting := some r } ∧ (∀ m, m ≠ n → t.detector m = s.detector m)
        ∧ OnlyIn ([Piece.detectors] ++ answering) s t := by
  have hu := putDetector_onlyIn x.state n (some { d with waiting := some r })
  refine (completes_of_entry h hx ha hu (by decide) (.of_onlyIn hu (by decide))).mono fun t ⟨ht, hst⟩ => ?_
  have detector_eq : ∀ m, t.detector m = if m = n then some { d with waiting := some r } else s.detector m := fun m => by
    rw [OnlyIn.detector_eq ht (by decide), recordRequest, State.detector_putDetector, taken_detector h.2.1]
  exact ⟨by rw [detector_eq, if_pos rfl], fun m hm => by rw [detector_eq, if_neg hm], hst⟩

/-- Settles O29: a request that its station may make is recorded, and one that it may not make is refused. -/
theorem detectorRequests : Obligations.DetectorRequests := by
  rintro s x n d i r hi h hs hd
  have hin := (taken_inService h.2.1).trans hs
  have hd' := (taken_detector h.2.1 n).trans hd
  have serves := mayServeDetector_eq h.2.1 d
  have judged : ∃ act, exec i s = runCommand i act s ∧
      act x.port x.state = need (mayServeDetector x.state x.port d) .notPermitted (done (recordRequest x.state n d r)) := by
    rcases hi with ⟨rfl, rfl⟩ | ⟨rfl, rfl⟩
    · exact ⟨_, rfl, by simp only [doDisableDetector, inServiceOnly, hin, need_true, onDetector_val hd']⟩
    · exact ⟨_, rfl, by simp only [doEnableDetector, inServiceOnly, hin, need_true, onDetector_val hd']⟩
  obtain ⟨act, hx, ha⟩ := judged
  refine ⟨fun hp => completes_of_request h hx ?_, fun hf hp => answersOnly_of_refused h hx ?_⟩
  · rw [ha, serves]
    rcases hp with hp | hp <;> simp [hp]
  · rw [ha, serves]
    simp [hf, hp]

end Sys2Proof.Machine
end

section
/-! SUPPORT. The completion of a command whose owner changes no line of a door's precedence, and the entry of a setting
that names a wing or none (R5, R21). -/

set_option autoImplicit false

namespace Sys2Proof.Machine

variable {i : Instr} {s u : State} {x : TakenRequest} {code : ReplyCode} {data : ReplyData}
  {act : Station → State → Verdict} {ps : List Piece}

/-! ### The completion -/

/-- The pieces that a command leaves to the end of its event, where it changes no line of a precedence. -/
def closingPieces : List Piece := [.executor, .engine, .channels]

/-- Where the owner of a command changes no line of a precedence and no channel, the reply finds the doors as they were. -/
theorem works_reply (h : nextCommand s = some x) (hw : Works ps x.state u) (hc : Piece.channels ∉ ps) (r : Reply) :
    InputsStand s (addReply u x.port r) ∧ (addReply u x.port r).channels = s.channels := by
  have hr := addReply_onlyIn u x.port r
  have hn := nextCommand_onlyIn h
  exact ⟨((SameInputs.of_onlyIn hn (by decide)).stand.trans hw.inputs).trans (SameInputs.of_onlyIn hr (by decide)).stand,
    ((hn .channels (by decide)).trans (hw.within.1 .channels hc)).trans (hr .channels (by decide))⟩

/-- A command whose owner changes no line of a precedence completes with what its owner leaves, but for the engine, the
ports and the outputs. -/
theorem completes_of_worksPass (h : Ready i s x) (hx : exec i s = runCommand i act s)
    (ha : act x.port x.state = .taken u code data) (hw : Works ps x.state u)
    (hps : ∀ p ∈ [Piece.executor, .channels], p ∉ ps) :
    Completes i s x code data fun t => OnlyIn ([.engine] ++ outward) u t ∧ OnlyIn (ps ++ [.engine] ++ answering) s t
      ∧ ∀ v, (t.wing v).stage = (s.wing v).stage := by
  refine (completes_of_taken h hx ha hw.within.2 (hw.within.1 .executor (hps _ (by decide)))).mono fun t ht => ?_
  subst ht
  generalize replyTo x.request code data = r
  obtain ⟨hs, hc⟩ := works_reply h.2.1 hw (hps _ (by decide)) r
  have ended := endEvent_onlyIn_of_inputsStand hs hc
  have hut : OnlyIn ([.engine] ++ outward) u (endEvent s (addReply u x.port r)) :=
    OnlyIn.trans (OnlyIn.mono (addReply_onlyIn u x.port r) (by decide)) ended
  exact ⟨hut, event_onlyIn h.2.1 hw.within.1 hut, fun v => by rw [OnlyIn.wing_eq ended (by decide), hs.stage_eq]⟩

/-- The end of an event that changes no line of a precedence, no channel and starts no pass. -/
theorem endEvent_outward {b : State} (hs : InputsStand b s) (hc : s.channels = b.channels) (he : s.engine ≠ .opening) :
    OnlyIn outward s (endEvent b s) := fun p hp => by
  by_cases e : p = .engine
  · subst e
    exact endEvent_onlyIn_of_ne he _ (by decide)
  · exact endEvent_onlyIn_of_inputsStand hs hc p (by simp [e, hp])

/-- A command whose owner besides starts no pass leaves the engine alone. -/
theorem completes_of_works (h : Ready i s x) (hx : exec i s = runCommand i act s)
    (ha : act x.port x.state = .taken u code data) (hw : Works ps x.state u) (hps : ∀ p ∈ closingPieces, p ∉ ps) :
    Completes i s x code data fun t => OnlyIn outward u t ∧ OnlyIn (ps ++ answering) s t := by
  obtain ⟨ho, hq⟩ := hw.within
  refine (completes_of_taken h hx ha hq (ho .executor (hps _ (by decide)))).mono fun t ht => ?_
  subst ht
  generalize replyTo x.request code data = r
  have hr := addReply_onlyIn u x.port r
  have he : (addReply u x.port r).engine ≠ .opening := by
    rw [hr .engine (by decide), ho .engine (hps _ (by decide)), nextCommand_onlyIn h.2.1 .engine (by decide)]
    exact h.1
  obtain ⟨hs, hc⟩ := works_reply h.2.1 hw (hps _ (by decide)) r
  have ended : OnlyIn outward (addReply u x.port r) (endEvent s (addReply u x.port r)) := endEvent_outward hs hc he
  have hut : OnlyIn outward u (endEvent s (addReply u x.port r)) := OnlyIn.trans (OnlyIn.mono hr (by decide)) ended
  exact ⟨hut, by simpa using event_onlyIn (qs := []) h.2.1 ho hut⟩

/-! ### The entry of a setting -/

/-- The pieces that an entry reaches: the log, the ports' notices, and the revision of the wing it names (R13). -/
def entryward : Option (Fin 4) → List Piece
  | some _ => logward
  | none => [.log, .ports]

theorem mem_logward_of_entryward {w : Option (Fin 4)} {p : Piece} (h : p ∈ entryward w) : p ∈ logward := by
  cases w with
  | some w => exact h
  | none => exact (by decide : ∀ p ∈ [Piece.log, .ports], p ∈ logward) p h

theorem append_onlyIn_entryward (s : State) (k : EntryKind) (x : Subject) (w : Option (Fin 4)) (d : Detail) :
    OnlyIn (entryward w) s (append s k x w d) := by
  cases w with
  | some w => exact append_onlyIn s k x (some w) d
  | none =>
    refine onlyIn_of fun p => ?_
    cases p <;> simp [entryward, Same, append, sendNotices, recordEntry, stampWing, wrapSequence] <;> split <;> simp

theorem settingEntry_works (s : State) (changed : Bool) (subject : Subject) (wing : Option (Fin 4)) (name : SettingName) :
    Works (entryward wing) s (settingEntry s changed subject wing name) := by
  refine ⟨⟨?_, (settingEntry_within ..).2⟩, (settingEntry_sameInputs ..).stand, ?_⟩
  · cases changed with
    | false => exact OnlyIn.refl _ s
    | true => exact append_onlyIn_entryward _ _ _ _ _
  · cases changed with
    | false => exact LogGrows.refl s
    | true => exact append_logGrows ..

/-- The write of a setting that no precedence reads, with its entry where the value changes (R5). -/
theorem completes_of_settingWorks {changed : Bool} {subject : Subject} {wing : Option (Fin 4)} {name : SettingName}
    (h : Ready i s x) (hx : exec i s = runCommand i act s)
    (ha : act x.port x.state = .taken (settingEntry u changed subject wing name) code data)
    (hw : Works ps x.state u) (hps : ∀ p ∈ [.log, .seconds] ++ closingPieces, p ∉ ps) :
    Completes i s x code data fun t =>
      OnlyIn (entryward wing ++ outward) u t
        ∧ Logged s t
          (if changed then [{ kind := .settingChanged, subject := subject, wing := wing, detail := .setting name }] else [])
        ∧ OnlyIn (ps ++ entryward wing ++ answering) s t := by
  have he := settingEntry_works u changed subject wing name
  refine (completes_of_works h hx ha ((hw.mono (by simp_all)).trans (he.mono (qs := ps ++ entryward wing) (by simp_all)))
    fun p hp hm => ?_).mono fun t ⟨ht, hst⟩ => ⟨?_, ?_, hst⟩
  · rcases List.mem_append.mp hm with hm | hm
    · exact hps p (List.mem_append_right _ hp) hm
    · exact absurd (mem_logward_of_entryward hm) ((by decide : ∀ p ∈ closingPieces, p ∉ logward) p hp)
  · exact OnlyIn.trans (OnlyIn.mono he.within.1 (by simp_all)) (OnlyIn.mono ht (by simp_all))
  · have hlog := hw.within.1 .log (hps _ (by decide))
    have hl := (logged_nil hlog.1 hlog.2).trans (settingEntry_logged u changed subject wing name)
      (hw.within.1 .seconds (hps _ (by decide)))
    exact (taken_logged h.2.1 hl).keep (ht .log (by decide))

end Sys2Proof.Machine
end

section
/-! The settings of loops, doors, desks and desk lists (O47). -/

set_option autoImplicit false

namespace Sys2Proof.Machine

variable {i : Instr} {s u : State} {x : TakenRequest} {code : ReplyCode} {data : ReplyData}
  {act : Station → State → Verdict}

/-! ### Objects and authority (R6) -/

/-- In service a setting wants an object that stands, in CONFIGURING any object in range. -/
theorem settingStands_pass {stands : Bool} (h : nextCommand s = some x) (hp : s.inService = true → stands = true)
    (k : Verdict) : need (!x.state.inService || stands) .badObject k = k := by
  rw [taken_inService h]
  cases hs : s.inService <;> simp_all

/-- In service a setting wants an object that stands and its authority, in CONFIGURING the fire or the services station. -/
theorem setting_pass {stands ok : Bool} (h : nextCommand s = some x)
    (hp : if s.inService then stands = true ∧ ok = true else x.port ≠ .guard) (k : Verdict) :
    need (!x.state.inService || stands) .badObject (underSetting x.state x.port ok k) = k := by
  rw [settingStands_pass h (by split at hp <;> simp_all), underSetting_pass]
  rw [taken_inService h]
  split at hp <;> simp_all

theorem setting_refuse {stands ok : Bool} (h : nextCommand s = some x)
    (hp : if s.inService then stands = true ∧ ok = false else x.port = .guard) (k : Verdict) :
    need (!x.state.inService || stands) .badObject (underSetting x.state x.port ok k) = .refused .notPermitted .none := by
  rw [settingStands_pass h (by split at hp <;> simp_all), underSetting_refuse]
  rw [taken_inService h]
  split at hp <;> simp_all

theorem setting_badObject {n size : Nat} {stands : Fin size → Bool} (h : nextCommand s = some x)
    (hno : namesNone n fun k : Fin size => s.inService = false ∨ stands k = true) (k : Fin size → Verdict) :
    onObject n size (fun a => need (!x.state.inService || stands a) .badObject (k a)) = .refused .badObject .none := by
  simp only [onObject, taken_inService h]
  split
  next hn =>
    have ha := hno ⟨n, hn⟩ rfl
    simp_all
  next => rfl

/-! ### Loops (R19, R21) -/

theorem taken_servesLoop (h : nextCommand s = some x) (st : Station) (l : Fin 4) :
    servesLoop x.state st l = servesLoop s st l := by
  obtain ⟨rest, -, hx⟩ := nextCommand_spec h
  rw [hx]
  rfl

/-- The upper loop of a pair holds no address before its first END where its first slot is an END. -/
theorem upperListHolds_eq (s : State) (l : Fin 4) :
    upperListHolds s l = decide (s.slot (upperLoop (pairOf l)) 0 ≠ .endMark) := by
  unfold upperListHolds
  cases s.slot (upperLoop (pairOf l)) 0 <;> simp

/-- The mode of a loop in service: it waits as the pending mode of its pair (R21). -/
theorem writeLoopMode_pending {l : Fin 4} {m : LoopMode} (hs : s.inService = true)
    (hm : m = .mirrored → l.val < 2 ∧ ((s.loop l).mode = .mirrored ∨ s.slot (upperLoop (pairOf l)) 0 = .endMark)) :
    writeLoopMode s l m = done (loopSettingEntry (writePairMode s l fun r => { r with pendingMode := pendingAfter r.mode m })
      (!decide ((s.loop l).pendingMode = pendingAfter (s.loop l).mode m)) l .loopMode) := by
  have hb : (decide (m = .independent) || decide (l.val < 2)) = true := by cases m <;> simp_all
  have hu : (!(decide (m = .mirrored) && decide ((s.loop l).mode = .independent) && upperListHolds s l)) = true := by
    rw [upperListHolds_eq]
    cases m with
    | independent => rfl
    | mirrored => rcases (hm rfl).2 with e | e <;> simp [e]
  rw [writeLoopMode, hb, need_true, if_pos hs, hu, need_true, ← decide_not]

/-- The mode of a loop in CONFIGURING is written at once (R19). -/
theorem writeLoopMode_configuring {l : Fin 4} {m : LoopMode} (hs : s.inService = false) (hm : m = .mirrored → l.val < 2) :
    writeLoopMode s l m
      = done (loopSettingEntry (configureMode s l m) (!decide ((s.loop l).mode = m)) l .loopMode) := by
  have hb : (decide (m = .independent) || decide (l.val < 2)) = true := by cases m <;> simp_all
  rw [writeLoopMode, hb, need_true, if_neg (by simp [hs]), ← decide_not]

theorem writeLoopMode_badValue {l : Fin 4} (hl : 2 ≤ l.val) : writeLoopMode s l .mirrored = .refused .badValue .none := by
  rw [writeLoopMode, decide_eq_false (Nat.not_lt.mpr hl)]
  rfl

/-- MIRRORED is refused while the upper loop's own list holds an address (R21). -/
theorem writeLoopMode_inUse {l : Fin 4} (hs : s.inService = true) (hl : l.val < 2) (hm : (s.loop l).mode = .independent)
    (hslot : s.slot (upperLoop (pairOf l)) 0 ≠ .endMark) : writeLoopMode s l .mirrored = .refused .inUse .none := by
  rw [writeLoopMode, decide_eq_true hl, Bool.or_true, need_true, if_pos hs, upperListHolds_eq, decide_eq_true hm,
    decide_eq_true hslot]
  rfl

/-- A write of loop records with the entry of it: the entry names the loop and no wing. -/
theorem completes_of_loopWrite {l : Fin 4} {name : SettingName} {same : Prop} [Decidable same] (h : Ready i s x)
    (hx : exec i s = runCommand i act s)
    (ha : act x.port x.state = .taken (loopSettingEntry u (!decide same) l name) code data)
    (hu : OnlyIn [.loops] x.state u) :
    Completes i s x code data fun t =>
      t.loops = u.loops
        ∧ Logged s t (if same then [] else
          [{ kind := .settingChanged, subject := .loop l, wing := none, detail := .setting name }])
        ∧ OnlyIn ([Piece.loops, .log] ++ answering) s t := by
  refine (completes_of_settingWorks h hx ha (.of_onlyIn hu (by decide)) (by decide)).mono fun t ⟨ht, hl, ho⟩ =>
    ⟨ht .loops (by decide), by simpa using hl, OnlyIn.mono ho (by decide)⟩

/-- A numeric setting of a loop (R21). -/
theorem completes_of_loopSetting {l : Fin 4} {name : SettingName} {f : Loop → Loop} {same : Prop} [Decidable same]
    (h : Ready i s x) (hx : exec i s = runCommand i act s)
    (ha : act x.port x.state = .taken (loopSettingEntry (x.state.modLoop l f) (!decide same) l name) code data) :
    Completes i s x code data fun t =>
      t.loop l = f (s.loop l) ∧ (∀ y, y ≠ l → t.loop y = s.loop y)
        ∧ Logged s t (if same then [] else
          [{ kind := .settingChanged, subject := .loop l, wing := none, detail := .setting name }])
        ∧ OnlyIn ([Piece.loops, .log] ++ answering) s t := by
  refine (completes_of_loopWrite h hx ha (modLoop_onlyIn _ l f)).mono fun t ⟨ht, hl, ho⟩ => ?_
  have loop_eq : ∀ y, t.loop y = if y = l then f (s.loop y) else s.loop y := fun y => by
    rw [State.loop, ht, ← State.loop, State.loop_modLoop, taken_loop h.2.1]
  exact ⟨by rw [loop_eq, if_pos rfl], fun y hy => by rw [loop_eq, if_neg hy], hl, ho⟩

/-- The loops after both loops of a pair are written. -/
theorem loops_of_writePairMode {t : State} {l : Fin 4} {f : Loop → Loop} (h : nextCommand s = some x)
    (ht : t.loops = (writePairMode x.state l f).loops) :
    (∀ y ∈ [l, partnerOf l], t.loop y = f (s.loop y)) ∧ ∀ y, y ≠ l → y ≠ partnerOf l → t.loop y = s.loop y := by
  have loop_eq : ∀ y, t.loop y = if pairOf y = pairOf l then f (s.loop y) else s.loop y := fun y => by
    rw [State.loop, ht, ← State.loop, loop_writePairMode, taken_loop h]
  refine ⟨fun y hy => ?_, fun y hl hp => ?_⟩
  · rw [loop_eq, if_pos ((pairOf_eq_iff y l).mpr (by simpa using hy))]
  · rw [loop_eq, if_neg fun e => ((pairOf_eq_iff y l).mp e).elim hl hp]

theorem configureMode_onlyIn (s : State) (l : Fin 4) (m : LoopMode) : OnlyIn [.loops] s (configureMode s l m) := by
  simp only [configureMode]
  split
  · exact writePairMode_onlyIn _ _ _
  · exact writePairMode_onlyIn _ _ _
  · exact OnlyIn.refl _ s

/-- A mode written in CONFIGURING, record by record (R19). -/
theorem loops_of_configureMode {t : State} {l : Fin 4} {m : LoopMode} (h : nextCommand s = some x)
    (ht : t.loops = (configureMode x.state l m).loops) :
    (t.loop l).mode = m ∧ (t.loop l).pendingMode = (s.loop l).pendingMode
      ∧ (m = .mirrored → ∀ y ∈ [l, partnerOf l], t.loop y = { s.loop y with mode := .mirrored, inUse := true })
      ∧ (m = .independent → (s.loop l).mode = .mirrored →
        ∀ y ∈ [l, partnerOf l], t.loop y = { s.loop y with mode := .independent })
      ∧ (m = .independent → (s.loop l).mode = .independent → t.loops = s.loops)
      ∧ ∀ y, y ≠ l → y ≠ partnerOf l → t.loop y = s.loop y := by
  have hl : l ∈ [l, partnerOf l] := List.mem_cons_self
  cases m with
  | mirrored =>
    obtain ⟨hw, hr⟩ := loops_of_writePairMode h ht
    exact ⟨by rw [hw l hl], by rw [hw l hl], fun _ => hw, nofun, nofun, hr⟩
  | independent =>
    cases hm : (s.loop l).mode with
    | mirrored =>
      simp only [configureMode, taken_loop h, hm] at ht
      obtain ⟨hw, hr⟩ := loops_of_writePairMode h ht
      exact ⟨by rw [hw l hl], by rw [hw l hl], nofun, fun _ _ => hw, nofun, hr⟩
    | independent =>
      simp only [configureMode, taken_loop h, hm] at ht
      have ht' : t.loops = s.loops := ht.trans (nextCommand_onlyIn h .loops (by decide))
      have loop_eq : ∀ y, t.loop y = s.loop y := fun y => by rw [State.loop, ht', ← State.loop]
      exact ⟨by rw [loop_eq, hm], by rw [loop_eq], nofun, nofun, fun _ _ => ht', fun y _ _ => loop_eq y⟩

/-! ### Doors (R96) -/

theorem modDoor_works {n : Fin 48} {f : Door → Door} (h : (f (s.door n)).lineReads = (s.door n).lineReads) :
    Works [.doors] s (s.modDoor n f) := by
  have ho := modDoor_onlyIn s n f
  refine ⟨.of_onlyIn ho (by decide), ⟨fun m => ?_, fun _ => rfl, fun _ => rfl⟩, .of_onlyIn ho (by decide)⟩
  rw [State.door_modDoor]
  split
  next e => rw [e, h]
  next => rfl

theorem taken_door (h : nextCommand s = some x) (n : Fin 48) : x.state.door n = s.door n := by
  rw [State.door, State.door, show x.state.doors = s.doors from nextCommand_onlyIn h .doors (by decide)]

theorem taken_doorWing (h : nextCommand s = some x) (n : Fin 48) : x.state.doorWing n = s.doorWing n := by
  rw [State.doorWing, taken_door h, taken_wingOf h, State.doorWing]

/-- A setting of a door (R96). -/
theorem completes_of_doorSetting {n : Fin 48} {name : SettingName} {f : Door → Door} {same : Prop} [Decidable same]
    (h : Ready i s x) (hx : exec i s = runCommand i act s)
    (ha : act x.port x.state = .taken
      (settingEntry (x.state.modDoor n f) (!decide same) (.door n) (some (x.state.doorWing n)) name) code data)
    (hf : (f (x.state.door n)).lineReads = (x.state.door n).lineReads) :
    Completes i s x code data fun t =>
      t.door n = f (s.door n) ∧ (∀ y, y ≠ n → t.door y = s.door y)
        ∧ Logged s t (if same then [] else
          [{ kind := .settingChanged, subject := .door n, wing := some (s.doorWing n), detail := .setting name }])
        ∧ OnlyIn ([Piece.doors, .wings, .log] ++ answering) s t := by
  refine (completes_of_settingWorks h hx ha (modDoor_works hf) (by decide)).mono fun t ⟨ht, hl, ho⟩ => ?_
  have door_eq : ∀ y, t.door y = if y = n then f (s.door y) else s.door y := fun y => by
    rw [State.door, ht .doors (by decide : Piece.doors ∉ logward ++ outward), ← State.door, State.door_modDoor,
      taken_door h.2.1]
  rw [taken_doorWing h.2.1] at hl
  exact ⟨by rw [door_eq, if_pos rfl], fun y hy => by rw [door_eq, if_neg hy], by simpa using hl, OnlyIn.mono ho
    (by decide : ∀ p ∈ [Piece.doors] ++ logward ++ answering, p ∈ [Piece.doors, .wings, .log] ++ answering)⟩

/-! ### Desks and desk lists (R115) -/

theorem taken_desk (h : nextCommand s = some x) (k : Fin 8) : x.state.desk k = s.desk k := by
  rw [State.desk, State.desk, show x.state.desks = s.desks from nextCommand_onlyIn h .desks (by decide)]

theorem taken_point (h : nextCommand s = some x) (c : Fin 64) : x.state.point c = s.point c := by
  rw [State.point, State.point, show x.state.points = s.points from nextCommand_onlyIn h .points (by decide)]

/-- A setting of a desk: its entry has no subject. -/
theorem completes_of_deskSetting {k : Fin 8} {name : SettingName} {f : Desk → Desk} {same : Prop} [Decidable same]
    (h : Ready i s x) (hx : exec i s = runCommand i act s)
    (ha : act x.port x.state = .taken (settingEntry (x.state.modDesk k f) (!decide same) .none none name) code data) :
    Completes i s x code data fun t =>
      t.desk k = f (s.desk k) ∧ (∀ y, y ≠ k → t.desk y = s.desk y)
        ∧ Logged s t (if same then [] else
          [{ kind := .settingChanged, subject := .none, wing := none, detail := .setting name }])
        ∧ OnlyIn ([Piece.desks, .log] ++ answering) s t := by
  refine (completes_of_settingWorks h hx ha (.of_onlyIn (modDesk_onlyIn _ k f) (by decide)) (by decide)).mono
    fun t ⟨ht, hl, ho⟩ => ?_
  have desk_eq : ∀ y, t.desk y = if y = k then f (s.desk y) else s.desk y := fun y => by
    rw [State.desk, ht .desks (by decide), ← State.desk, State.desk_modDesk, taken_desk h.2.1]
  exact ⟨by rw [desk_eq, if_pos rfl], fun y hy => by rw [desk_eq, if_neg hy], by simpa using hl,
    OnlyIn.mono ho (by decide)⟩

/-- Every point keeps its desk list. -/
def DeskListsKept (s t : State) : Prop := ∀ c, (t.point c).deskList = (s.point c).deskList

theorem setCall_deskListsKept (s : State) (c : Fin 64) (h : HelpCall) : DeskListsKept s (setCall s c h) := fun d => by
  rw [setCall, State.point_modPoint]
  split
  next e => rw [e]
  next => rfl

/-- An offering round works on calls alone: it changes no line of a precedence, and no desk list (R122). -/
theorem offerOne_works (s : State) (c : Fin 64) : Works callward s (offerOne s c) ∧ DeskListsKept s (offerOne s c) := by
  have same : Works callward s s ∧ DeskListsKept s s := ⟨Works.refl _ s, fun _ => rfl⟩
  simp only [offerOne]
  split
  · split
    · split
      · refine ⟨((Works.of_onlyIn (modPoint_onlyIn s c _) (by decide)).mono (by decide)).trans
          (((Works.of_onlyIn (modDesk_onlyIn _ _ _) (by decide)).mono (by decide)).trans ((append_works ..).mono (by decide))),
          fun d => ?_⟩
        rw [offerCall, State.point, appendPoint, append_onlyIn _ _ _ _ _ .points (by decide)]
        exact setCall_deskListsKept ..
      · exact same
    all_goals exact same
  · exact same

theorem offeringRound_works (s : State) : Works callward s (offeringRound s) :=
  Works.foldl (fun t c => (offerOne_works t c).1) _ s

theorem offeringRound_deskListsKept (s : State) : DeskListsKept s (offeringRound s) := by
  have fold : ∀ (cs : List (Fin 64)) (t : State), DeskListsKept t (cs.foldl offerOne t) := fun cs => by
    induction cs with
    | nil => exact fun t _ => rfl
    | cons c cs ih => exact fun t d => (ih _ d).trans ((offerOne_works t c).2 d)
  exact fold _ s

/-- The record with a new desk list, and the entry of it. -/
def relistPoint (s : State) (c : Fin 64) (ks : List (Fin 8)) : State :=
  append (s.modPoint c fun p => { p with deskList := ks, state := p.state.relisted ks.length }) .settingChanged (.point c)
    (some (s.wingOf (s.point c).zone)) (.setting .deskList)

theorem writeDeskList_eq (s : State) (c : Fin 64) (ks : List (Fin 8)) :
    writeDeskList s c ks = if (s.point c).deskList = ks then s
      else if s.inService then offeringRound (relistPoint s c ks) else relistPoint s c ks := rfl

theorem relistPoint_works (s : State) (c : Fin 64) (ks : List (Fin 8)) : Works callward s (relistPoint s c ks) :=
  ((Works.of_onlyIn (modPoint_onlyIn s c _) (by decide)).mono (by decide)).trans ((append_works ..).mono (by decide))

theorem writeDeskList_works (s : State) (c : Fin 64) (ks : List (Fin 8)) : Works callward s (writeDeskList s c ks) := by
  rw [writeDeskList_eq]
  exact Works.ite (Works.refl _ s) (Works.ite ((relistPoint_works ..).trans (offeringRound_works _)) (relistPoint_works ..))

theorem writeDeskList_deskList (s : State) (c : Fin 64) (ks : List (Fin 8)) (y : Fin 64) :
    ((writeDeskList s c ks).point y).deskList = if y = c then ks else (s.point y).deskList := by
  have relisted : ((relistPoint s c ks).point y).deskList = if y = c then ks else (s.point y).deskList := by
    rw [relistPoint, State.point, append_onlyIn _ _ _ _ _ .points (by decide), ← State.point, State.point_modPoint]
    split <;> rfl
  rw [writeDeskList_eq]
  split
  next he =>
    split
    next hy => rw [hy, he]
    next => rfl
  next =>
    split
    · exact (offeringRound_deskListsKept _ y).trans relisted
    · exact relisted

/-- A new desk list has its entry; an offering round that follows it in service adds its own behind it. -/
theorem writeDeskList_logged {c : Fin 64} {ks : List (Fin 8)} (h : (s.point c).deskList ≠ ks) :
    LoggedFirst s (writeDeskList s c ks)
      [{ kind := .settingChanged, subject := .point c, wing := some (s.wingOf (s.point c).zone)
         detail := .setting .deskList }] := by
  have hl : Logged s (relistPoint s c ks)
      [{ kind := .settingChanged, subject := .point c, wing := some (s.wingOf (s.point c).zone)
         detail := .setting .deskList }] := (logged_nil rfl rfl).trans (append_logged ..) rfl
  rw [writeDeskList_eq, if_neg h]
  split
  · obtain ⟨-, more, hm⟩ := (offeringRound_works (relistPoint s c ks)).log
    exact ⟨more, hl.trans hm (relistPoint_works s c ks).log.1⟩
  · exact ⟨[], by simpa using hl⟩

theorem deskListFits_help (ks : List (Fin 8)) :
    deskListFits .help ks = decide (ks ≠ [] ∧ ks.length ≤ 3 ∧ ks.Nodup) := by
  rw [deskListFits, noneTwice_eq]
  cases ks <;> simp

/-! ### The obligation -/

/-- In service a loop's setting wants a loop in use and the authority over it (R21). -/
theorem loopSetting_pass {l : Fin 4} (h : nextCommand s = some x)
    (hp : if s.inService then (s.loop l).inUse = true ∧ servesLoop s x.port l = true else x.port ≠ .guard) (k : Verdict) :
    need (!x.state.inService || (x.state.loop l).inUse) .badObject
      (underSetting x.state x.port (servesLoop x.state x.port l) k) = k :=
  setting_pass h (by rwa [taken_loop h, taken_servesLoop h]) k

theorem doorSetting_pass {n : Fin 48} (h : nextCommand s = some x)
    (hp : if s.inService then (s.door n).configured = true ∧ holdsGuard s x.port (s.doorWing n) = true
      else x.port ≠ .guard) (k : Verdict) :
    need (!x.state.inService || (x.state.door n).configured) .badObject
      (underSetting x.state x.port (holdsGuard x.state x.port (x.state.doorWing n)) k) = k :=
  setting_pass h (by rwa [taken_door h, taken_holdsGuard h, taken_doorWing h]) k

/-- The verdict on a desk list, up to its authority. -/
theorem doWriteSettingDeskList_eq {c : Fin 64} {ks : List (Fin 8)} (h : nextCommand s = some x)
    (hc : s.inService = true → (s.point c).configured = true) :
    doWriteSettingDeskList c.val (ks.map Fin.val) x.port x.state
      = underSetting x.state x.port (holdsService s x.port (s.wingOf (s.point c).zone))
        (need (decide ((s.point c).kind = .help) && deskListFits .help ks) .badValue (done (writeDeskList x.state c ks))) := by
  rw [doWriteSettingDeskList, onObject_val, settingStands_pass h (by rwa [taken_point h]), onObjects_map, taken_point h,
    taken_holdsService h, taken_wingOf h]

theorem eq_map_val {size : Nat} {ns : List Nat} (h : ∀ n ∈ ns, n < size) : ∃ xs : List (Fin size), ns = xs.map Fin.val :=
  ⟨ns.pmap Fin.mk h, by rw [List.map_pmap, List.pmap_eq_map, List.map_id']⟩

/-- Settles O47: a setting in its range is written and logged where it changes, a loop's mode as the pending mode in service,
and the first check that fails refuses. -/
theorem loopDoorAndCallSettings : Obligations.LoopDoorAndCallSettings := by
  intro s x
  refine ⟨fun l v a i name old new hi hp h => ?_, fun l m hs hu hserve h => ?_, fun l m hs hp hm h => ?_,
    fun l i h => ⟨fun hno => ?_, fun k hk hp => ?_, fun k hk hp hi => ?_⟩, fun n v a i name old new hi hp h => ?_,
    fun n i h => ⟨fun hno => ?_, fun k hk hp => ?_⟩, fun k v hp h => ?_, fun k v h => ⟨fun hle => ?_, fun d hk hp => ?_⟩,
    fun c ks h => ⟨fun hno => ?_, fun k hk hks hp => ?_, fun k hk hks hkind hp => ?_⟩, fun c ks hkind hp h => ?_⟩
  · rcases hi with ⟨rfl, rfl, rfl, rfl, rfl⟩ | ⟨rfl, rfl, rfl, rfl, rfl⟩
    · refine completes_of_loopSetting (f := fun r => { r with scanInterval := clamp 1 10 v }) h rfl ?_
      rw [doWriteSettingLoop, onObject_val, loopSetting_pass h.2.1 hp]
      simp [doneApplied_eq, taken_loop h.2.1]
    · refine completes_of_loopSetting (f := fun r => { r with settlePeriod := clamp 5 60 v }) h rfl ?_
      rw [doWriteSettingLoop, onObject_val, loopSetting_pass h.2.1 hp]
      simp [doneApplied_eq, taken_loop h.2.1]
  · have pass := loopSetting_pass h.2.1 (l := l) (by rw [if_pos hs]; exact ⟨hu, hserve⟩)
    have hs' := (taken_inService h.2.1).trans hs
    have judged : doWriteSettingLoop l.val (.mode (some m)) x.port x.state = writeLoopMode x.state l m := by
      rw [doWriteSettingLoop, onObject_val, pass]
      rfl
    have slot_eq := OnlyIn.slot_eq (nextCommand_onlyIn h.2.1) (by decide) (upperLoop (pairOf l)) 0
    refine ⟨fun hm => ?_, fun hm hl => ?_, fun hm hl hmode hslot => ?_⟩
    · rw [← taken_loop h.2.1, ← slot_eq] at hm
      refine (completes_of_loopWrite h rfl (judged.trans (writeLoopMode_pending hs' hm)) (writePairMode_onlyIn _ _ _)).mono
        fun t ⟨ht, hl, ho⟩ => ?_
      obtain ⟨hw, hr⟩ := loops_of_writePairMode h.2.1 ht
      rw [taken_loop h.2.1] at hl
      exact ⟨hw, hr, hl, ho⟩
    · subst hm
      exact answersOnly_of_refused h rfl (judged.trans (writeLoopMode_badValue hl))
    · subst hm
      exact answersOnly_of_refused h rfl (judged.trans (writeLoopMode_inUse hs' hl (by rwa [taken_loop h.2.1])
        (by rwa [slot_eq])))
  · have judged : doWriteSettingLoop l.val (.mode (some m)) x.port x.state
        = done (loopSettingEntry (configureMode x.state l m) (!decide ((x.state.loop l).mode = m)) l .loopMode) := by
      rw [doWriteSettingLoop, onObject_val, loopSetting_pass h.2.1 (by rwa [if_neg (by simp [hs])])]
      exact writeLoopMode_configuring ((taken_inService h.2.1).trans hs) hm
    refine (completes_of_loopWrite h rfl judged (configureMode_onlyIn _ _ _)).mono fun t ⟨ht, hl, ho⟩ => ?_
    rw [taken_loop h.2.1] at hl
    obtain ⟨h1, h2, h3, h4, h5, h6⟩ := loops_of_configureMode h.2.1 ht
    exact ⟨h1, h2, h3, h4, h5, h6, hl, ho⟩
  · exact answersOnly_of_refused h rfl (setting_badObject h.2.1 (by simpa only [taken_loop h.2.1] using hno) _)
  · subst hk
    refine answersOnly_of_refused h rfl ?_
    rw [doWriteSettingLoop, onObject_val, setting_refuse h.2.1 (by rwa [taken_loop h.2.1, taken_servesLoop h.2.1])]
  · subst hk
    refine answersOnly_of_refused h rfl ?_
    rw [doWriteSettingLoop, onObject_val, loopSetting_pass h.2.1 hp]
    rcases hi with rfl | ⟨rfl, hl⟩
    · rfl
    · exact writeLoopMode_badValue hl
  · rcases hi with ⟨rfl, rfl, rfl, rfl, rfl⟩ | ⟨rfl, rfl, rfl, rfl, rfl⟩
    · refine completes_of_doorSetting (f := fun r => { r with tPass := clamp 3 30 v }) h rfl ?_ rfl
      rw [doWriteSettingDoor, onObject_val, doorSetting_pass h.2.1 hp]
      simp [doneApplied_eq, taken_door h.2.1]
    · refine completes_of_doorSetting (f := fun r => { r with tHeld := clamp 10 600 v }) h rfl ?_ rfl
      rw [doWriteSettingDoor, onObject_val, doorSetting_pass h.2.1 hp]
      simp [doneApplied_eq, taken_door h.2.1]
  · exact answersOnly_of_refused h rfl (setting_badObject h.2.1 (by simpa only [taken_door h.2.1] using hno) _)
  · subst hk
    refine answersOnly_of_refused h rfl ?_
    rw [doWriteSettingDoor, onObject_val, setting_refuse h.2.1
      (by rwa [taken_door h.2.1, taken_holdsGuard h.2.1, taken_doorWing h.2.1])]
  · refine completes_of_deskSetting (f := fun r => { r with tOffer := clamp 10 120 v }) h rfl ?_
    rw [doWriteSettingTOffer, onObject_val, underSetting_pass
      (by simpa [taken_inService h.2.1, holdsFire, ownsDesk, taken_desk h.2.1] using hp)]
    simp [doneApplied_eq, taken_desk h.2.1]
  · exact answersOnly_of_refused h rfl (onObject_of_le hle _)
  · subst hk
    refine answersOnly_of_refused h rfl ?_
    rw [doWriteSettingTOffer, onObject_val, underSetting_refuse
      (by simpa [taken_inService h.2.1, holdsFire, ownsDesk, taken_desk h.2.1] using hp)]
  · refine answersOnly_of_refused h rfl ?_
    rcases hno with hno | hno
    · exact setting_badObject h.2.1 (by simpa only [taken_point h.2.1] using hno) _
    · refine onObject_eq (.inr rfl) fun a => ?_
      cases (!x.state.inService || (x.state.point a).configured) with
      | false => rfl
      | true => exact onObjects_of_le hno _
  · subst hk
    obtain ⟨ks, rfl⟩ := eq_map_val hks
    refine answersOnly_of_refused h rfl ?_
    rw [doWriteSettingDeskList_eq h.2.1 fun hs => (by simpa [hs] using hp : _ ∧ _).1, underSetting_refuse]
    rw [taken_inService h.2.1]
    split at hp <;> simp_all
  · subst hk
    obtain ⟨ks, rfl⟩ := eq_map_val hks
    refine answersOnly_of_refused h rfl ?_
    rw [doWriteSettingDeskList_eq h.2.1 fun hs => (by simpa [hs] using hp : _ ∧ _).1, underSetting_pass, hkind]
    · rfl
    · rw [taken_inService h.2.1]
      split at hp <;> simp_all
  · have hserve : if s.inService then holdsService s x.port (s.wingOf (s.point c).zone) = true else x.port ≠ .guard := by
      split at hp <;> simp_all
    have judged : doWriteSettingDeskList c.val (ks.map Fin.val) x.port x.state
        = need (deskListFits .help ks) .badValue (done (writeDeskList x.state c ks)) := by
      rw [doWriteSettingDeskList_eq h.2.1 fun hs => (by simpa [hs] using hp : _ ∧ _).1,
        underSetting_pass (by rwa [taken_inService h.2.1]), hkind]
      rfl
    rw [deskListFits_help] at judged
    refine ⟨fun h1 h2 h3 => ?_, fun hbad => answersOnly_of_refused h rfl ?_⟩
    · rw [decide_eq_true ⟨h1, h2, h3⟩, need_true] at judged
      rw [← taken_point h.2.1, ← taken_wingOf h.2.1]
      refine (completes_of_works h rfl judged (writeDeskList_works ..) (by decide)).mono fun t ⟨ht, ho⟩ => ?_
      have hd : ∀ y, (t.point y).deskList = if y = c then ks else (s.point y).deskList := fun y => by
        rw [State.point, ht .points (by decide), ← State.point, writeDeskList_deskList, taken_point h.2.1]
      refine ⟨by rw [hd, if_pos rfl], fun y hy => by rw [hd, if_neg hy], fun hne => ?_, OnlyIn.mono ho (by decide)⟩
      obtain ⟨more, hm⟩ := writeDeskList_logged hne
      exact ⟨more, (taken_logged h.2.1 hm).keep (ht .log (by decide))⟩
    · have unfit : ¬ (ks ≠ [] ∧ ks.length ≤ 3 ∧ ks.Nodup) := fun ⟨h1, h2, h3⟩ =>
        hbad.elim h1 fun e => e.elim (Nat.not_lt.mpr h2) fun e => e h3
      rw [judged, decide_eq_false unfit]
      rfl

end Sys2Proof.Machine
end

section
/-! SUPPORT. What the requests that wait on a loop (R36), and the restart of a detector (R33), leave of detectors and slots,
and the entries among those of an event. -/

set_option autoImplicit false

namespace Sys2Proof.Machine

/-! ### Entries among others -/

theorem Logged.among {s t : State} {x : LogItem} (h : Logged s t [x]) : LoggedAmong s t x := ⟨[], [], by simpa using h⟩

/-- An entry stays among those of an event that goes on. -/
theorem LoggedAmong.grow {s t u : State} {x : LogItem} (h : LoggedAmong s t x) (hs : t.seconds = s.seconds)
    (k : LogGrows t u) : LoggedAmong s u x := by
  obtain ⟨before, after, h⟩ := h
  obtain ⟨-, more, k⟩ := k
  exact ⟨before, after ++ more, by simpa using h.trans k hs⟩

/-- An entry of a later part of an event is one of the event. -/
theorem LoggedAmong.late {s t u : State} {x : LogItem} (h : LogGrows s t) (k : LoggedAmong t u x) :
    LoggedAmong s u x := by
  obtain ⟨hs, before, h⟩ := h
  obtain ⟨mid, after, k⟩ := k
  exact ⟨before ++ mid, after, by simpa using h.trans k hs⟩

/-- An entry that is appended in the course of an event. -/
theorem loggedAmong_append {s t u : State} {k : EntryKind} {x : Subject} {w : Option (Fin 4)} {d : Detail}
    (h : LogGrows s t) (g : LogGrows (append t k x w d) u) :
    LoggedAmong s u { kind := k, subject := x, wing := w, detail := d } :=
  LoggedAmong.late h ((append_logged t k x w d).among.grow (append_seconds ..) g)

/-! ### Writes of one detector -/

theorem deriveFire_onlyIn (s : State) (z : Fin 64) : OnlyIn [.zones, .exits, .engine] s (deriveFire s z) := by
  unfold deriveFire
  split
  · exact OnlyIn.refl _ s
  · exact (writeFire_within ..).1

theorem writeDetector_detector (s : State) (n : Fin 192) (old new : Detector) (m : Fin 192) :
    (writeDetector s n old new).detector m = if m = n then some new else s.detector m := by
  rw [writeDetector, OnlyIn.detector_eq (followImpaired_eq ..).2 (by decide), State.detector_putDetector]

/-- The pieces of a detector's own change: its list's slots are not among them. -/
theorem detectorward_slot {s t : State} (h : Works detectorward s t) (l : Fin 4) (k : Fin 48) : t.slot l k = s.slot l k :=
  OnlyIn.slot_eq h.within.1 (by decide) l k

/-- The record of a detector that is disabled (R56). -/
def Detector.disabledNow (d : Detector) : Detector :=
  { d with
    state := .disabled, level := none, riseRun := 0, missed := 0, validRun := 0, testArmed := none, waiting := none }

/-- The record of a detector that is enabled (R56). -/
def Detector.enabledNow (d : Detector) : Detector := { d with state := .unmonitored, waiting := none }

theorem disableDetectorNow_detector (s : State) (n : Fin 192) (d : Detector) (m : Fin 192) :
    (disableDetectorNow s n d).detector m = if m = n then some d.disabledNow else s.detector m := by
  rw [disableDetectorNow, OnlyIn.detector_eq (deriveFire_onlyIn _ _) (by decide), appendDetector, append_detector,
    writeDetector_detector, abortVerify_detector]
  rfl

theorem enableDetectorNow_detector (s : State) (n : Fin 192) (d : Detector) (m : Fin 192) :
    (enableDetectorNow s n d).detector m = if m = n then some d.enabledNow else s.detector m := by
  rw [enableDetectorNow, OnlyIn.detector_eq (deriveFire_onlyIn _ _) (by decide), appendDetector, append_detector,
    writeDetector_detector]
  rfl

theorem disableDetectorNow_logged (s : State) (n : Fin 192) (d : Detector) :
    LoggedAmong s (disableDetectorNow s n d)
      { kind := .detectorDisabled, subject := .detector n, wing := some (s.wingOf d.zone), detail := .none } := by
  have hw := (abortVerify_works s n d .disable).trans (writeDetector_works _ n d d.disabledNow)
  rw [← hw.inputs.wingOf_eq]
  exact loggedAmong_append hw.log (deriveFire_works ..).log

theorem enableDetectorNow_logged (s : State) (n : Fin 192) (d : Detector) :
    LoggedAmong s (enableDetectorNow s n d)
      { kind := .detectorEnabled, subject := .detector n, wing := some (s.wingOf d.zone), detail := .none } := by
  have hw := writeDetector_works s n d d.enabledNow
  rw [← hw.inputs.wingOf_eq]
  exact loggedAmong_append hw.log (deriveFire_works ..).log

/-! ### The restart of a detector (R33) -/

/-- The record of a detector on a loop that restarts. -/
def Detector.restarted (d : Detector) : Detector :=
  if d.state = .disabled then { d with mismatch := false }
  else
    { d with
      state := .unmonitored, level := none, riseRun := 0, missed := 0, validRun := 0, testArmed := none
      mismatch := false }

theorem restartDetector_detector (s : State) (n m : Fin 192) :
    (restartDetector s n).detector m = if m = n then (s.detector n).map Detector.restarted else s.detector m := by
  unfold restartDetector
  cases hd : s.detector n with
  | none =>
    by_cases hm : m = n
    · rw [hm, if_pos rfl]; exact hd
    · rw [if_neg hm]
  | some d =>
    dsimp only [Option.map_some, Detector.restarted]
    by_cases hs : d.state = .disabled
    · rw [if_pos hs, if_pos hs, State.detector_putDetector]
    · rw [if_neg hs, if_neg hs, OnlyIn.detector_eq (deriveFire_onlyIn _ _) (by decide), writeDetector_detector,
        abortVerify_detector]

/-- A change of one detector after the other changes those detectors alone. -/
theorem detector_foldl {g : State → Fin 192 → State} {f : Detector → Detector}
    (hg : ∀ t n m, (g t n).detector m = if m = n then (t.detector n).map f else t.detector m) {ns : List (Fin 192)}
    (hn : ns.Nodup) (s : State) (m : Fin 192) :
    (ns.foldl g s).detector m = if m ∈ ns then (s.detector m).map f else s.detector m := by
  induction ns generalizing s with
  | nil => rfl
  | cons n ns ih =>
    obtain ⟨hx, hn⟩ := List.nodup_cons.mp hn
    rw [List.foldl_cons, ih hn, hg]
    by_cases hm : m = n
    · subst hm; simp [hx]
    · simp [hm]

theorem indices_nodup {n : Nat} {α : Type} (t : Tbl n α) (p : Fin n → α → Bool) : (t.indices p).Nodup := by
  rw [Tbl.indices_eq_filter]
  exact (List.nodup_finRange n).filter _

/-- The detectors of the loops that restart are restarted, and no other. -/
theorem restartDetectors_detector (s : State) (ls : List (Fin 4)) {n : Fin 192} {d : Detector}
    (h : s.detector n = some d) :
    (restartDetectors s ls).detector n = some (if d.loop ∈ ls then d.restarted else d) := by
  rw [restartDetectors, detector_foldl restartDetector_detector (indices_nodup ..), h]
  simp only [Tbl.mem_indices]
  rw [← State.detector, h]
  by_cases hl : d.loop ∈ ls <;> simp [hl]

/-! ### Waiting requests (R36) -/

/-- A waiting request that asks for another mark than the detector's. -/
def effectiveRequest (s : State) (d : Detector) : Option WaitingRequest :=
  match d.waiting with
  | none => none
  | some .disable => if markedEnabled s d then some .disable else none
  | some .enable => if markedEnabled s d then none else some .enable

/-- The record of a detector whose request has been applied. -/
def Detector.answered (d : Detector) : Option WaitingRequest → Detector
  | none => { d with waiting := none }
  | some .disable => d.disabledNow
  | some .enable => d.enabledNow

def WaitingRequest.mark : WaitingRequest → Bool
  | .disable => false
  | .enable => true

def WaitingRequest.entry : WaitingRequest → EntryKind
  | .disable => .detectorDisabled
  | .enable => .detectorEnabled

theorem slot_writeMark (s : State) (d : Detector) (e : Bool) (l : Fin 4) (k : Fin 48) :
    (writeMark s d e).slot l k
      = if l = d.loop ∧ slotOf s d.loop d.address = some k then .address d.address e else s.slot l k := by
  unfold writeMark
  split
  next j hj =>
    rw [State.slot_putSlot]
    simp only [hj, Option.some.injEq, eq_comm]
  next hj => simp [hj]

theorem applyRequest_of_none {s : State} {n : Fin 192} (h : s.detector n = none) : applyRequest s n = s := by
  rw [applyRequest, h]

/-- What a request does: a detector without one stays, one whose mark stands already loses the request, and another is
disabled or enabled with its mark. -/
theorem applyRequest_eq {s : State} {n : Fin 192} {d : Detector} (h : s.detector n = some d) :
    applyRequest s n = match effectiveRequest s d with
      | some .disable => disableDetectorNow (writeMark s d false) n d
      | some .enable => enableDetectorNow (writeMark s d true) n d
      | none => if d.waiting = none then s else s.putDetector n (some (d.answered none)) := by
  rw [applyRequest, effectiveRequest, h]
  dsimp only
  cases d.waiting with
  | none => rfl
  | some r => cases r <;> cases markedEnabled s d <;> rfl

/-- A request that asks for the mark that stands, and no request, change the record alone. -/
theorem applyRequest_idle {s : State} {n : Fin 192} {d : Detector} (h : s.detector n = some d)
    (hr : effectiveRequest s d = none) :
    OnlyIn [.detectors] s (applyRequest s n)
      ∧ ∀ m, (applyRequest s n).detector m = if m = n then some (d.answered none) else s.detector m := by
  rw [applyRequest_eq h, hr]
  dsimp only
  split
  next hw =>
    refine ⟨OnlyIn.refl _ s, fun m => ?_⟩
    by_cases hm : m = n
    · rw [if_pos hm, hm, h, Detector.answered, ← hw]
    · rw [if_neg hm]
  next => exact ⟨putDetector_onlyIn _ _ _, fun m => State.detector_putDetector ..⟩

/-- A request that asks for another mark than the detector's. -/
theorem applyRequest_effective {s : State} {n : Fin 192} {d : Detector} {r : WaitingRequest}
    (h : s.detector n = some d) (hr : effectiveRequest s d = some r) :
    (∀ m, (applyRequest s n).detector m = if m = n then some (d.answered (some r)) else s.detector m)
      ∧ (∀ l k, (applyRequest s n).slot l k
        = if l = d.loop ∧ slotOf s d.loop d.address = some k then .address d.address r.mark else s.slot l k)
      ∧ LoggedAmong s (applyRequest s n)
        { kind := r.entry, subject := .detector n, wing := some (s.wingOf d.zone), detail := .none } := by
  have marked : ∀ e, (writeMark s d e).wingOf d.zone = s.wingOf d.zone := fun e =>
    (writeMark_works s d e).inputs.wingOf_eq _
  rw [applyRequest_eq h, hr]
  cases r with
  | disable =>
    refine ⟨fun m => ?_, fun l k => ?_, ?_⟩
    · rw [disableDetectorNow_detector, writeMark_detector]
      rfl
    · rw [detectorward_slot (disableDetectorNow_works ..), slot_writeMark]
      rfl
    · rw [← marked false]
      exact .late (writeMark_works ..).log (disableDetectorNow_logged ..)
  | enable =>
    refine ⟨fun m => ?_, fun l k => ?_, ?_⟩
    · rw [enableDetectorNow_detector, writeMark_detector]
      rfl
    · rw [detectorward_slot (enableDetectorNow_works ..), slot_writeMark]
      rfl
    · rw [← marked true]
      exact .late (writeMark_works ..).log (enableDetectorNow_logged ..)

/-- A request reaches its own detector's record alone. -/
theorem applyRequest_detector {s : State} {n : Fin 192} {d : Detector} (h : s.detector n = some d) (m : Fin 192) :
    (applyRequest s n).detector m = if m = n then some (d.answered (effectiveRequest s d)) else s.detector m := by
  cases hr : effectiveRequest s d with
  | none => exact (applyRequest_idle h hr).2 m
  | some r => exact (applyRequest_effective h hr).1 m

theorem applyRequest_detector_ne (s : State) {n m : Fin 192} (h : m ≠ n) : (applyRequest s n).detector m = s.detector m := by
  cases hd : s.detector n with
  | none => rw [applyRequest_of_none hd]
  | some d => rw [applyRequest_detector hd, if_neg h]

/-- A request reaches the slot of its own detector alone. -/
theorem applyRequest_slot {s : State} {n : Fin 192} {d : Detector} (h : s.detector n = some d) {l : Fin 4} {k : Fin 48}
    (hk : l = d.loop → slotOf s d.loop d.address ≠ some k) : (applyRequest s n).slot l k = s.slot l k := by
  cases hr : effectiveRequest s d with
  | none => exact OnlyIn.slot_eq (applyRequest_idle h hr).1 (by decide) l k
  | some r => rw [(applyRequest_effective h hr).2.1, if_neg fun e => hk e.1 e.2]

/-- The detectors that requests are applied of, and no other. -/
theorem applyRequests_detector_ne {s : State} {u : ScanUnit} {n : Fin 192} {d : Detector} (h : s.detector n = some d)
    (hl : d.loop ∉ u.loops) : (applyRequests s u).detector n = some d := by
  have hn : n ∉ detectorsOfUnit s u := by
    rw [detectorsOfUnit, Tbl.mem_indices, ← State.detector, h]
    simpa using hl
  have fold : ∀ (ns : List (Fin 192)) (t : State), n ∉ ns →
      (ns.foldl applyRequest t).detector n = t.detector n := fun ns => by
    induction ns with
    | nil => exact fun _ _ => rfl
    | cons m ns ih =>
      intro t hns
      rw [List.mem_cons, not_or] at hns
      rw [List.foldl_cons, ih _ hns.2, applyRequest_detector_ne t hns.1]
  rw [applyRequests, fold _ _ hn, h]

end Sys2Proof.Machine
end

section
/-! SUPPORT. A hand-out of a converter to a unit, and the loops that the arbiters' work leaves as they stood (R22, R23). -/

set_option autoImplicit false

namespace Sys2Proof.Machine

/-! ### The unit that a hand-out starts -/

/-- What a converter holds while a unit scans. -/
def ScanUnit.holder : ScanUnit → Holder
  | .loop l => .loop l
  | .pair p => .pair p

/-- A unit's scan starts in a hand-out: it wants a converter, or it keeps one already (R23), and the converters it takes
were free or its own. -/
structure Started (s : State) (u : ScanUnit) (t : State) : Prop where
  stands : u.stands s
  reason : (∃ c, Eligible s c u) ∨ ∃ c p, u = .pair p ∧ s.converter c = .kept p
  start : ∃ s1, OnlyIn [.converters] s s1 ∧ t = startScan s1 u
  given : ∀ c, t.converter c = s.converter c ∨ (s.converter c = .free ∨ (s.converter c).isFor u = true)
    ∧ (t.converter c = .free ∨ t.converter c = u.holder)
  unkept : ∀ c p, u = .pair p → t.converter c ≠ .kept p

theorem eq_other_of_ne {c d : Converter} (h : d ≠ c) : d = c.other := by cases c <;> cases d <;> simp_all [Converter.other]

theorem Give.shape {s t : State} (h : HoldersOk s) (g : Give s t) : (∃ u, Started s u t)
    ∨ ∃ c p, s.converter c = .free ∧ Eligible s c (.pair p) ∧ s.converter c.other ≠ .kept p
      ∧ t = s.putConverter c (.kept p) := by
  cases g with
  | loop c l hf he =>
    refine .inl ⟨.loop l, he.1, .inl ⟨c, he⟩, ⟨_, putConverter_onlyIn _ _ _, rfl⟩, fun d => ?_, nofun⟩
    rw [startScan_converter, converter_putConverter]
    by_cases hd : d = c
    · subst hd
      rw [if_pos rfl]
      refine .inr ⟨.inl hf, ?_⟩
      split
      · exact .inl rfl
      · exact .inr rfl
    · rw [if_neg hd]
      split
      next hx => exact .inr ⟨.inr hx.2, .inl rfl⟩
      next => exact .inl rfl
  | pair c p hf hk =>
    have hm := h c.other p (by rw [hk]; rfl)
    have held : ∀ d, ((s.putConverter c (.pair p)).putConverter c.other (.pair p)).converter d = .pair p := fun d => by
      rw [converter_putConverter, converter_putConverter]
      by_cases hd : d = c
      · rw [if_neg (by rw [hd]; exact (other_ne c).symm), if_pos hd]
      · rw [if_pos (eq_other_of_ne hd)]
    have ended : ∀ d, (startScan ((s.putConverter c (.pair p)).putConverter c.other (.pair p)) (.pair p)).converter d = .free
        ∨ (startScan ((s.putConverter c (.pair p)).putConverter c.other (.pair p)) (.pair p)).converter d = .pair p := fun d => by
      rw [startScan_converter, held]
      split
      · exact .inl rfl
      · exact .inr rfl
    refine .inl ⟨.pair p, hm, .inr ⟨c.other, p, rfl, hk⟩,
      ⟨_, OnlyIn.trans (putConverter_onlyIn _ _ _) (putConverter_onlyIn _ _ _), rfl⟩, fun d => .inr ⟨?_, ended d⟩, fun d q hq => ?_⟩
    · by_cases hd : d = c
      · exact .inl (hd ▸ hf)
      · rw [eq_other_of_ne hd, hk]
        exact .inr (by simp [Holder.isFor])
    · rcases ended d with e | e <;> rw [e] <;> simp
  | keep c p hf he hk => exact .inr ⟨c, p, hf, he, hk, rfl⟩

/-- A hand-out that starts a scan leaves the loops of other units, and the detectors on them. -/
theorem Started.loop {s t : State} {u : ScanUnit} (h : Started s u t) {k : Fin 4} (hk : k ∉ u.loops) :
    t.loop k = s.loop k := by
  obtain ⟨s1, ho, rfl⟩ := h.start
  rw [startScan_loop, if_neg hk, OnlyIn.loop_eq ho (by decide)]

theorem Started.detector {s t : State} {u : ScanUnit} (h : Started s u t) {n : Fin 192} {d : Detector}
    (hn : s.detector n = some d) (hd : d.loop ∉ u.loops) : t.detector n = some d := by
  obtain ⟨s1, ho, rfl⟩ := h.start
  rw [OnlyIn.detector_eq (startScan_begun s1 u) (by decide)]
  refine applyRequests_detector_ne ?_ hd
  rw [OnlyIn.detector_eq (markStart_onlyIn s1 u) (by decide), OnlyIn.detector_eq ho (by decide), hn]

/-! ### Loops at rest -/

/-- A loop in phase POWER_OFF of a restart, with no converter held by its pair or kept for it. -/
structure Resting (s : State) (l : Fin 4) : Prop where
  state : ∃ n, (s.loop l).state = .restarting .powerOff n
  unheld : ∀ c p, (s.converter c).pairOf = some p → p ≠ pairOf l

/-- A loop, and the detectors on it, are as they were. -/
structure Untouched (l : Fin 4) (s t : State) : Prop where
  loop : t.loop l = s.loop l
  detector : ∀ n d, s.detector n = some d → d.loop = l → t.detector n = some d

theorem Untouched.refl (l : Fin 4) (s : State) : Untouched l s s := ⟨rfl, fun _ _ h _ => h⟩

theorem Untouched.trans {l : Fin 4} {s t u : State} (h : Untouched l s t) (k : Untouched l t u) : Untouched l s u :=
  ⟨k.loop.trans h.loop, fun n d hd hl => k.detector n d (h.detector n d hd hl) hl⟩

theorem Untouched.of_onlyIn {ps : List Piece} {s t : State} (h : OnlyIn ps s t)
    (hp : ∀ p ∈ [Piece.loops, .detectors], p ∉ ps) (l : Fin 4) : Untouched l s t :=
  ⟨OnlyIn.loop_eq h (hp _ (by decide)) l, fun n d hd _ => by rw [OnlyIn.detector_eq h (hp _ (by decide)), hd]⟩

/-- The loops of a standing unit have their common fields alike. -/
theorem PairsAgree.common_of_mem {s : State} (h : PairsAgree s) {l k : Fin 4} (hk : k ∈ (unitOf s l).loops) :
    (s.loop k).common = (s.loop l).common := by
  unfold unitOf at hk
  cases hm : (s.loop l).mode with
  | independent =>
    simp only [hm, mem_loops_loop] at hk
    rw [hk]
  | mirrored =>
    simp only [hm, mem_loops_pair, pairOf_eq_iff] at hk
    rcases hk with rfl | rfl
    · rfl
    · exact (h l).common hm

theorem PairsAgree.state_of_mem {s : State} (h : PairsAgree s) {l k : Fin 4} (hk : k ∈ (unitOf s l).loops) :
    (s.loop k).state = (s.loop l).state := congrArg Prod.fst (h.common_of_mem hk)

theorem wants_scans {r : Loop} (h : r.wants = true) : r.state.scans = true := by
  simp only [Loop.wants, Bool.and_eq_true] at h
  exact h.2

/-- A unit that wants a converter has loops that scan. -/
theorem PairsAgree.scans_of_eligible {s : State} (h : PairsAgree s) {c : Converter} {u : ScanUnit} (he : Eligible s c u)
    {l : Fin 4} (hl : l ∈ u.loops) : (s.loop l).state.scans = true := by
  cases u with
  | loop k =>
    obtain ⟨-, hw, -⟩ := he
    rw [mem_loops_loop] at hl
    exact hl ▸ wants_scans hw
  | pair p =>
    obtain ⟨hm, hw⟩ := he
    have hu : unitOf s (lowerLoop p) = .pair p := by simp [unitOf, hm]
    rw [h.state_of_mem (hu ▸ hl)]
    exact wants_scans hw

theorem Resting.not_eligible {s : State} {l : Fin 4} (hr : Resting s l) (h : PairsAgree s) {c : Converter} {u : ScanUnit}
    (he : Eligible s c u) : l ∉ u.loops := fun hl => by
  obtain ⟨n, hs⟩ := hr.state
  have := h.scans_of_eligible he hl
  rw [hs] at this
  cases this

/-- A unit whose scan starts is not that of a loop at rest. -/
theorem Resting.not_started {s t : State} {l : Fin 4} (hr : Resting s l) (h : PairsAgree s) {u : ScanUnit}
    (hu : Started s u t) : l ∉ u.loops := by
  rcases hu.reason with ⟨c, he⟩ | ⟨c, p, rfl, hk⟩
  · exact hr.not_eligible h he
  · rw [mem_loops_pair]
    exact fun e => hr.unheld c p (by rw [hk]; rfl) e.symm

/-- A hand-out leaves a loop at rest. -/
theorem Give.resting {s t : State} {l : Fin 4} (h : LoopsServed s) (hr : Resting s l) (g : Give s t) :
    Resting t l ∧ Untouched l s t := by
  rcases g.shape h.holders with ⟨u, hu⟩ | ⟨c, p, -, he, -, rfl⟩
  · have hl := hr.not_started h.agree hu
    refine ⟨⟨by rw [hu.loop hl]; exact hr.state, fun c p hp => ?_⟩, hu.loop hl, fun n d hn hd =>
      hu.detector hn (hd ▸ hl)⟩
    rcases hu.given c with e | ⟨-, e | e⟩
    · exact hr.unheld c p (e ▸ hp)
    · rw [e] at hp
      cases hp
    · rw [e] at hp
      cases u with
      | loop k => cases hp
      | pair q =>
        cases hp
        rw [mem_loops_pair] at hl
        exact fun e => hl e.symm
  · have hl := hr.not_eligible h.agree he
    refine ⟨⟨by rw [loop_putConverter]; exact hr.state, fun d q hq => ?_⟩,
      .of_onlyIn (putConverter_onlyIn _ _ _) (by decide) l⟩
    rw [converter_putConverter] at hq
    split at hq
    · cases hq
      rw [mem_loops_pair] at hl
      exact fun e => hl e.symm
    · exact hr.unheld d q hq

theorem Gives.resting {s t : State} {l : Fin 4} (h : LoopsServed s) (hr : Resting s l) (g : Gives s t) :
    Resting t l ∧ Untouched l s t := by
  induction g with
  | refl => exact ⟨hr, .refl l s⟩
  | tail g k ih =>
    obtain ⟨hr, hu⟩ := ih
    obtain ⟨hr', hu'⟩ := k.resting (h.gives g) hr
    exact ⟨hr', hu.trans hu'⟩

/-- A change of the records of other units leaves a loop at rest. -/
theorem Resting.modUnit {s : State} {l : Fin 4} (hr : Resting s l) {u : ScanUnit} (hl : l ∉ u.loops) (f : Loop → Loop) :
    Resting (modUnit s u f) l ∧ Untouched l s (modUnit s u f) := by
  have hloop : (Machine.modUnit s u f).loop l = s.loop l := by rw [loop_modUnit, if_neg hl]
  refine ⟨⟨by rw [hloop]; exact hr.state, fun c p hp => hr.unheld c p (by simpa using hp)⟩, hloop, fun n d hd _ => ?_⟩
  rw [OnlyIn.detector_eq (modUnit_onlyIn s u f) (by decide), hd]

theorem Resting.of_onlyIn {ps : List Piece} {s t : State} {l : Fin 4} (hr : Resting s l) (h : OnlyIn ps s t)
    (hp : ∀ p ∈ [Piece.loops, .converters], p ∉ ps) : Resting t l :=
  ⟨by rw [OnlyIn.loop_eq h (hp _ (by decide))]; exact hr.state, fun c p hc =>
    hr.unheld c p (by rwa [OnlyIn.converter_eq h (hp _ (by decide))] at hc)⟩

theorem Resting.settleDue {s : State} {l : Fin 4} (h : LoopsServed s) (hr : Resting s l) (k : Fin 4) :
    Resting (settleDue s k) l ∧ Untouched l s (settleDue s k) := by
  unfold Machine.settleDue
  split
  next hs =>
    have hl : l ∉ (unitOf s k).loops := fun hl => by
      obtain ⟨n, e⟩ := hr.state
      rw [h.agree.state_of_mem hl, hs] at e
      cases e
    obtain ⟨hm, hu⟩ := hr.modUnit hl fun r => { r with state := .running, due := true }
    have ho := append_onlyIn (Machine.modUnit s (unitOf s k) fun r => { r with state := .running, due := true }) .loopRunning
      (.loop (unitOf s k).head) none .none
    exact ⟨hm.of_onlyIn ho (by decide), hu.trans (.of_onlyIn ho (by decide) l)⟩
  next => exact ⟨hr, .refl l s⟩

theorem Resting.intervalDue {s : State} {l : Fin 4} (h : LoopsServed s) (hr : Resting s l) (k : Fin 4) :
    Resting (intervalDue s k) l ∧ Untouched l s (intervalDue s k) := by
  unfold Machine.intervalDue
  split
  next hs =>
    simp only [Bool.and_eq_true, decide_eq_true_eq] at hs
    have hl : l ∉ (unitOf s k).loops := fun hl => by
      obtain ⟨n, e⟩ := hr.state
      rw [h.agree.state_of_mem hl] at e
      rw [e] at hs
      cases hs.2
    have hne : l ≠ k := fun e => hl (e ▸ mem_unitOf s k)
    have hloop : (s.modLoop k fun r => { r with intervalTimer := none }).loop l = s.loop l := by
      rw [State.loop_modLoop, if_neg hne]
    have ho := modLoop_onlyIn s k fun r => { r with intervalTimer := none }
    have hm : Resting (s.modLoop k fun r => { r with intervalTimer := none }) l :=
      ⟨by rw [hloop]; exact hr.state, fun c p hc => hr.unheld c p (by simpa using hc)⟩
    obtain ⟨hm', hu⟩ := hm.modUnit hl fun r => { r with due := true }
    exact ⟨hm', .trans ⟨hloop, fun n d hd _ => by rw [OnlyIn.detector_eq ho (by decide), hd]⟩ hu⟩
  next => exact ⟨hr, .refl l s⟩

/-- The arbiters' work leaves a loop at rest, with the detectors on it (R23, R32). -/
theorem Resting.arbitrate {s : State} {l : Fin 4} (h : LoopsServed s) (hr : Resting s l) : Untouched l s (arbitrate s) := by
  have fold : ∀ (f : State → Fin 4 → State), (∀ t k, LoopsServed t → LoopsServed (f t k)) →
      (∀ t k, LoopsServed t → Resting t l → Resting (f t k) l ∧ Untouched l t (f t k)) →
      ∀ (ks : List (Fin 4)) (t : State), LoopsServed t → Resting t l →
        LoopsServed (ks.foldl f t) ∧ Resting (ks.foldl f t) l ∧ Untouched l t (ks.foldl f t) := fun f hs hf ks => by
    induction ks with
    | nil => exact fun t ht hr => ⟨ht, hr, .refl l t⟩
    | cons k ks ih =>
      intro t ht hr
      obtain ⟨hr', hu⟩ := hf t k ht hr
      obtain ⟨h1, h2, h3⟩ := ih _ (hs t k ht) hr'
      exact ⟨h1, h2, hu.trans h3⟩
  obtain ⟨h1, hr1, hu1⟩ := fold Machine.settleDue (fun _ k ht => ht.settleDue k) (fun _ k ht hr => hr.settleDue ht k)
    (List.finRange 4) s h hr
  obtain ⟨h2, hr2, hu2⟩ := fold Machine.intervalDue (fun _ k ht => ht.intervalDue k)
    (fun _ k ht hr => hr.intervalDue ht k) (List.finRange 4) _ h1 hr1
  exact (hu1.trans hu2).trans ((arbitrate_gives s).resting h2 hr2).2

end Sys2Proof.Machine
end

section
/-! The restart of loops on a command (O30). -/

set_option autoImplicit false

namespace Sys2Proof.Machine

/-! ### The records of a restart (R32) -/

/-- What a restart gives the loops it reaches, before an upper loop takes its pair's common fields (R32, R21). -/
theorem restarted_record (r : Loop) :
    r.restarted.state = .restarting .powerOff 1 ∧ r.restarted.power = false ∧ r.restarted.scan = none
      ∧ r.restarted.due = false ∧ r.restarted.intervalTimer = none ∧ r.restarted.pendingMode = none
      ∧ r.restarted.mode = r.pendingMode.getD r.mode ∧ r.restarted.lastStart = r.lastStart
      ∧ (r.pendingMode = some .mirrored → r.restarted.inUse = true)
      ∧ (r.mode = .mirrored → r.pendingMode = some .independent → r.restarted.breakPosition = none) := by
  unfold Loop.restarted Loop.takePending Loop.abandoned
  cases hp : r.pendingMode with
  | none => simp [Loop.powerDown, Config.powerOffSeconds]
  | some m =>
    cases m with
    | independent =>
      refine ⟨rfl, rfl, rfl, rfl, rfl, rfl, rfl, rfl, nofun, fun hm _ => ?_⟩
      simp only [hm, Loop.powerDown]
    | mirrored => exact ⟨rfl, rfl, rfl, rfl, rfl, rfl, rfl, rfl, fun _ => rfl, nofun⟩

/-- The record of a loop that a restart reaches (R32, R28). -/
theorem paired_restarted_record (k : Fin 4) (r q : Loop) :
    (Loop.paired k r.restarted q.restarted).state = .restarting .powerOff 1
      ∧ (Loop.paired k r.restarted q.restarted).power = false ∧ (Loop.paired k r.restarted q.restarted).scan = none
      ∧ (Loop.paired k r.restarted q.restarted).due = false
      ∧ (Loop.paired k r.restarted q.restarted).lastStart
        = (if 2 ≤ k.val ∧ r.restarted.mode = .mirrored then q else r).lastStart
      ∧ (r.restarted.mode = .independent →
        (Loop.paired k r.restarted q.restarted).breakPosition = r.restarted.breakPosition) := by
  obtain ⟨h1, h2, h3, h4, -, -, -, h8, -⟩ := restarted_record r
  obtain ⟨g1, g2, g3, g4, -, -, -, g8, -⟩ := restarted_record q
  unfold Loop.paired
  split
  next h => exact ⟨g1, g2, g3, g4, g8, fun e => absurd (e.symm.trans h.2) nofun⟩
  next h => exact ⟨h1, h2, h3, h4, h8, fun _ => rfl⟩

/-- The loops that a restart reaches are at rest after it. -/
theorem restartRecords_resting {s : State} (h : LoopsServed s) (l : Fin 4) {k : Fin 4} (hk : k ∈ restartReach s l) :
    Resting (restartRecords s (restartReach s l)) k := by
  have hl := loop_restartRecords_of_agree h.agree l
  have ht := restartRecords_served h l
  refine ⟨⟨1, by rw [hl, if_pos hk]; exact (paired_restarted_record k _ _).1⟩, fun c p hc e => ?_⟩
  have hm := ht.holders c p hc
  have hin : lowerLoop p ∈ restartReach s l := by
    subst e
    rcases eq_lower_or_partner k with e | e <;> rw [e]
    · exact hk
    · by_contra hp
      obtain ⟨hmk, hpk⟩ := independent_of_alone h.agree hk hp
      rw [hl, e, if_neg hp, (h.agree k).mode, hmk] at hm
      cases hm
  rw [converter_restartRecords] at hc
  have hs : (s.converter c).pairOf = some p := by
    rcases converter_abandonScans (restartReach s l) s c with e | e
    · rw [e] at hc; cases hc
    · rwa [e] at hc
  have hu : unitOf s (lowerLoop p) = .pair p := by simp [unitOf, h.holders c p hs]
  rw [abandonScans_free hin s c (by rw [hu]; exact isFor_pair hs)] at hc
  cases hc

/-! ### The entries and the frame -/

/-- Each loop of a restart has its entry, with the mode it restarts in. -/
theorem logRestarts_among {s : State} {ls : List (Fin 4)} {k : Fin 4} (hk : k ∈ ls) : LoggedAmong s (logRestarts s ls)
    { kind := .loopRestart, subject := .loop k, wing := none, detail := .loopMode (s.loop k).mode } := by
  induction ls generalizing s with
  | nil => cases hk
  | cons l ls ih =>
    have ha := appendLoop_aside s .loopRestart l (.loopMode (s.loop l).mode)
    rcases List.mem_cons.mp hk with rfl | hk
    · exact (append_logged ..).among.grow ha.log.1 (logRestarts_aside _ ls).log
    · rw [← ha.loop_eq k]
      exact .late ha.log (ih hk)

theorem logRestarts_detector (s : State) (ls : List (Fin 4)) (n : Fin 192) :
    (logRestarts s ls).detector n = s.detector n :=
  OnlyIn.detector_eq (OnlyIn.foldl (fun t l => append_onlyIn t .loopRestart (.loop l) none _) ls s) (by decide) n

theorem restarted_loop (d : Detector) : d.restarted.loop = d.loop := by
  unfold Detector.restarted
  split <;> rfl

/-- An operation outside the Loop Scan Unit leaves a loop at rest. -/
theorem Resting.of_aside {s t : State} {l : Fin 4} (hr : Resting s l) (h : Aside s t) : Resting t l :=
  ⟨by rw [h.loop_eq]; exact hr.state, fun c p hc => hr.unheld c p (by rwa [h.converter_eq] at hc)⟩

theorem restartLoops_works (s : State) (ls : List (Fin 4)) : Works scanward s (restartLoops s ls) := by
  rw [restartLoops_eq]
  have records : Works scanward s (restartRecords s ls) :=
    (Works.of_onlyIn (restartRecords_onlyIn s ls) (by decide)).mono (by decide)
  have logged : ∀ t, Works scanward t (logRestarts t ls) := fun t =>
    Works.foldl (fun _ _ => (append_works ..).mono (by decide)) ls t
  exact ((records.trans ((restartDetectors_works _ ls).mono (by decide))).trans (logged _)).trans (arbitrate_works _)

/-- What a restart leaves of a loop it reaches, and of the detectors on it. -/
theorem restartLoops_loop {s : State} (h : LoopsServed s) {l k : Fin 4} (hk : k ∈ restartReach s l) :
    (restartLoops s (restartReach s l)).loop k = Loop.paired k (s.loop k).restarted (s.loop (partnerOf k)).restarted
      ∧ (∀ n d, s.detector n = some d → d.loop = k → (restartLoops s (restartReach s l)).detector n = some d.restarted)
      ∧ LoggedAmong s (restartLoops s (restartReach s l))
        { kind := .loopRestart, subject := .loop k, wing := none, detail := .loopMode (s.loop k).restarted.mode } := by
  rw [restartLoops_eq]
  generalize hr : restartRecords s (restartReach s l) = r
  generalize hd : restartDetectors r (restartReach s l) = t
  have hro : OnlyIn [.loops, .converters] s r := hr ▸ restartRecords_onlyIn s _
  have hdw : Works detectorward r t := hd ▸ restartDetectors_works r _
  have hrest : Resting r k := hr ▸ restartRecords_resting h l hk
  have ht : LoopsServed t := (hr ▸ restartRecords_served h l).works hdw (by decide)
  have hlog := logRestarts_aside t (restartReach s l)
  have hu := Resting.arbitrate (hlog.served ht) (((hrest.of_onlyIn hdw.within.1 (by decide))).of_aside hlog)
  have hloop : t.loop k = Loop.paired k (s.loop k).restarted (s.loop (partnerOf k)).restarted := by
    rw [OnlyIn.loop_eq hdw.within.1 (by decide), ← hr, loop_restartRecords_of_agree h.agree, if_pos hk]
  refine ⟨by rw [hu.loop, hlog.loop_eq, hloop], fun n d hn hl => ?_, ?_⟩
  · have hrn : r.detector n = some d := by rw [OnlyIn.detector_eq hro (by decide), hn]
    refine hu.detector n _ ?_ (by rw [restarted_loop, hl])
    rw [logRestarts_detector, ← hd, restartDetectors_detector r _ hrn, if_pos (hl ▸ hk)]
  · have hm : (t.loop k).mode = (s.loop k).restarted.mode := by rw [hloop]; exact (paired_eq ..).1
    rw [← hm]
    have hlg : LogGrows s t := (LogGrows.of_onlyIn hro (by decide)).trans hdw.log
    exact (LoggedAmong.late hlg (logRestarts_among hk)).grow (hlg.trans hlog.log).1 (arbitrate_works _).log

/-! ### The command (R32) -/

/-- The last scan start time after a restart is that of the lower loop where the pair is mirrored then. -/
theorem paired_restarted_lastStart {s : State} (k : Fin 4) :
    (Loop.paired k (s.loop k).restarted (s.loop (partnerOf k)).restarted).lastStart
      = (s.loop (if (s.loop k).restarted.mode = .mirrored then lowerLoop (pairOf k) else k)).lastStart := by
  have upper : 2 ≤ k.val → lowerLoop (pairOf k) = partnerOf k :=
    (by decide : ∀ k : Fin 4, 2 ≤ k.val → lowerLoop (pairOf k) = partnerOf k) k
  obtain ⟨-, -, -, -, hl, -⟩ := paired_restarted_record k (s.loop k) (s.loop (partnerOf k))
  rw [hl]
  by_cases hm : (s.loop k).restarted.mode = .mirrored
  · by_cases hk : 2 ≤ k.val
    · rw [if_pos ⟨hk, hm⟩, if_pos hm, upper hk]
    · rw [if_neg fun x => hk x.1, if_pos hm, lowerLoop_pairOf_of_lt (Nat.lt_of_not_le hk)]
  · rw [if_neg fun x => hm x.2, if_neg hm]

theorem onLoop_val {s : State} {l : Fin 4} (h : (s.loop l).inUse = true) (k : Fin 4 → Verdict) :
    onLoop s l.val k = k l := by
  rw [onLoop, onObject_val, h, need_true]

theorem taken_restartReach {s : State} {x : TakenRequest} (h : nextCommand s = some x) (l : Fin 4) :
    restartReach x.state l = restartReach s l := by
  simp only [restartReach, taken_loop h]

/-- The verdict on RESTART LOOP under a station that may give it. -/
theorem doRestartLoop_eq {s : State} {x : TakenRequest} {l : Fin 4} (h : nextCommand s = some x)
    (hs : s.inService = true) (hi : (s.loop l).inUse = true) (hp : x.port = .fire ∨ servesLoop s x.port l = true) :
    doRestartLoop l.val x.port x.state
      = need ((restartReach s l).all fun k => !(s.loop k).state.isRestarting) .wrongState
        (done (restartLoops x.state (restartReach x.state l))) := by
  have serves : (holdsFire x.port || servesLoop x.state x.port l) = true := by
    rw [taken_servesLoop h, holdsFire]
    rcases hp with e | e <;> simp [e]
  rw [doRestartLoop, inServiceOnly, (taken_inService h).trans hs, need_true,
    onLoop_val (by rw [taken_loop h]; exact hi), serves, need_true, taken_restartReach h]
  simp only [taken_loop h]

/-- Settles O30: the loops that a restart reaches rest through the arbiters' work that follows it. -/
theorem restartLoop : Obligations.RestartLoop := by
  intro s x l hok hr hs hi hp
  have hn := hr.2.1
  have hv := doRestartLoop_eq hn hs hi hp
  refine ⟨fun hall => ?_, fun k hk hre => answersOnly_of_refused hr rfl ?_⟩
  · have hall' : ((restartReach s l).all fun k => !(s.loop k).state.isRestarting) = true := by
      simpa using hall
    rw [hall', need_true] at hv
    have hsx : LoopsServed x.state := (hok.of_onlyIn (nextCommand_onlyIn hn) (by decide)).served_of_inService
      (OnlyIn.part_eq (nextCommand_onlyIn hn) (by decide) |>.trans (by simpa [State.inService] using hs))
    have hlog : LogGrows s x.state := .of_onlyIn (nextCommand_onlyIn hn) (by decide)
    refine (completes_of_worksPass hr rfl hv (restartLoops_works ..) (by decide)).mono fun t ⟨hut, hst, hw⟩ =>
      ⟨fun k hk => ?_, fun n d hd hk => ?_, hw, OnlyIn.mono hst (by decide)⟩
    · obtain ⟨hloop, -, hl⟩ := restartLoops_loop hsx (k := k) (by rwa [taken_restartReach hn])
      rw [taken_loop hn, taken_loop hn] at hloop
      rw [taken_loop hn] at hl
      obtain ⟨h1, h2, h3, h4, h5, h6⟩ := paired_restarted_record k (s.loop k) (s.loop (partnerOf k))
      obtain ⟨-, -, -, -, g1, g2, g3, -, g4, g5⟩ := restarted_record (s.loop k)
      obtain ⟨p1, p2, p3, p4⟩ := paired_eq k (s.loop k).restarted (s.loop (partnerOf k)).restarted
      rw [OnlyIn.loop_eq hut (by decide), hloop]
      refine ⟨h1, h2, h3, h4, p4.trans g1, p2.trans g2, p1.trans g3, ?_, fun e => p3.trans (g4 e), fun e f => ?_, ?_⟩
      · rw [p1, paired_restarted_lastStart]
      · rw [h6 (by rw [g3, f]; rfl), g5 e f]
      · rw [← g3]
        exact (LoggedAmong.late hlog hl).grow (hlog.trans (restartLoops_works ..).log).1 (.of_onlyIn hut (by decide))
    · obtain ⟨-, hdet, -⟩ := restartLoops_loop hsx (k := d.loop) (by rwa [taken_restartReach hn])
      refine ⟨d.restarted, ?_, ?_⟩
      · rw [OnlyIn.detector_eq hut (by decide)]
        exact hdet n d (by rw [taken_detector hn, hd]) rfl
      · unfold Detector.restarted
        split <;> simp_all
  · have hall' : ((restartReach s l).all fun k => !(s.loop k).state.isRestarting) = false := by
      rw [List.all_eq_false]
      exact ⟨k, hk, by simp [hre]⟩
    rw [hv, hall', need_false]

end Sys2Proof.Machine
end

section
/-! SUPPORT. The loops that become due (R22, R34), and what the hand-out of converters leaves of a loop (R23, R24). -/

set_option autoImplicit false

namespace Sys2Proof.Machine

/-! ### Becoming due (R22, R34) -/

/-- What every step of a run over loops keeps holds at its end. -/
theorem foldl_keeps {P : State → Prop} {f : State → Fin 4 → State} (hf : ∀ t k, P t → P (f t k)) (ks : List (Fin 4))
    {s : State} (h : P s) : P (ks.foldl f s) := by
  induction ks generalizing s with
  | nil => exact h
  | cons k ks ih => exact ih (hf s k h)

/-- A loop's interval has run out while it scans. -/
def Loop.expires (r : Loop) : Bool := decide (r.intervalTimer = some 0) && r.state.scans

/-- A loop that is due and scans. -/
def Loop.ripe (r : Loop) : Prop := r.due = true ∧ r.state.scans = true

/-- The fields of a loop that its becoming due leaves alone. -/
def Loop.undue (r : Loop) : Bool × LoopMode × Option Scan × Option Seconds × Option (Fin 48) × Nat :=
  (r.inUse, r.mode, r.scan, r.lastStart, r.breakPosition, r.scanInterval)

theorem settleDue_loop (s : State) (k l : Fin 4) : (settleDue s k).loop l
    = if (s.loop k).state = .restarting .settle 0 ∧ l ∈ (unitOf s k).loops then
        { s.loop l with state := .running, due := true }
      else s.loop l := by
  unfold settleDue
  by_cases hs : (s.loop k).state = .restarting .settle 0
  · rw [if_pos hs, (appendLoop_aside ..).loop_eq, loop_modUnit]
    simp only [hs, true_and]
  · rw [if_neg hs, if_neg fun h => hs h.1]

theorem intervalDue_loop (s : State) (k l : Fin 4) : (intervalDue s k).loop l
    = if (s.loop k).expires = true then
        { s.loop l with
          intervalTimer := if l = k then none else (s.loop l).intervalTimer
          due := (s.loop l).due || decide (l ∈ (unitOf s k).loops) }
      else s.loop l := by
  unfold intervalDue
  change (if (s.loop k).expires = true then _ else _ : State).loop l = _
  split
  next he =>
    rw [loop_modUnit, State.loop_modLoop]
    by_cases hk : l = k
    · subst hk
      simp [mem_unitOf]
    · by_cases hl : l ∈ (unitOf s k).loops <;> simp [hl, hk]
  next => rfl

theorem settleDue_undue (s : State) (k l : Fin 4) : ((settleDue s k).loop l).undue = (s.loop l).undue := by
  rw [settleDue_loop]
  split <;> rfl

theorem intervalDue_undue (s : State) (k l : Fin 4) : ((intervalDue s k).loop l).undue = (s.loop l).undue := by
  rw [intervalDue_loop]
  split <;> rfl

theorem makeDue_undue (s : State) (l : Fin 4) : ((makeDue s).loop l).undue = (s.loop l).undue := by
  have settled : (((List.finRange 4).foldl settleDue s).loop l).undue = (s.loop l).undue :=
    foldl_keeps (P := fun t => (t.loop l).undue = (s.loop l).undue) (fun t k h => (settleDue_undue t k l).trans h) _ rfl
  exact foldl_keeps (P := fun t => (t.loop l).undue = (s.loop l).undue) (fun t k h => (intervalDue_undue t k l).trans h) _
    settled

theorem settleDue_ripe {s : State} {l : Fin 4} (h : (s.loop l).ripe) (k : Fin 4) : ((settleDue s k).loop l).ripe := by
  rw [settleDue_loop]
  split
  · exact ⟨rfl, rfl⟩
  · exact h

theorem intervalDue_ripe {s : State} {l : Fin 4} (h : (s.loop l).ripe) (k : Fin 4) :
    ((intervalDue s k).loop l).ripe := by
  rw [intervalDue_loop]
  split
  · exact ⟨by simp [h.1], h.2⟩
  · exact h

theorem settleDue_expires {s : State} {l : Fin 4} (h : (s.loop l).expires = true) (k : Fin 4) :
    ((settleDue s k).loop l).expires = true := by
  simp only [Loop.expires, Bool.and_eq_true, decide_eq_true_eq] at h ⊢
  rw [settleDue_loop]
  split
  · exact ⟨h.1, rfl⟩
  · exact h

/-- A loop whose interval has run out becomes due in the run over the loops. -/
theorem intervalDues_ripe {ks : List (Fin 4)} {l : Fin 4} (hl : l ∈ ks) {s : State} (h : (s.loop l).expires = true) :
    ((ks.foldl intervalDue s).loop l).ripe := by
  induction ks generalizing s with
  | nil => cases hl
  | cons k ks ih =>
    by_cases hk : l = k
    · subst hk
      refine foldl_keeps (P := fun t => (t.loop l).ripe) (fun t k h => intervalDue_ripe h k) ks ?_
      have hs := h
      simp only [Loop.expires, Bool.and_eq_true] at hs
      rw [intervalDue_loop, if_pos h]
      exact ⟨by simp [mem_unitOf], hs.2⟩
    · refine ih ((List.mem_cons.mp hl).resolve_left hk) ?_
      rw [intervalDue_loop]
      split
      · simpa only [Loop.expires, if_neg hk] using h
      · exact h

/-- A loop whose settle period has ended is RUNNING and due after the run over the loops. -/
theorem settleDues_running {ks : List (Fin 4)} {l : Fin 4} (hl : l ∈ ks) {s : State}
    (h : (s.loop l).state = .restarting .settle 0) :
    ((ks.foldl settleDue s).loop l).state = .running ∧ ((ks.foldl settleDue s).loop l).due = true := by
  induction ks generalizing s with
  | nil => cases hl
  | cons k ks ih =>
    by_cases hk : (s.loop k).state = .restarting .settle 0 ∧ l ∈ (unitOf s k).loops
    · refine foldl_keeps (P := fun t => (t.loop l).state = .running ∧ (t.loop l).due = true) (fun t j ht => ?_) ks ?_
      · rw [settleDue_loop]
        split
        · exact ⟨rfl, rfl⟩
        · exact ht
      · rw [settleDue_loop, if_pos hk]
        exact ⟨rfl, rfl⟩
    · have hne : l ≠ k := fun e => hk (e ▸ ⟨h, mem_unitOf s l⟩)
      refine ih ((List.mem_cons.mp hl).resolve_left hne) ?_
      rw [settleDue_loop, if_neg hk]
      exact h

/-- What makes a loop due: its settle period has ended, or it scans and is due already, or its interval has run out. -/
theorem makeDue_ripe {s : State} {l : Fin 4} (h : (s.loop l).state = .restarting .settle 0
    ∨ (s.loop l).state.scans = true ∧ ((s.loop l).due = true ∨ (s.loop l).intervalTimer = some 0)) :
    ((makeDue s).loop l).ripe := by
  have hl := List.mem_finRange l
  have ripe : ∀ {t : State}, (t.loop l).ripe → (((List.finRange 4).foldl intervalDue t).loop l).ripe := fun h =>
    foldl_keeps (P := fun t => (t.loop l).ripe) (fun t k h => intervalDue_ripe h k) _ h
  rcases h with h | ⟨hs, h | h⟩
  · obtain ⟨h1, h2⟩ := settleDues_running hl h
    exact ripe ⟨h2, by rw [h1]; rfl⟩
  · exact ripe (foldl_keeps (P := fun t => (t.loop l).ripe) (fun t k h => settleDue_ripe h k) _ ⟨h, hs⟩)
  · refine intervalDues_ripe hl (foldl_keeps (P := fun t => (t.loop l).expires = true)
      (fun t k h => settleDue_expires h k) _ ?_)
    simp [Loop.expires, hs, h]

/-- A loop that contends wants a converter once the loops are made due (R22, R34). -/
theorem Contends.wants {s : State} {l : Fin 4} (h : Contends s [] l) : ((makeDue s).loop l).wants = true := by
  obtain ⟨hu, hs, hd⟩ := h
  have hr := makeDue_ripe hd
  have he := makeDue_undue s l
  simp only [Loop.undue, Prod.mk.injEq] at he
  obtain ⟨h1, -, h3, -⟩ := he
  have hn : (s.loop l).scan = none := hs.resolve_right nofun
  simp [Loop.wants, h1, h3, hu, hn, hr.1, hr.2]

theorem mode_of_undue {r q : Loop} (h : r.undue = q.undue) : r.mode = q.mode := congrArg (fun x => x.2.1) h

theorem lastStart_of_undue {r q : Loop} (h : r.undue = q.undue) : r.lastStart = q.lastStart :=
  congrArg (fun x => x.2.2.2.1) h

theorem scan_of_undue {r q : Loop} (h : r.undue = q.undue) : r.scan = q.scan := congrArg (fun x => x.2.2.1) h

theorem breakPosition_of_undue {r q : Loop} (h : r.undue = q.undue) : r.breakPosition = q.breakPosition :=
  congrArg (fun x => x.2.2.2.2.1) h

theorem scanInterval_of_undue {r q : Loop} (h : r.undue = q.undue) : r.scanInterval = q.scanInterval :=
  congrArg (fun x => x.2.2.2.2.2) h

theorem makeDue_converter (s : State) (c : Converter) : (makeDue s).converter c = s.converter c :=
  OnlyIn.converter_eq (makeDue_onlyIn s) (by decide) c

theorem makeDue_seconds (s : State) : (makeDue s).seconds = s.seconds := (makeDue_works s).log.1

theorem intervalDue_state (s : State) (k l : Fin 4) : ((intervalDue s k).loop l).state = (s.loop l).state := by
  rw [intervalDue_loop]
  split <;> rfl

theorem intervalDues_state (ks : List (Fin 4)) (s : State) (l : Fin 4) :
    ((ks.foldl intervalDue s).loop l).state = (s.loop l).state :=
  foldl_keeps (P := fun t => (t.loop l).state = (s.loop l).state) (fun t k h => (intervalDue_state t k l).trans h) ks rfl

/-- A loop that settles is RUNNING once the loops are made due, and every other loop keeps its state. -/
theorem makeDue_running {s : State} {l : Fin 4} (h : (s.loop l).state = .restarting .settle 0) :
    ((makeDue s).loop l).state = .running :=
  (intervalDues_state ..).trans (settleDues_running (List.mem_finRange l) h).1

theorem makeDue_state {s : State} (h : LoopsServed s) {l : Fin 4} (hl : (s.loop l).state ≠ .restarting .settle 0) :
    ((makeDue s).loop l).state = (s.loop l).state := by
  refine (intervalDues_state ..).trans
    (foldl_keeps (P := fun t => LoopsServed t ∧ (t.loop l).state = (s.loop l).state)
      (fun t k ⟨ht, hs⟩ => ⟨ht.settleDue k, ?_⟩) _ ⟨h, rfl⟩).2
  rw [settleDue_loop, if_neg fun ⟨hk, hm⟩ => hl (hs.symm.trans ((ht.agree.state_of_mem hm).trans hk)), hs]

/-- The entry of a unit whose settle period has ended (R34). -/
theorem settleDues_logged {ks : List (Fin 4)} {l : Fin 4} (hl : l ∈ ks) {s : State} (h : LoopsServed s)
    (hs : (s.loop l).state = .restarting .settle 0) : LoggedAmong s (ks.foldl settleDue s)
      { kind := .loopRunning, subject := .loop (unitOf s l).head, wing := none, detail := .none } := by
  induction ks generalizing s with
  | nil => cases hl
  | cons k ks ih =>
    have hg : LogGrows s (settleDue s k) := (settleDue_works s k).log
    by_cases hk : (s.loop k).state = .restarting .settle 0 ∧ l ∈ (unitOf s k).loops
    · rw [h.agree.mode_of_mem (h.agree.unitOf_stands k) hk.2]
      refine LoggedAmong.grow ?_ hg.1 (LogGrows.foldl (fun t j => (settleDue_works t j).log) ks _)
      rw [settleDue, if_pos hk.1]
      exact loggedAmong_append (.of_onlyIn (modUnit_onlyIn _ _ _) (by decide)) (LogGrows.refl _)
    · have hne : l ≠ k := fun e => hk (e ▸ ⟨hs, mem_unitOf s l⟩)
      have hloop : (settleDue s k).loop l = s.loop l := by rw [settleDue_loop, if_neg hk]
      have hu : unitOf (settleDue s k) l = unitOf s l := by rw [unitOf, hloop, unitOf]
      rw [← hu]
      exact .late hg (ih ((List.mem_cons.mp hl).resolve_left hne) (h.settleDue k) (by rw [hloop, hs]))

theorem makeDue_logged {s : State} {l : Fin 4} (h : LoopsServed s) (hs : (s.loop l).state = .restarting .settle 0) :
    LoggedAmong s (makeDue s)
      { kind := .loopRunning, subject := .loop (unitOf s l).head, wing := none, detail := .none } :=
  (settleDues_logged (List.mem_finRange l) h hs).grow
    (LogGrows.foldl (fun t j => (settleDue_works t j).log) _ s).1
    (LogGrows.foldl (fun t j => (intervalDue_works t j).log) _ _)

/-! ### A loop through the hand-outs (R23, R24) -/

/-- A loop through hand-outs: its scan has started at this second, or its record is as it was. -/
structure Handed (l : Fin 4) (s t : State) : Prop where
  seconds : t.seconds = s.seconds
  mode : (t.loop l).mode = (s.loop l).mode
  state : (t.loop l).state = (s.loop l).state
  breakPosition : (t.loop l).breakPosition = (s.loop l).breakPosition
  record : t.loop l = s.loop l ∨ (t.loop l).due = false ∧ (t.loop l).lastStart = some s.seconds

theorem Handed.refl (l : Fin 4) (s : State) : Handed l s s := ⟨rfl, rfl, rfl, rfl, .inl rfl⟩

theorem Handed.trans {l : Fin 4} {s t u : State} (h : Handed l s t) (k : Handed l t u) : Handed l s u := by
  refine ⟨k.seconds.trans h.seconds, k.mode.trans h.mode, k.state.trans h.state,
    k.breakPosition.trans h.breakPosition, ?_⟩
  rcases k.record with e | ⟨hd, hl⟩
  · rw [e]
    exact h.record
  · exact .inr ⟨hd, by rw [hl, h.seconds]⟩

/-- A scan that starts after a change of converters. -/
theorem startScan_handed {s s1 : State} (h : OnlyIn [.converters] s s1) (u : ScanUnit) (l : Fin 4) :
    Handed l s (startScan s1 u) := by
  have hs : s1.seconds = s.seconds := h .seconds (by decide)
  have hl : s1.loop l = s.loop l := OnlyIn.loop_eq h (by decide) l
  constructor
  · rw [(startScan_works s1 u).log.1, hs]
  all_goals rw [startScan_loop, hl]
  all_goals by_cases hm : l ∈ u.loops
  all_goals simp [hm, hs]

theorem Give.handed {s t : State} (g : Give s t) (l : Fin 4) : Handed l s t := by
  cases g with
  | loop => exact startScan_handed (putConverter_onlyIn _ _ _) _ l
  | pair => exact startScan_handed (OnlyIn.trans (putConverter_onlyIn _ _ _) (putConverter_onlyIn _ _ _)) _ l
  | keep c p => exact ⟨putConverter_onlyIn s c _ .seconds (by decide), by simp, by simp, by simp, .inl (by simp)⟩

theorem Gives.handed {s t : State} (g : Gives s t) (l : Fin 4) : Handed l s t := by
  induction g with
  | refl => exact Handed.refl l s
  | tail _ g ih => exact ih.trans (g.handed l)

/-- A due flag that is gone does not come back in the hand-outs. -/
theorem Handed.due {l : Fin 4} {s t : State} (h : Handed l s t) (hd : (s.loop l).due = false) :
    (t.loop l).due = false := by
  rcases h.record with e | e
  · rw [e, hd]
  · exact e.1

/-- A loop that was due is due still, or its scan has started. -/
theorem Handed.due_or {l : Fin 4} {s t : State} (h : Handed l s t) (hd : (s.loop l).due = true) :
    (t.loop l).due = true ∨ (t.loop l).lastStart = some s.seconds := by
  rcases h.record with e | e
  · exact .inl (e ▸ hd)
  · exact .inr e.2

end Sys2Proof.Machine
end

section
/-! SUPPORT. The hand-out of converters (R23): eight rounds settle every contender, and in the first round the earliest
last scan start goes first. -/

set_option autoImplicit false

namespace Sys2Proof.Machine

/-! ### The picks of the arbiters -/

theorem arbiterPick_of_winner {s : State} {c : Converter} (hf : s.converter c = .free)
    (hk : ∀ p, s.converter c.other ≠ .kept p) : arbiterPick s c = winner s (contenders s c) := by
  have hn : keepsOther s c = none := by
    unfold keepsOther
    split
    next p hp => exact absurd hp (hk p)
    all_goals rfl
  rw [arbiterPick, hf]
  simp only [hn]

theorem arbiterPick_of_kept {s : State} {c : Converter} {p : Fin 2} (hf : s.converter c = .free)
    (hk : s.converter c.other = .kept p) : arbiterPick s c = some (.pair p) := by
  rw [arbiterPick, hf]
  simp only [keepsOther, hk]

/-- The arbiters have nothing to hand out. -/
def NothingPicked (s : State) : Prop := ∀ c, arbiterPick s c = none

theorem NothingPicked.handOut {s : State} (h : NothingPicked s) : handOut s = s := by
  have ha : giveConverter s .a (arbiterPick s .a) = s := by rw [h .a]; rfl
  rw [Machine.handOut, ha, h .b]
  rfl

/-- A free converter that is not handed out has no contender. -/
theorem NothingPicked.contenders {s : State} (h : NothingPicked s) {c : Converter} (hf : s.converter c = .free) :
    contenders s c = [] := by
  have hk : ∀ p, s.converter c.other ≠ .kept p := fun p hp => by
    have := h c
    rw [arbiterPick_of_kept hf hp] at this
    cases this
  rw [← winner_eq_none, ← arbiterPick_of_winner hf hk]
  exact h c

/-! ### The hand-outs come to an end -/

/-- The hand-outs that a loop can still be given, a mirrored pair counting as its lower loop: one to an independent loop
that wants a converter, and to a pair one for each converter it still needs. -/
def handsLeft (s : State) (l : Fin 4) : Nat :=
  match (s.loop l).mode with
  | .independent => if (s.loop l).wants then 1 else 0
  | .mirrored =>
    if 2 ≤ l.val then 0
    else if s.converter .a = .kept (pairOf l) then if s.converter .b = .kept (pairOf l) then 0 else 1
    else if s.converter .b = .kept (pairOf l) then 1
    else if (s.loop l).wants then 2 else 0

theorem handsLeft_le (s : State) (l : Fin 4) : handsLeft s l ≤ 2 := by
  unfold handsLeft
  split
  · split <;> omega
  · split
    · omega
    · split
      · split <;> omega
      · split
        · omega
        · split <;> omega

theorem handsLeft_congr {s t : State} {l : Fin 4} (hl : t.loop l = s.loop l)
    (hk : ∀ c, t.converter c = .kept (pairOf l) ↔ s.converter c = .kept (pairOf l)) : handsLeft t l = handsLeft s l := by
  simp only [handsLeft, hl, hk]

/-- A mirrored pair of which neither converter is kept. -/
theorem handsLeft_of_unkept {s : State} {p : Fin 2} (hm : (s.loop (lowerLoop p)).mode = .mirrored)
    (hk : ∀ c, s.converter c ≠ .kept p) :
    handsLeft s (lowerLoop p) = if (s.loop (lowerLoop p)).wants then 2 else 0 := by
  simp only [handsLeft, hm, pairOf_lowerLoop, hk, if_false, Nat.not_le.mpr (lowerLoop_lt p)]

/-- A mirrored pair of which one converter alone is kept. -/
theorem handsLeft_of_kept {s : State} {p : Fin 2} {c : Converter} (hm : (s.loop (lowerLoop p)).mode = .mirrored)
    (hk : s.converter c = .kept p) (hn : s.converter c.other ≠ .kept p) : handsLeft s (lowerLoop p) = 1 := by
  simp only [handsLeft, hm, pairOf_lowerLoop, Nat.not_le.mpr (lowerLoop_lt p), if_false]
  cases c with
  | a => rw [if_pos hk, if_neg (show s.converter .b ≠ .kept p from hn)]
  | b => rw [if_neg (show s.converter .a ≠ .kept p from hn), if_pos hk]

/-- The upper loop of a mirrored pair is given nothing of its own. -/
theorem handsLeft_upper {s : State} {l : Fin 4} (hm : (s.loop l).mode = .mirrored) (hl : 2 ≤ l.val) : handsLeft s l = 0 := by
  simp only [handsLeft, hm, hl, if_true]

theorem lower_or_two_le (l : Fin 4) : l = lowerLoop (pairOf l) ∨ 2 ≤ l.val := by revert l; decide

/-- A converter that is kept for another pair stays so in the start of a scan. -/
theorem startScan_kept {s : State} {u : ScanUnit} {p : Fin 2} (hu : u ≠ .pair p) (c : Converter) :
    (startScan s u).converter c = .kept p ↔ s.converter c = .kept p := by
  rw [startScan_converter]
  split
  next h =>
    refine iff_of_false nofun fun e => ?_
    rw [e] at h
    cases u with
    | loop l => exact absurd h.2 (by simp [Holder.isFor])
    | pair q => exact hu (by simpa [Holder.isFor, eq_comm] using h.2)
  next => rfl

theorem startScan_not_due (s : State) {u : ScanUnit} {l : Fin 4} (hl : l ∈ u.loops) :
    ((startScan s u).loop l).due = false := by
  rw [startScan_loop, if_pos hl]

theorem not_wants_of_due {r : Loop} (h : r.due = false) : r.wants = false := by simp [Loop.wants, h]

theorem wants_due {r : Loop} (h : r.wants = true) : r.due = true := by
  by_contra hd
  rw [not_wants_of_due (by simpa using hd)] at h
  cases h

/-- A hand-out uses up one that a unit has left, and leaves those of every other loop. -/
theorem Give.handsLeft {s t : State} (h : LoopsServed s) (g : Give s t) :
    ∃ k, handsLeft t k < handsLeft s k ∧ ∀ l, l ≠ k → handsLeft t l = handsLeft s l := by
  have upper : ∀ {x : State}, PairsAgree x → ∀ {p l}, (x.loop (lowerLoop p)).mode = .mirrored → pairOf l = p →
      l ≠ lowerLoop p → Machine.handsLeft x l = 0 := fun {x} hx {p l} hm hl hn => by
    subst hl
    exact handsLeft_upper ((hx.mode_lower l).symm.trans hm) ((lower_or_two_le l).resolve_left hn)
  have ht := h.give g
  cases g with
  | loop c l hf he =>
    refine ⟨l, ?_, fun k hk => handsLeft_congr (giveLoop_loop hk) fun d => ?_⟩
    · have hm : ((startScan (s.putConverter c (.loop l)) (.loop l)).loop l).mode = .independent := by
        rw [(startScan_handed (putConverter_onlyIn s c _) _ l).mode, he.1]
      have hw := not_wants_of_due (startScan_not_due (s.putConverter c (.loop l)) (head_mem_loops (.loop l)))
      simp only [ScanUnit.head] at hw
      simp only [Machine.handsLeft, hm, hw, he.1, he.2.1, if_true]
      decide
    · rw [startScan_kept (by simp), converter_putConverter]
      split
      next e => rw [e, hf]; simp
      next => rfl
  | pair c p hf hk =>
    have hm := h.holders c.other p (by rw [hk]; rfl)
    have hm' : ((startScan ((s.putConverter c (.pair p)).putConverter c.other (.pair p)) (.pair p)).loop (lowerLoop p)).mode
        = .mirrored := by
      rw [(startScan_handed (OnlyIn.trans (putConverter_onlyIn s c _) (putConverter_onlyIn _ _ _)) _ _).mode, hm]
    have unkept : ∀ d, ((s.putConverter c (.pair p)).putConverter c.other (.pair p)).converter d = .pair p := fun d => by
      rw [converter_putConverter, converter_putConverter]
      by_cases hd : d = c
      · rw [if_neg (by rw [hd]; exact (other_ne c).symm), if_pos hd]
      · rw [if_pos (eq_other_of_ne hd)]
    refine ⟨lowerLoop p, ?_, fun l hl => ?_⟩
    · rw [handsLeft_of_unkept hm' fun d => ?_, handsLeft_of_kept hm hk (by rw [other_other, hf]; simp),
        not_wants_of_due (startScan_not_due _ (by simp))]
      · decide
      · rw [startScan_converter, unkept]
        split <;> simp
    · by_cases hp : pairOf l = p
      · rw [upper ht.agree hm' hp hl, upper h.agree hm hp hl]
      · refine handsLeft_congr ?_ fun d => ?_
        · rw [startScan_loop, if_neg (by simpa using hp), loop_putConverter, loop_putConverter]
        · rw [startScan_kept (by simpa using fun e => hp e.symm), unkept]
          refine iff_of_false nofun fun e => ?_
          by_cases hd : d = c
          · rw [hd, hf] at e
            cases e
          · rw [eq_other_of_ne hd, hk] at e
            cases e
            exact hp rfl
  | keep c p hf he hk =>
    have hm : ((s.putConverter c (.kept p)).loop (lowerLoop p)).mode = .mirrored := by rw [loop_putConverter, he.1]
    have other : (s.putConverter c (.kept p)).converter c.other ≠ .kept p := by
      rw [converter_putConverter, if_neg (other_ne c)]
      exact hk
    have unkept : ∀ d, s.converter d ≠ .kept p := fun d => by
      by_cases hd : d = c
      · rw [hd, hf]
        simp
      · rw [eq_other_of_ne hd]
        exact hk
    refine ⟨lowerLoop p, ?_, fun l hl => ?_⟩
    · rw [handsLeft_of_kept hm (by rw [converter_putConverter, if_pos rfl]) other, handsLeft_of_unkept he.1 unkept, he.2]
      decide
    · by_cases hp : pairOf l = p
      · rw [upper ht.agree hm hp hl, upper h.agree he.1 hp hl]
      · refine handsLeft_congr (loop_putConverter ..) fun d => ?_
        rw [converter_putConverter]
        split
        next e => rw [e, hf]; simpa using fun e => hp e.symm
        next => rfl

/-- The hand-outs that are left in a state. -/
def allHandsLeft (s : State) : Nat := ∑ l, handsLeft s l

theorem allHandsLeft_le (s : State) : allHandsLeft s ≤ 8 :=
  (Finset.sum_le_card_nsmul _ _ 2 fun l _ => handsLeft_le s l).trans (by simp)

theorem Give.allHandsLeft {s t : State} (h : LoopsServed s) (g : Give s t) : allHandsLeft t < allHandsLeft s := by
  obtain ⟨k, hk, hl⟩ := g.handsLeft h
  refine Finset.sum_lt_sum (fun l _ => ?_) ⟨k, Finset.mem_univ k, hk⟩
  by_cases e : l = k
  · exact e ▸ hk.le
  · exact (hl l e).le

/-- A round hands out nothing only where nothing is to be handed out. -/
theorem handOut_picks {s : State} (h : LoopsServed s) : NothingPicked s ∨ allHandsLeft (handOut s) < allHandsLeft s := by
  obtain ⟨ha, hb⟩ := handOut_gives s
  have second : ∀ {t}, Gives s t → LoopsServed t := fun g => h.gives g
  rcases ha with ha | ha <;> rcases hb with hb | hb
  · exact .inl fun c => by cases c <;> assumption
  · rw [ha] at hb
    exact .inr (hb.allHandsLeft h)
  · rw [handOut, hb]
    exact .inr (ha.allHandsLeft h)
  · exact .inr ((hb.allHandsLeft (second (.single ha))).trans (ha.allHandsLeft h))

theorem handOuts_nothingPicked {n : Nat} {s : State} (h : LoopsServed s) (hn : allHandsLeft s ≤ n) :
    NothingPicked (handOuts n s) := by
  induction n generalizing s with
  | zero => exact (handOut_picks h).resolve_right (by omega)
  | succ n ih =>
    rcases handOut_picks h with hs | hs
    · have fixed : ∀ m, handOuts m s = s := fun m => by
        induction m with
        | zero => rfl
        | succ m ih => rw [handOuts, hs.handOut, ih]
      rw [fixed]
      exact hs
    · exact ih (h.gives (handOut_gives_star s)) (by omega)

theorem arbitrate_nothingPicked {s : State} (h : LoopsServed s) : NothingPicked (arbitrate s) :=
  handOuts_nothingPicked h.makeDue (allHandsLeft_le _)

/-! ### The first of the contenders -/

theorem startsBefore_iff (s : State) (u v : ScanUnit) : StartsBefore s u.head v.head
    ↔ startRank s u < startRank s v ∨ startRank s u = startRank s v ∧ u.head < v.head := by
  unfold StartsBefore startRank
  cases (s.loop u.head).lastStart <;> cases (s.loop v.head).lastStart <;>
    simp [BitVec.lt_def, BitVec.toNat_eq]

/-- The units that contend stand by the number of their heads. -/
theorem contenders_ascend (s : State) (c : Converter) : (contenders s c).Pairwise fun u v => u.head < v.head := by
  refine List.Pairwise.filterMap _ ?_ (List.pairwise_lt_finRange 4)
  have head : ∀ {l u}, (if (s.loop l).wants then
      match (s.loop l).mode with
      | .independent => if converterOf l = c then some (.loop l) else none
      | .mirrored => if l.val < 2 then some (.pair (pairOf l)) else none
    else none : Option ScanUnit) = some u → u.head = l := fun {l u} h => by
    split at h
    · split at h
      · split at h
        · cases h; rfl
        · cases h
      · split at h
        next hl => cases h; exact lowerLoop_pairOf_of_lt hl
        next => cases h
    · cases h
  intro a b hab u hu v hv
  rw [head hu, head hv]
  exact hab

/-- The winner among units that stand by number stands before every other. -/
theorem winner_before {s : State} {us : List ScanUnit} (ha : us.Pairwise fun u v => u.head < v.head) {w : ScanUnit}
    (h : winner s us = some w) : ∀ v ∈ us, v = w ∨ StartsBefore s w.head v.head := by
  induction us generalizing w with
  | nil => nofun
  | cons u us ih =>
    obtain ⟨hu, hus⟩ := List.pairwise_cons.mp ha
    simp only [winner] at h
    simp only [startsBefore_iff] at ih ⊢
    cases hw : winner s us with
    | none =>
      rw [hw] at h
      cases h
      rw [winner_eq_none.mp hw]
      simp
    | some x =>
      obtain ⟨hx, hle⟩ := winner_eq_some hw
      rw [hw] at h
      simp only at h
      split at h
      next hlt =>
        cases h
        intro v hv
        rcases List.mem_cons.mp hv with rfl | hv
        · exact .inr (.inl hlt)
        · exact ih hus hw v hv
      next hlt =>
        cases h
        intro v hv
        rcases List.mem_cons.mp hv with rfl | hv
        · exact .inl rfl
        · have := hle v hv
          have := hu v hv
          right
          omega

/-- A contender that stands before every other wins. -/
theorem winner_eq_of_before {s : State} {c : Converter} {u : ScanUnit} (hu : Eligible s c u)
    (h : ∀ v, Eligible s c v → v = u ∨ StartsBefore s u.head v.head) : winner s (contenders s c) = some u := by
  have hm := mem_contenders.mpr hu
  cases hw : winner s (contenders s c) with
  | none =>
    rw [winner_eq_none.mp hw] at hm
    cases hm
  | some w =>
    rcases winner_before (contenders_ascend s c) hw u hm with rfl | hwu
    · rfl
    · rcases h w (mem_contenders.mp (winner_eq_some hw).1) with rfl | huw
      · rfl
      · rw [startsBefore_iff] at hwu huw
        omega

end Sys2Proof.Machine
end

section
/-! SUPPORT. The order in which the arbiters hand out the free converters (R23). -/

set_option autoImplicit false

namespace Sys2Proof.Machine

/-! ### The first round -/

theorem handOut_second (s : State) : handOut s = giveConverter s .a (arbiterPick s .a)
    ∨ Give (giveConverter s .a (arbiterPick s .a)) (handOut s) :=
  (handOut_gives s).2.imp_left fun h => by rw [handOut, h]; rfl

theorem eligible_of_pick {s : State} {c : Converter} {l : Fin 4} (h : arbiterPick s c = some (.loop l)) :
    Eligible s c (.loop l) := by
  rcases (arbiterPick_cases h).2 with ⟨p, hp, -⟩ | ⟨-, hw⟩
  · cases hp
  · exact mem_contenders.mp (winner_eq_some hw).1

/-- A loop that an arbiter picks has started its scan. -/
theorem handOut_loop {s : State} {c : Converter} {l : Fin 4} (h : arbiterPick s c = some (.loop l)) :
    ((handOut s).loop l).due = false := by
  have given : ∀ t d, ((giveConverter t d (some (.loop l))).loop l).due = false := fun t d =>
    startScan_not_due _ (head_mem_loops (.loop l))
  cases c with
  | a =>
    have hs := handOut_second s
    rw [h] at hs
    rcases hs with e | g
    · rw [e]
      exact given s .a
    · exact (g.handed l).due (given s .a)
  | b =>
    rw [handOut, h]
    exact given _ .b

/-- A pair that is given its second converter starts its scan. -/
theorem giveConverter_kept {s : State} {c : Converter} {p : Fin 2} (hk : s.converter c.other = .kept p) :
    ((giveConverter s c (some (.pair p))).loop (lowerLoop p)).due = false
      ∧ ((giveConverter s c (some (.pair p))).loop (lowerLoop p)).lastStart = some s.seconds := by
  have hs : ((s.putConverter c (.pair p)).putConverter c.other (.pair p)).seconds = s.seconds :=
    OnlyIn.trans (putConverter_onlyIn s c _) (putConverter_onlyIn _ _ _) .seconds (by decide)
  rw [giveConverter, if_pos hk, startScan_loop, if_pos (by simp), hs]
  exact ⟨rfl, rfl⟩

/-- A pair that keeps one converter starts its scan when the other is free (R23). -/
theorem handOut_kept {s : State} {c : Converter} {p : Fin 2} (hf : s.converter c = .free)
    (hk : s.converter c.other = .kept p) : ((handOut s).loop (lowerLoop p)).due = false
      ∧ ((handOut s).loop (lowerLoop p)).lastStart = some s.seconds := by
  have hp := arbiterPick_of_kept hf hk
  have given := giveConverter_kept hk
  cases c with
  | a =>
    have hs := handOut_second s
    rw [hp] at hs
    rcases hs with e | g
    · rw [e]
      exact given
    · have hg := g.handed (lowerLoop p)
      have hsec : (giveConverter s .a (some (.pair p))).seconds = s.seconds := by
        have := (handOut_gives s).1
        rw [hp] at this
        exact ((this.resolve_left nofun).handed 0).seconds
      refine ⟨hg.due given.1, ?_⟩
      rcases hg.record with e | e
      · rw [e]
        exact given.2
      · rw [e.2, hsec]
  | b =>
    have ha : arbiterPick s .a = none := arbiterPick_of_held (by rw [show s.converter .a = .kept p from hk]; simp)
    rw [handOut, ha, hp]
    exact given

/-- A pair that both arbiters pick starts its scan. -/
theorem handOut_both {s : State} {p : Fin 2} (ha : arbiterPick s .a = some (.pair p))
    (hb : arbiterPick s .b = some (.pair p)) : ((handOut s).loop (lowerLoop p)).due = false := by
  have keeps : giveConverter s .a (some (.pair p)) = s.putConverter .a (.kept p) :=
    if_neg (by rw [show s.converter Converter.a.other = .free from (arbiterPick_cases hb).1]; simp)
  rw [handOut, ha, hb, keeps]
  exact (giveConverter_kept (by rw [converter_putConverter]; rfl)).1

/-- A pair stands before an independent loop: its scan has started, or it keeps the converter that the loop waits for. -/
def PairFirst (p : Fin 2) (b : Fin 4) (s : State) : Prop :=
  (s.loop (lowerLoop p)).due = false ∨ s.converter (converterOf b) = .kept p ∧ (s.loop b).due = true

theorem giveConverter_pairFirst {s : State} {p : Fin 2} {b : Fin 4} (hd : (s.loop b).due = true) :
    PairFirst p b (giveConverter s (converterOf b) (some (.pair p))) := by
  by_cases hk : s.converter (converterOf b).other = .kept p
  · exact .inl (giveConverter_kept hk).1
  · rw [giveConverter, if_neg hk]
    exact .inr ⟨by rw [converter_putConverter, if_pos rfl], by rw [loop_putConverter, hd]⟩

/-- A hand-out leaves the pair first, as the loop's converter is not free while it is kept. -/
theorem Give.pairFirst {s t : State} {p : Fin 2} {b : Fin 4} (h : PairFirst p b s) (g : Give s t) : PairFirst p b t := by
  rcases h with h | ⟨hk, hd⟩
  · exact .inl ((g.handed _).due h)
  · have other : ∀ {c}, s.converter c = .free → converterOf b ≠ c := fun hf e => by
      rw [← e, hk] at hf
      cases hf
    cases g with
    | loop c l hf he =>
      refine .inr ⟨?_, ?_⟩
      · rw [startScan_kept (by simp), converter_putConverter, if_neg (other hf), hk]
      · rw [giveLoop_loop fun e => other hf (by rw [e]; exact he.2.2), hd]
    | pair c q hf hq =>
      rw [← eq_other_of_ne (other hf), hk] at hq
      cases hq
      exact .inl (startScan_not_due _ (by simp))
    | keep c q hf => exact .inr ⟨by rw [converter_putConverter, if_neg (other hf), hk], by rw [loop_putConverter, hd]⟩

theorem Gives.pairFirst {s t : State} {p : Fin 2} {b : Fin 4} (h : PairFirst p b s) (g : Gives s t) : PairFirst p b t := by
  induction g with
  | refl => exact h
  | tail _ g ih => exact g.pairFirst ih

theorem handOut_pairFirst {s : State} {p : Fin 2} {b : Fin 4} (hd : (s.loop b).due = true)
    (hp : arbiterPick s (converterOf b) = some (.pair p)) : PairFirst p b (handOut s) := by
  cases hc : converterOf b with
  | a =>
    have first := giveConverter_pairFirst (p := p) hd
    rw [hc] at hp first
    have hs := handOut_second s
    rw [hp] at hs
    rcases hs with e | g
    · rw [e]
      exact first
    · exact g.pairFirst first
  | b =>
    rw [hc] at hp
    have keeps : (giveConverter s .a (arbiterPick s .a)).loop b = s.loop b := by
      cases ha : arbiterPick s .a with
      | none => rfl
      | some u =>
        cases u with
        | loop l =>
          refine giveLoop_loop fun e => ?_
          have := (eligible_of_pick ha).2.2
          rw [← e, hc] at this
          cases this
        | pair q =>
          rw [giveConverter, if_neg, loop_putConverter]
          rw [show s.converter Converter.a.other = .free from (arbiterPick_cases hp).1]
          simp
    have second := giveConverter_pairFirst (s := giveConverter s .a (arbiterPick s .a)) (p := p) (b := b)
      (by rw [keeps, hd])
    rw [hc] at second
    rw [handOut, hp]
    exact second

/-! ### Who contends with whom -/

theorem other_of_converter : ∀ a b : Fin 4, a ≠ b → converterOf a = converterOf b →
    (∀ q, q = pairOf a ∨ q = pairOf b) ∧ ∀ k, converterOf k = converterOf a → k = a ∨ k = b := by decide

theorem mixed_converter : ∀ (p : Fin 2) (b : Fin 4), p ≠ pairOf b →
    (∀ q, q = p ∨ q = pairOf b) ∧ ∀ k, converterOf k = converterOf b → k = b ∨ pairOf k = p := by decide

section
variable {s : State} (h : LoopsServed s)
include h

/-- Of two independent loops of a free converter the one that stands before starts. -/
theorem handOut_loopOverLoop {a b : Fin 4} (ha : (s.loop a).mode = .independent) (hb : (s.loop b).mode = .independent)
    (hab : a ≠ b) (hc : converterOf a = converterOf b) (hf : s.converter (converterOf a) = .free)
    (wa : (s.loop a).wants = true) (before : StartsBefore s a b) : ((handOut s).loop a).due = false := by
  obtain ⟨pairs, loops⟩ := other_of_converter a b hab hc
  have unmirrored : ∀ q, (s.loop (lowerLoop q)).mode ≠ .mirrored := fun q hm => by
    rcases pairs q with rfl | rfl <;> rw [h.agree.mode_lower] at hm <;> simp_all only [reduceCtorEq]
  refine handOut_loop (c := converterOf a) ?_
  rw [arbiterPick_of_winner hf fun p hp => unmirrored p (h.holders _ p (by rw [hp]; rfl))]
  refine winner_eq_of_before ⟨ha, wa, rfl⟩ fun v hv => ?_
  cases v with
  | loop k =>
    rcases loops k hv.2.2 with rfl | rfl
    · exact .inl rfl
    · exact .inr before
  | pair q => exact absurd hv.1 (unmirrored q)

variable {p : Fin 2} {b : Fin 4} (hp : (s.loop (lowerLoop p)).mode = .mirrored) (hb : (s.loop b).mode = .independent)
include hp hb

theorem pair_ne_of_modes : p ≠ pairOf b := fun e => by
  rw [e, h.agree.mode_lower, hb] at hp
  cases hp

theorem eq_of_mirrored {q : Fin 2} (hq : (s.loop (lowerLoop q)).mode = .mirrored) : q = p := by
  refine ((mixed_converter p b (pair_ne_of_modes h hp hb)).1 q).resolve_right fun e => ?_
  rw [e, h.agree.mode_lower, hb] at hq
  cases hq

/-- A mirrored pair and a loop of the other pair have the loop's converter between them. -/
theorem eligible_of_mixed {v : ScanUnit} (hv : Eligible s (converterOf b) v) : v = .pair p ∨ v = .loop b := by
  cases v with
  | pair q => exact .inl (congrArg _ (eq_of_mirrored h hp hb hv.1))
  | loop k =>
    refine .inr (congrArg _ (((mixed_converter p b (pair_ne_of_modes h hp hb)).2 k hv.2.2).resolve_right fun e => ?_))
    have := hv.1
    rw [← h.agree.mode_lower, e, hp] at this
    cases this

variable (hf : s.converter (converterOf b) = .free) (hk : s.converter (converterOf b).other ≠ .kept p)
include hf hk

theorem pick_of_mixed : arbiterPick s (converterOf b) = winner s (contenders s (converterOf b)) :=
  arbiterPick_of_winner hf fun q hq => hk (by rw [hq, eq_of_mirrored h hp hb (h.holders _ q (by rw [hq]; rfl))])

/-- A pair that stands before a loop wins the loop's converter. -/
theorem handOut_pairOverLoop (wp : (s.loop (lowerLoop p)).wants = true) (wb : (s.loop b).wants = true)
    (before : StartsBefore s (lowerLoop p) b) : PairFirst p b (handOut s) := by
  refine handOut_pairFirst (wants_due wb) ?_
  rw [pick_of_mixed h hp hb hf hk]
  refine winner_eq_of_before ⟨hp, wp⟩ fun v hv => (eligible_of_mixed h hp hb hv).imp_right ?_
  rintro rfl
  exact before

/-- A loop that stands before a pair starts. -/
theorem handOut_loopOverPair (wb : (s.loop b).wants = true) (before : StartsBefore s b (lowerLoop p)) :
    ((handOut s).loop b).due = false := by
  refine handOut_loop (c := converterOf b) ?_
  rw [pick_of_mixed h hp hb hf hk]
  refine winner_eq_of_before ⟨hb, wb, rfl⟩ fun v hv => (eligible_of_mixed h hp hb hv).symm.imp_right ?_
  rintro rfl
  exact before

end

/-- Of two pairs the one that stands before starts. -/
theorem handOut_pairOverPair {s : State} (h : LoopsServed s) {p q : Fin 2} (hpq : p ≠ q)
    (hp : (s.loop (lowerLoop p)).mode = .mirrored) (hq : (s.loop (lowerLoop q)).mode = .mirrored)
    (hf : ∀ c, s.converter c = .free) (wp : (s.loop (lowerLoop p)).wants = true)
    (before : StartsBefore s (lowerLoop p) (lowerLoop q)) : ((handOut s).loop (lowerLoop p)).due = false := by
  have either : ∀ r : Fin 2, r = p ∨ r = q := (by decide : ∀ p q : Fin 2, p ≠ q → ∀ r, r = p ∨ r = q) p q hpq
  have pick : ∀ c, arbiterPick s c = some (.pair p) := fun c => by
    rw [arbiterPick_of_winner (hf c) fun r hr => by rw [hf] at hr; cases hr]
    refine winner_eq_of_before ⟨hp, wp⟩ fun v hv => ?_
    cases v with
    | loop k =>
      have := hv.1
      rw [← h.agree.mode_lower] at this
      rcases either (pairOf k) with e | e <;> rw [e] at this <;> simp_all
    | pair r =>
      rcases either r with rfl | rfl
      · exact .inl rfl
      · exact .inr before
  exact handOut_both (pick .a) (pick .b)

/-! ### What the arbiters have done -/

theorem startsBefore_congr {s t : State} {a b : Fin 4} (ha : (t.loop a).lastStart = (s.loop a).lastStart)
    (hb : (t.loop b).lastStart = (s.loop b).lastStart) : StartsBefore t a b ↔ StartsBefore s a b := by
  rw [StartsBefore, StartsBefore, ha, hb]

theorem contenders_congr {s t : State} (h : ∀ l, t.loop l = s.loop l) (c : Converter) : contenders t c = contenders s c := by
  simp only [contenders, h]

/-- The arbiters begin to hand out from `m`, in an event from `s` that has ended the scans of the loops `ended`, freed the
converters that `free` tells, and made the contenders due. -/
structure Made (s : State) (ended : List (Fin 4)) (free : Converter → Bool) (m : State) : Prop where
  served : LoopsServed m
  mode : ∀ l, (m.loop l).mode = (s.loop l).mode
  lastStart : ∀ l, (m.loop l).lastStart = (s.loop l).lastStart
  seconds : m.seconds = s.seconds
  wants : ∀ l, Contends s ended l → (m.loop l).wants = true
  free : ∀ c, free c = true → m.converter c = .free
  unkept : ∀ c p, s.converter c ≠ .kept p → m.converter c ≠ .kept p
  kept : ∀ c p, lowerLoop p ∉ ended → s.converter c = .kept p → m.converter c = .kept p

/-- What the arbiters have done, once nothing is left to hand out. -/
theorem Made.handedOut {s m t : State} {ended : List (Fin 4)} {free : Converter → Bool} (h : Made s ended free m)
    (rest : Gives (handOut m) t) (hn : NothingPicked t) : HandedOut s t ended free := by
  have hm := h.served
  have mode : ∀ {l x}, (s.loop l).mode = x → (m.loop l).mode = x := (h.mode _).trans
  have before : ∀ {a b}, StartsBefore s a b → StartsBefore m a b := fun {a b} =>
    (startsBefore_congr (h.lastStart a) (h.lastStart b)).mpr
  have gone : ∀ {l}, ((handOut m).loop l).due = false → (t.loop l).due = false := (rest.handed _).due
  refine ⟨fun c hc => hn.contenders hc, fun a b ha hb hab hc hf ca _ hab' _ => gone ?_,
    fun p b hp hb hf hk cp cb => ⟨fun hpb => ?_, fun hbp _ => gone ?_⟩, fun p q hpq hp hq ha hb cp _ hpq' _ => gone ?_,
    fun p c he hf hk => ?_⟩
  · exact handOut_loopOverLoop hm (mode ha) (mode hb) hab hc (h.free _ hf) (h.wants _ ca) (before hab')
  · have hpf : PairFirst p b t := rest.pairFirst (handOut_pairOverLoop hm (mode hp) (mode hb) (h.free _ hf)
      (h.unkept _ _ hk) (h.wants _ cp) (h.wants _ cb) (before hpb))
    rcases hpf with e | ⟨hk', hd⟩
    · exact ⟨.inl e, fun _ => e⟩
    · exact ⟨.inr hk', fun e => by rw [hd] at e; cases e⟩
  · exact handOut_loopOverPair hm (mode hp) (mode hb) (h.free _ hf) (h.unkept _ _ hk) (h.wants _ cb) (before hbp)
  · exact handOut_pairOverPair hm hpq (mode hp) (mode hq) (fun c => by cases c; exacts [h.free _ ha, h.free _ hb])
      (h.wants _ cp) (before hpq')
  · obtain ⟨-, hs⟩ := handOut_kept (h.free _ hf) (h.kept _ _ he hk)
    rcases (rest.handed (lowerLoop p)).record with e | e
    · rw [e, hs, h.seconds]
    · rw [e.2, (handOut_gives_star m).works.log.1, h.seconds]

/-- What the arbiters have done is told by the loops and the converters. -/
theorem HandedOut.congr {s t u : State} {ended : List (Fin 4)} {free : Converter → Bool} (h : HandedOut s t ended free)
    (hl : ∀ l, u.loop l = t.loop l) (hc : ∀ c, u.converter c = t.converter c) : HandedOut s u ended free := by
  simp only [HandedOut, hl, hc, contenders_congr hl]
  exact h

theorem arbitrate_eq (s : State) : arbitrate s = handOuts 7 (handOut (makeDue s)) := rfl

theorem handOut_arbitrate (s : State) : Gives (handOut (makeDue s)) (arbitrate s) := by
  rw [arbitrate_eq]
  exact handOuts_gives 7 _

/-- The contenders of a state are due before the hand-outs of its arbiters. -/
theorem makeDue_made {s : State} (h : LoopsServed s) :
    Made s [] (fun c => decide (s.converter c = .free)) (makeDue s) where
  served := h.makeDue
  mode l := mode_of_undue (makeDue_undue s l)
  lastStart l := lastStart_of_undue (makeDue_undue s l)
  seconds := makeDue_seconds s
  wants _ hc := hc.wants
  free c hf := (makeDue_converter s c).trans (of_decide_eq_true hf)
  unkept c _ hk := by rwa [makeDue_converter]
  kept c _ _ hk := by rw [makeDue_converter, hk]

end Sys2Proof.Machine
end

section
/-! SUPPORT. The start of a scan in the arbiters' work (R24): the waiting requests of its detectors are applied, and
what other units do in the same event leaves it alone. -/

set_option autoImplicit false

namespace Sys2Proof.Machine

/-! ### Slots and their addresses (R20) -/

/-- The address that a slot holds. -/
def ScanSlot.number : ScanSlot → Option Nat
  | .endMark => none
  | .address a _ => some a

theorem slotOf_eq (s : State) (l : Fin 4) (addr : Nat) : slotOf s l addr
    = if isMirroredUpper s l = true then none
      else (List.finRange 48).find? fun k => decide ((s.slot l k).number = some addr) := by
  rw [slotOf]
  refine congrArg (ite _ none) (congrArg (fun p => (List.finRange 48).find? p) (funext fun k => ?_))
  cases s.slot l k <;> simp [ScanSlot.number]

theorem number_of_slotOf {s : State} {l : Fin 4} {addr : Nat} {k : Fin 48} (h : slotOf s l addr = some k) :
    (s.slot l k).number = some addr := by
  rw [slotOf_eq] at h
  split at h
  · cases h
  · simpa using List.find?_some h

theorem isMirroredUpper_congr {s t : State} {l : Fin 4} (h : (t.loop l).mode = (s.loop l).mode) :
    isMirroredUpper t l = isMirroredUpper s l := by rw [isMirroredUpper, h, isMirroredUpper]

theorem slotOf_congr {s t : State} {l : Fin 4} (hm : (t.loop l).mode = (s.loop l).mode)
    (hn : ∀ k, (t.slot l k).number = (s.slot l k).number) (addr : Nat) : slotOf t l addr = slotOf s l addr := by
  simp only [slotOf_eq, isMirroredUpper_congr hm, hn]

theorem markedEnabled_congr {s t : State} {d : Detector} (hs : slotOf t d.loop d.address = slotOf s d.loop d.address)
    (hk : ∀ k, slotOf s d.loop d.address = some k → t.slot d.loop k = s.slot d.loop k) :
    markedEnabled t d = markedEnabled s d := by
  rw [markedEnabled, markedEnabled, hs]
  cases h : slotOf s d.loop d.address with
  | none => rfl
  | some k =>
    simp only [hk k h]

/-! ### One request among others (R36) -/

/-- The detectors stand where they stood, and the slots hold the addresses they held. -/
structure Kin (s t : State) : Prop where
  site : ∀ n d, t.detector n = some d → ∃ e, s.detector n = some e ∧ e.loop = d.loop ∧ e.address = d.address
  number : ∀ l k, (t.slot l k).number = (s.slot l k).number
  mode : ∀ l, (t.loop l).mode = (s.loop l).mode

theorem Kin.refl (s : State) : Kin s s := ⟨fun _ d h => ⟨d, h, rfl, rfl⟩, fun _ _ => rfl, fun _ => rfl⟩

theorem Kin.trans {s t u : State} (h : Kin s t) (k : Kin t u) : Kin s u :=
  ⟨fun n d hd => by
    obtain ⟨e, he, h1, h2⟩ := k.site n d hd
    obtain ⟨f, hf, h3, h4⟩ := h.site n e he
    exact ⟨f, hf, h3.trans h1, h4.trans h2⟩,
    fun l k' => (k.number l k').trans (h.number l k'), fun l => (k.mode l).trans (h.mode l)⟩

theorem answered_site (d : Detector) (r : Option WaitingRequest) :
    (d.answered r).loop = d.loop ∧ (d.answered r).address = d.address := by
  rcases r with _ | _ | _ <;> exact ⟨rfl, rfl⟩

theorem applyRequest_kin (s : State) (n : Fin 192) : Kin s (applyRequest s n) := by
  cases hd : s.detector n with
  | none =>
    rw [applyRequest_of_none hd]
    exact Kin.refl s
  | some d =>
    refine ⟨fun m e he => ?_, fun l k => ?_, fun l => by rw [(applyRequest_aside s n).loop_eq]⟩
    · rw [applyRequest_detector hd] at he
      split at he
      next hm =>
        cases he
        obtain ⟨h1, h2⟩ := answered_site d (effectiveRequest s d)
        exact ⟨d, hm ▸ hd, h1.symm, h2.symm⟩
      next => exact ⟨e, he, rfl, rfl⟩
    · by_cases hk : l = d.loop ∧ slotOf s d.loop d.address = some k
      · cases hr : effectiveRequest s d with
        | none => rw [OnlyIn.slot_eq (applyRequest_idle hd hr).1 (by decide)]
        | some r =>
          rw [(applyRequest_effective hd hr).2.1, if_pos hk, hk.1, number_of_slotOf hk.2]
          rfl
      · rw [applyRequest_slot hd fun hl hs => hk ⟨hl, hs⟩]

/-- What tells what a detector's request does is the same in two states of an event. -/
structure SameRequest (d : Detector) (s t : State) : Prop where
  slotOf : slotOf t d.loop d.address = slotOf s d.loop d.address
  marked : markedEnabled t d = markedEnabled s d
  wingOf : t.wingOf d.zone = s.wingOf d.zone
  log : LogGrows s t

/-- A detector's record, and the slot of its address in `s`, are left alone. -/
structure Spared (n : Fin 192) (d : Detector) (s x y : State) : Prop where
  detector : ∀ e, e.loop = d.loop → x.detector n = some e → y.detector n = some e
  slot : ∀ k, slotOf s d.loop d.address = some k → y.slot d.loop k = x.slot d.loop k
  log : LogGrows x y

theorem Spared.refl (n : Fin 192) (d : Detector) (s x : State) : Spared n d s x x :=
  ⟨fun _ _ h => h, fun _ _ => rfl, LogGrows.refl x⟩

theorem Spared.trans {n : Fin 192} {d : Detector} {s x y z : State} (h : Spared n d s x y) (k : Spared n d s y z) :
    Spared n d s x z :=
  ⟨fun e hl he => k.detector e hl (h.detector e hl he), fun j hj => (k.slot j hj).trans (h.slot j hj),
    h.log.trans k.log⟩

/-- A request that has been applied in the course of an event. -/
theorem RequestApplied.within {n : Fin 192} {d : Detector} {s y x t : State} (h : RequestApplied n d y x)
    (hs : SameRequest d s y) (hx : LogGrows y x) (ht : Spared n d s x t) : RequestApplied n d s t := by
  obtain ⟨h1, h2, h3⟩ := h
  rw [hs.slotOf, hs.marked, hs.wingOf] at h1
  rw [hs.slotOf, hs.marked, hs.wingOf] at h2
  rw [hs.marked] at h3
  have logged : ∀ {i}, LoggedAmong y x i → LoggedAmong s t i := fun hi =>
    LoggedAmong.grow (.late hs.log hi) (hs.log.trans hx).1 ht.log
  refine ⟨fun hw hm => ?_, fun hw hm => ?_, fun hw => ht.detector _ rfl (h3 hw)⟩
  · obtain ⟨hd, hk, hl⟩ := h1 hw hm
    exact ⟨ht.detector _ rfl hd, fun k e => (ht.slot k e).trans (hk k e), logged hl⟩
  · obtain ⟨hd, hk, hl⟩ := h2 hw hm
    exact ⟨ht.detector _ rfl hd, fun k e => (ht.slot k e).trans (hk k e), logged hl⟩

/-- The request of a detector is applied (R36). -/
theorem applyRequest_applied {s : State} {n : Fin 192} {d : Detector} (h : s.detector n = some d) :
    RequestApplied n d s (applyRequest s n) := by
  have effective : ∀ r, effectiveRequest s d = some r →
      (applyRequest s n).detector n = some (d.answered (some r))
        ∧ (∀ k, slotOf s d.loop d.address = some k → (applyRequest s n).slot d.loop k = .address d.address r.mark)
        ∧ LoggedAmong s (applyRequest s n)
          { kind := r.entry, subject := .detector n, wing := some (s.wingOf d.zone), detail := .none } := fun r hr => by
    obtain ⟨h1, h2, h3⟩ := applyRequest_effective h hr
    exact ⟨by rw [h1, if_pos rfl], fun k hk => by rw [h2, if_pos ⟨rfl, hk⟩], h3⟩
  refine ⟨fun hw hm => effective .disable ?_, fun hw hm => effective .enable ?_, fun hw => ?_⟩
  · simp [effectiveRequest, hw, hm]
  · simp [effectiveRequest, hw, hm]
  · have hr : effectiveRequest s d = none := by
      rcases hw with hw | ⟨hw, hm⟩ | ⟨hw, hm⟩ <;> simp [effectiveRequest, *]
    rw [applyRequest_detector h, if_pos rfl, hr]
    rfl

/-- The detector `n` shares its loop and address with no other. -/
def Alone (s : State) (n : Fin 192) (d : Detector) : Prop :=
  ∀ (m : Fin 192) e, s.detector m = some e → m ≠ n → e.loop = d.loop → e.address ≠ d.address

/-- The request of another detector spares one that shares its loop and address with no other. -/
theorem applyRequest_spared {s x : State} {n m : Fin 192} {d : Detector} (hk : Kin s x) (ha : Alone s n d) (hm : m ≠ n) :
    Spared n d s x (applyRequest x m) := by
  refine ⟨fun e _ he => by rw [applyRequest_detector_ne x hm.symm, he], fun k hs => ?_, (applyRequest_works x m).log⟩
  cases he : x.detector m with
  | none => rw [applyRequest_of_none he]
  | some e =>
    refine applyRequest_slot he fun hl hs' => ?_
    obtain ⟨e0, he0, h1, h2⟩ := hk.site m e he
    refine ha m e0 he0 hm (h1.trans hl.symm) ?_
    have := number_of_slotOf hs'
    rw [← hl, hk.number, number_of_slotOf hs] at this
    rw [h2]
    exact (Option.some.inj this).symm

theorem applyRequests_spared {s : State} {n : Fin 192} {d : Detector} (ha : Alone s n d) {ms : List (Fin 192)}
    (hn : n ∉ ms) {x : State} (hk : Kin s x) :
    Spared n d s x (ms.foldl applyRequest x) ∧ Kin s (ms.foldl applyRequest x) := by
  induction ms generalizing x with
  | nil => exact ⟨Spared.refl n d s x, hk⟩
  | cons m ms ih =>
    rw [List.mem_cons, not_or] at hn
    obtain ⟨h1, h2⟩ := ih hn.2 (hk.trans (applyRequest_kin x m))
    exact ⟨(applyRequest_spared hk ha (Ne.symm hn.1)).trans h1, h2⟩

/-- The requests of a unit's detectors are applied (R24, R36). -/
theorem applyRequests_applied {s : State} {u : ScanUnit} {n : Fin 192} {d : Detector} (h : s.detector n = some d)
    (hl : d.loop ∈ u.loops) (ha : Alone s n d) : RequestApplied n d s (applyRequests s u) := by
  have hn : n ∈ detectorsOfUnit s u := by
    rw [detectorsOfUnit, Tbl.mem_indices, ← State.detector, h]
    simpa using hl
  have hd : (detectorsOfUnit s u).Nodup := indices_nodup ..
  obtain ⟨before, after, e⟩ := List.append_of_mem hn
  rw [e, List.nodup_append] at hd
  obtain ⟨-, hafter, hbefore⟩ := hd
  rw [applyRequests, e, List.foldl_append, List.foldl_cons]
  obtain ⟨h1, k1⟩ := applyRequests_spared ha (fun hm => hbefore n hm n (by simp) rfl) (Kin.refl s)
  have hx := h1.detector d rfl h
  obtain ⟨h2, -⟩ := applyRequests_spared ha (List.nodup_cons.mp hafter).1 (k1.trans (applyRequest_kin _ n))
  have same := slotOf_congr (k1.mode d.loop) (k1.number d.loop) d.address
  have works : Works requestward s (before.foldl applyRequest s) := Works.foldl applyRequest_works _ s
  exact (applyRequest_applied hx).within
    ⟨same, markedEnabled_congr same h1.slot, works.inputs.wingOf_eq _, h1.log⟩ (applyRequest_works _ n).log h2

/-! ### A unit through the hand-outs to others -/

/-- The slots of a unit's lists, and the detectors on its loops, are as they were. -/
structure TablesKept (u : ScanUnit) (s t : State) : Prop where
  slot : ∀ l ∈ u.loops, ∀ k, t.slot l k = s.slot l k
  detector : ∀ n d, d.loop ∈ u.loops → (t.detector n = some d ↔ s.detector n = some d)

theorem TablesKept.of_onlyIn {ps : List Piece} {s t : State} (h : OnlyIn ps s t)
    (hp : ∀ p ∈ [Piece.scanLists, .detectors], p ∉ ps) (u : ScanUnit) : TablesKept u s t :=
  ⟨fun l _ k => OnlyIn.slot_eq h (hp _ (by decide)) l k, fun n d _ => by
    rw [OnlyIn.detector_eq h (hp _ (by decide))]⟩

theorem TablesKept.trans {u : ScanUnit} {s t x : State} (h : TablesKept u s t) (k : TablesKept u t x) :
    TablesKept u s x :=
  ⟨fun l hl j => (k.slot l hl j).trans (h.slot l hl j), fun n d hd => (k.detector n d hd).trans (h.detector n d hd)⟩

/-- The requests of another unit's detectors leave a unit's slots and detectors. -/
theorem applyRequests_tablesKept {s : State} {u v : ScanUnit} (hv : ∀ l ∈ u.loops, l ∉ v.loops) :
    TablesKept u s (applyRequests s v) := by
  have step : ∀ (x : State) n d, x.detector n = some d → d.loop ∈ v.loops → TablesKept u x (applyRequest x n) :=
    fun x n d hn hd => by
    refine ⟨fun l hl k => applyRequest_slot hn fun e => absurd hd (hv _ (e ▸ hl)), fun m e he => ?_⟩
    rw [applyRequest_detector hn]
    split
    next hm =>
      subst hm
      refine iff_of_false (fun x => ?_) fun x => ?_
      · cases x
        rw [(answered_site d _).1] at he
        exact hv _ he hd
      · rw [hn] at x
        cases x
        exact hv _ he hd
    next => rfl
  have fold : ∀ (ns : List (Fin 192)) (x : State), (∀ n ∈ ns, ∀ d, x.detector n = some d → d.loop ∈ v.loops) →
      TablesKept u x (ns.foldl applyRequest x) := fun ns => by
    induction ns with
    | nil => exact fun x _ => .of_onlyIn (OnlyIn.refl [] x) (by decide) u
    | cons n ns ih =>
      intro x hx
      have rest : TablesKept u (applyRequest x n) (ns.foldl applyRequest (applyRequest x n)) := ih _ fun m hm d hd => by
        obtain ⟨e, he, hl, -⟩ := (applyRequest_kin x n).site m d hd
        rw [← hl]
        exact hx m (List.mem_cons_of_mem _ hm) e he
      cases hn : x.detector n with
      | none =>
        rw [List.foldl_cons, applyRequest_of_none hn]
        rwa [applyRequest_of_none hn] at rest
      | some d => exact (step x n d hn (hx n (by simp) d hn)).trans rest
  refine fold _ s fun n hn d hd => ?_
  rw [detectorsOfUnit, Tbl.mem_indices, ← State.detector, hd] at hn
  simpa using hn

theorem Started.tablesKept {s t : State} {u v : ScanUnit} (h : Started s v t) (hv : ∀ l ∈ u.loops, l ∉ v.loops) :
    TablesKept u s t := by
  obtain ⟨s1, ho, rfl⟩ := h.start
  exact ((TablesKept.of_onlyIn (OnlyIn.trans (OnlyIn.mono ho (by decide)) (OnlyIn.mono (markStart_onlyIn s1 v) (by decide)) :
    OnlyIn [.loops, .converters] s (markStart s1 v)) (by decide) u).trans (applyRequests_tablesKept hv)).trans
      (.of_onlyIn (startScan_begun s1 v) (by decide) u)

/-- What tells what the requests of a unit's detectors do. -/
theorem TablesKept.sameRequest {u : ScanUnit} {s t : State} (h : TablesKept u s t) {d : Detector} (hd : d.loop ∈ u.loops)
    (hm : (t.loop d.loop).mode = (s.loop d.loop).mode) (hw : t.wingOf d.zone = s.wingOf d.zone) (hg : LogGrows s t) :
    SameRequest d s t :=
  have hs := slotOf_congr hm (fun k => congrArg _ (h.slot _ hd k)) d.address
  ⟨hs, markedEnabled_congr hs fun k _ => h.slot _ hd k, hw, hg⟩

theorem TablesKept.spared {u : ScanUnit} {s t : State} (h : TablesKept u s t) {d : Detector} (hd : d.loop ∈ u.loops)
    (hg : LogGrows s t) (n : Fin 192) (x : State) : Spared n d x s t :=
  ⟨fun e he hn => (h.detector n e (he ▸ hd)).mpr hn, fun k _ => h.slot _ hd k, hg⟩

/-! ### The start of a scan (R24) -/

/-- A unit's list decides its first enabled slot. -/
theorem TablesKept.scanList {u : ScanUnit} {s t : State} (h : TablesKept u s t) :
    t.scanLists.get u.head = s.scanLists.get u.head := Tbl.ext_get fun k => h.slot _ (head_mem_loops u) k

/-- What stands before the start of a unit's scan in an event from `s`. -/
structure BeforeStart (u : ScanUnit) (s m : State) : Prop where
  tables : TablesKept u s m
  mode : ∀ l, (m.loop l).mode = (s.loop l).mode
  interval : (m.loop u.head).scanInterval = (s.loop u.head).scanInterval
  wingOf : ∀ z, m.wingOf z = s.wingOf z
  log : LogGrows s m

/-- A scan that has started in the course of an event. -/
theorem ScanStarted.within {u : ScanUnit} {s m x t : State} (h : ScanStarted u m x) (hs : BeforeStart u s m)
    (hx : LogGrows m x) (hl : ∀ l ∈ u.loops, t.loop l = x.loop l) (ht : TablesKept u x t) (hg : LogGrows x t) :
    ScanStarted u s t := by
  obtain ⟨h1, h2, h3⟩ := h
  refine ⟨fun l hu => ?_, ?_, fun n d hd hu ha => ?_⟩
  · rw [hl l hu, ht.scanList, ← hs.log.1]
    exact h1 l hu
  · rw [hl _ (head_mem_loops u), h2, hs.interval]
  · refine (h3 n d ((hs.tables.detector n d hu).mpr hd) hu fun k e he hk hle => ?_).within
      (hs.tables.sameRequest hu (hs.mode _) (hs.wingOf _) hs.log) hx (ht.spared hu hg n s)
    exact ha k e ((hs.tables.detector k e (hle ▸ hu)).mp he) hk hle

theorem startScan_started {s : State} {u : ScanUnit} (hn : ∀ l ∈ u.loops, (s.loop l).scan = none) :
    ScanStarted u s (startScan s u) := by
  have hm := markStart_onlyIn s u
  have hb := startScan_begun s u
  have hlist : (startScan s u).scanLists = (beginScan s u).scanLists := hb .scanLists (by decide)
  refine ⟨fun l hl => ?_, ?_, fun n d hd hl ha => ?_⟩
  · rw [startScan_loop, if_pos hl, hlist]
    refine ⟨rfl, rfl, ?_⟩
    simp only [hn l hl]
    cases enabledSlot ((beginScan s u).scanLists.get u.head) 0 <;> rfl
  · rw [startScan_loop, if_pos (head_mem_loops u), if_pos rfl]
  · have hd' : (markStart s u).detector n = some d := by rw [OnlyIn.detector_eq hm (by decide), hd]
    refine (applyRequests_applied hd' hl fun k e he => ha k e (by rwa [OnlyIn.detector_eq hm (by decide)] at he)).within
      ((TablesKept.of_onlyIn hm (by decide) u).sameRequest hl (markStart_mode s u _) ?_ (.of_onlyIn hm (by decide)))
      (applyRequests_works ..).log ((TablesKept.of_onlyIn hb (by decide) u).spared hl (.of_onlyIn hb (by decide)) n s)
    exact (Works.of_onlyIn hm (by decide)).inputs.wingOf_eq _

/-! ### A contender through the hand-outs -/

/-- A unit that waits for a converter: its loops, its slots and its detectors are as they were in `m`. -/
structure Waiting (u : ScanUnit) (m x : State) : Prop where
  loop : ∀ l ∈ u.loops, x.loop l = m.loop l
  tables : TablesKept u m x

/-- A unit whose scan has started since `m`. -/
structure Begun (u : ScanUnit) (m x : State) : Prop where
  started : ScanStarted u m x
  due : (x.loop u.head).due = false
  unkept : ∀ c p, u = .pair p → x.converter c ≠ .kept p

theorem Waiting.trans {u : ScanUnit} {m x y : State} (h : Waiting u m x) (k : Waiting u x y) : Waiting u m y :=
  ⟨fun l hl => (k.loop l hl).trans (h.loop l hl), h.tables.trans k.tables⟩

theorem Waiting.of_onlyIn {ps : List Piece} {s t : State} (h : OnlyIn ps s t)
    (hp : ∀ p ∈ [Piece.loops, .scanLists, .detectors], p ∉ ps) (u : ScanUnit) : Waiting u s t :=
  ⟨fun l _ => OnlyIn.loop_eq h (hp _ (by decide)) l, .of_onlyIn h (fun p hq => hp p (by revert p; decide)) u⟩

theorem Started.waiting {s t : State} {u v : ScanUnit} (h : Started s v t) (hv : ∀ l ∈ u.loops, l ∉ v.loops) :
    Waiting u s t := ⟨fun l hl => h.loop (hv l hl), h.tablesKept hv⟩

/-- Two units that stand share no loop. -/
theorem PairsAgree.disjoint {s : State} (h : PairsAgree s) {u v : ScanUnit} (hu : u.stands s) (hv : v.stands s)
    (hne : v ≠ u) : ∀ l ∈ u.loops, l ∉ v.loops := fun _ hl hl' =>
  hne ((h.mode_of_mem hv hl').symm.trans (h.mode_of_mem hu hl))

/-- A unit that may be given a converter has its due flag. -/
theorem Eligible.due {s : State} {c : Converter} {u : ScanUnit} (h : Eligible s c u) : (s.loop u.head).due = true := by
  cases u with
  | loop l => exact wants_due h.2.1
  | pair p => exact wants_due h.2

theorem Begun.not_started {u : ScanUnit} {m x y : State} (h : Begun u m x) : ¬ Started x u y := fun hs => by
  rcases hs.reason with ⟨c, he⟩ | ⟨c, p, hp, hk⟩
  · have := h.due
    rw [he.due] at this
    cases this
  · exact h.unkept c p hp hk

theorem stands_of_handed {u : ScanUnit} {s t : State} (h : ∀ l, (t.loop l).mode = (s.loop l).mode) :
    u.stands t ↔ u.stands s := by
  cases u <;> simp only [ScanUnit.stands, h]

/-- A hand-out leaves a waiting unit waiting, or starts its scan; a scan that has started is left alone. -/
theorem Give.waiting_or_begun {u : ScanUnit} {m x y : State} (hx : LoopsServed x) (hu : u.stands x) (hm : Works scanward m x)
    (mode : ∀ l, (x.loop l).mode = (m.loop l).mode) (scan : ∀ l ∈ u.loops, (m.loop l).scan = none)
    (h : Waiting u m x ∨ Begun u m x) (g : Give x y) : Waiting u m y ∨ Begun u m y := by
  have moved : Begun u m x → Waiting u x y → (∀ c p, u = .pair p → y.converter c ≠ .kept p) → Begun u m y :=
    fun hb hw hk =>
    ⟨hb.started.within ⟨.of_onlyIn (OnlyIn.refl [] m) (by decide) u, fun _ => rfl, rfl, fun _ => rfl, LogGrows.refl m⟩
      hm.log hw.loop hw.tables g.works.log, by rw [hw.loop _ (head_mem_loops u)]; exact hb.due, hk⟩
  rcases g.shape hx.holders with ⟨v, hv⟩ | ⟨c, p, hf, he, -, rfl⟩
  · by_cases e : v = u
    · subst e
      rcases h with h | h
      · obtain ⟨s1, ho, rfl⟩ := hv.start
        have ho' : OnlyIn [.converters] x s1 := ho
        have hs1 : Works scanward x s1 := (Works.of_onlyIn ho' (by decide)).mono (by decide)
        have before : BeforeStart v m s1 := by
          refine ⟨h.tables.trans (.of_onlyIn ho' (by decide) v), fun l => ?_, ?_, (hm.trans hs1).inputs.wingOf_eq,
            (hm.trans hs1).log⟩
          · rw [OnlyIn.loop_eq ho' (by decide), mode]
          · rw [OnlyIn.loop_eq ho' (by decide), h.loop _ (head_mem_loops v)]
        have started := startScan_started (s := s1) (u := v) fun l hl => by
          rw [OnlyIn.loop_eq ho' (by decide), h.loop l hl, scan l hl]
        exact .inr ⟨started.within before (startScan_works s1 v).log (fun _ _ => rfl)
          (.of_onlyIn (OnlyIn.refl [] _) (by decide) v) (LogGrows.refl _),
          startScan_not_due s1 (head_mem_loops v), hv.unkept⟩
      · exact absurd hv h.not_started
    · have hw := hv.waiting (hx.agree.disjoint hu hv.stands e)
      refine h.imp (·.trans hw) fun hb => moved hb hw fun c p hp hk => ?_
      rcases hv.given c with e' | ⟨-, e' | e'⟩
      · exact hb.unkept c p hp (e' ▸ hk)
      · rw [e'] at hk
        cases hk
      · rw [e'] at hk
        cases v <;> cases hk
  · have hw : Waiting u x (x.putConverter c (.kept p)) := .of_onlyIn (putConverter_onlyIn x c _) (by decide) u
    refine h.imp (·.trans hw) fun hb => moved hb hw fun d q hq hk => ?_
    rw [converter_putConverter] at hk
    split at hk
    · cases hk
      subst hq
      have := hb.due
      rw [he.due] at this
      cases this
    · exact hb.unkept d q hq hk

theorem Gives.waiting_or_begun {u : ScanUnit} {m x : State} (hm : LoopsServed m) (hu : u.stands m)
    (scan : ∀ l ∈ u.loops, (m.loop l).scan = none) (g : Gives m x) : Waiting u m x ∨ Begun u m x := by
  induction g with
  | refl => exact .inl (.of_onlyIn (OnlyIn.refl [] m) (by decide) u)
  | tail g k ih =>
    have mode := fun l => (Gives.handed g l).mode
    exact k.waiting_or_begun (hm.gives g) ((stands_of_handed mode).mpr hu) (Gives.works g) mode scan ih

/-- Every contender whose due flag the hand-outs from `m` have taken away has started its scan. -/
theorem startedScans_of_gives {s m x t : State} (hm : LoopsServed m) (undue : ∀ l, (m.loop l).undue = (s.loop l).undue)
    (works : Works scanward s m) (tables : ∀ u, TablesKept u s m) (wants : ∀ l, Contends s [] l → (m.loop l).wants = true)
    (g : Gives m x) {ps : List Piece} (ht : OnlyIn ps x t)
    (hp : ∀ p ∈ [Piece.loops, .scanLists, .detectors, .seconds, .log], p ∉ ps) : StartedScans s t [] := by
  intro l _ hc hd
  have same : ∀ k, t.loop k = x.loop k := OnlyIn.loop_eq ht (hp _ (by decide))
  have mode := fun k => mode_of_undue (undue k)
  have hu : unitOf m l = unitOf s l := by rw [unitOf, mode, unitOf]
  have scan : ∀ k ∈ (unitOf m l).loops, (m.loop k).scan = none := fun k hk => by
    have := hm.agree.common_of_mem hk
    simp only [Loop.common, Prod.mk.injEq] at this
    rw [this.2.2.1, scan_of_undue (undue l)]
    exact hc.2.1.resolve_right nofun
  rw [← hu]
  rcases Gives.waiting_or_begun hm (hm.agree.unitOf_stands l) scan g with hw | hb
  · rw [same, hw.loop l (mem_unitOf m l), wants_due (wants l hc)] at hd
    cases hd
  · exact hb.started.within ⟨tables _, mode, scanInterval_of_undue (undue _), works.inputs.wingOf_eq, works.log⟩
      (Gives.works g).log (fun k _ => same k) (.of_onlyIn ht (fun p hq => hp p (by revert p; decide)) _)
      (.of_onlyIn ht fun p hq => hp p (by revert p; decide))

/-- Every contender whose due flag the arbiters have taken away has started its scan (R24). -/
theorem arbitrate_startedScans {s t : State} (h : LoopsServed s) {ps : List Piece} (ht : OnlyIn ps (arbitrate s) t)
    (hp : ∀ p ∈ [Piece.loops, .scanLists, .detectors, .seconds, .log], p ∉ ps) : StartedScans s t [] :=
  startedScans_of_gives h.makeDue (makeDue_undue s) (makeDue_works s) (.of_onlyIn (makeDue_onlyIn s) (by decide))
    (fun _ hc => hc.wants) (arbitrate_gives s) ht hp

end Sys2Proof.Machine
end

section
/-! The timers of the loops (O50). -/

set_option autoImplicit false

namespace Sys2Proof.Machine

/-! ### The arbiters' work as an event -/

/-- The end of an event after work that no line of a precedence reads. -/
theorem endEvent_of_works {ps : List Piece} {s u : State} (h : Works ps s u) (hc : Piece.channels ∉ ps) :
    OnlyIn ([.engine] ++ outward) u (endEvent s u) ∧ PortsQuiet s (endEvent s u)
      ∧ ∀ w, ((endEvent s u).wing w).stage = (s.wing w).stage := by
  have ended := endEvent_onlyIn_of_inputsStand h.inputs (h.within.1 .channels hc)
  exact ⟨ended, h.within.2.trans (endEvent_portsQuiet s u), fun w => by
    rw [OnlyIn.wing_eq ended (by decide), h.inputs.stage_eq]⟩

/-- What an event that is the arbiters' work leaves. -/
structure ArbitersEvent (s t : State) : Prop where
  ended : OnlyIn ([.engine] ++ outward) (arbitrate s) t
  quiet : PortsQuiet s t
  handedOut : HandedOut s t [] fun c => decide (s.converter c = .free)
  startedScans : StartedScans s t []
  stage : ∀ w, (t.wing w).stage = (s.wing w).stage
  pieces : OnlyIn (scanning ++ outward) s t

theorem arbitersEvent {s : State} (h : LoopsServed s) : ArbitersEvent s (endEvent s (arbitrate s)) := by
  have hw := arbitrate_works s
  obtain ⟨he, hq, hst⟩ := endEvent_of_works hw (by decide)
  exact ⟨he, hq, ((makeDue_made h).handedOut (handOut_arbitrate s) (arbitrate_nothingPicked h)).congr
    (OnlyIn.loop_eq he (by decide)) (OnlyIn.converter_eq he (by decide)), arbitrate_startedScans h he (by decide), hst,
    OnlyIn.trans (OnlyIn.mono hw.within.1 (by decide)) (OnlyIn.mono he (by decide))⟩

/-- A loop that is due before the hand-outs is due after the event, or its scan has started. -/
theorem ArbitersEvent.due_or {s t : State} (h : ArbitersEvent s t) {l : Fin 4} (hd : ((makeDue s).loop l).due = true) :
    (t.loop l).due = true ∨ (t.loop l).lastStart = some s.seconds := by
  rw [OnlyIn.loop_eq h.ended (by decide), ← makeDue_seconds s]
  exact (Gives.handed (arbitrate_gives s) l).due_or hd

/-- Settles O50: the timers make their loops due before the arbiters hand out, and POWER OFF gives way to SETTLE. -/
theorem loopTimers : Obligations.LoopTimers := by
  intro s l hok he
  refine ⟨fun ht hs => ?_, fun hp => ?_, fun hp => ?_⟩
  · have hserved : LoopsServed s := hok.served (l := l) fun ⟨_, _, _, _, hq, _⟩ => by rw [ht] at hq; cases hq
    have ev := arbitersEvent hserved
    have hr : ((makeDue s).loop l).ripe := makeDue_ripe (.inr ⟨hs, .inr ht⟩)
    exact ⟨_, by simp [exec, execIntervalTimerExpiry, occursWhen, ht, hs], ev.due_or hr.1, ev.quiet, ev.handedOut,
      ev.startedScans, ev.stage, ev.pieces⟩
  · have ho : OnlyIn [.loops] s (powerUp s l) := modUnit_onlyIn _ _ _
    have ended : OnlyIn outward (powerUp s l) (endEvent s (powerUp s l)) :=
      endEvent_outward (SameInputs.of_onlyIn ho (by decide)).stand (ho .channels (by decide))
        (by rw [show (powerUp s l).engine = s.engine from ho .engine (by decide)]; exact he)
    refine ⟨_, by simp [exec, execPowerOffExpiry, occursWhen, hp], ?_, ?_, fun k hk => ?_,
      OnlyIn.trans (OnlyIn.mono ho (by decide)) (OnlyIn.mono ended (by decide))⟩
    all_goals rw [OnlyIn.loop_eq ended (by decide), powerUp, loop_modUnit]
    · rw [if_pos (mem_unitOf s l)]
    · rw [if_pos (mem_unitOf s l)]
    · rw [if_neg hk]
  · have hserved : LoopsServed s := hok.served (l := l) fun ⟨hq, _⟩ => by rw [hp] at hq; cases hq
    have ev := arbitersEvent hserved
    have hr : ((makeDue s).loop l).ripe := makeDue_ripe (.inl hp)
    refine ⟨_, by simp [exec, execSettleExpiry, occursWhen, hp], ?_, ev.due_or hr.1, ev.handedOut, ev.startedScans, ?_,
      ev.quiet, ev.pieces⟩
    · rw [OnlyIn.loop_eq ev.ended (by decide), (Gives.handed (arbitrate_gives s) l).state, makeDue_running hp]
    · exact ((makeDue_logged hserved hp).grow (makeDue_seconds s) (Gives.works (arbitrate_gives s)).log).grow
        (arbitrate_works s).log.1 (.of_onlyIn ev.ended (by decide))

end Sys2Proof.Machine
end

section
/-! SUPPORT. The pieces that the reading of a detector reaches, with the zone alarm and the stage change it may lead to
(R41 to R64). -/

set_option autoImplicit false

namespace Sys2Proof.Machine

theorem Within.ite {ps : List Piece} {c : Prop} [Decidable c] {s t u : State} (ht : Within ps s t)
    (hu : Within ps s u) : Within ps s (if c then t else u) := by
  split
  · exact ht
  · exact hu

/-- The pieces that a reading reaches: neither the Loop Scan Unit's nor the doors. -/
def readward : List Piece := [.exits] ++ stageward

/-- A change with its entry. -/
theorem Within.append {s t : State} (h : Within readward s t) (k : EntryKind) (x : Subject) (w : Option (Fin 4))
    (d : Detail) : Within readward s (append t k x w d) := h.trans ((append_within ..).mono (by decide))

/-! ### Zone alarms (R61 to R64, R76) -/

theorem stageTakes_within (s : State) (w : Fin 4) (o : AlarmOrigin) (several fresh : Bool) :
    Within readward s (stageTakes s w o several fresh) := by
  have evacuate : ∀ c, Within readward s (enterEvacuate s w c) := fun c => (enterEvacuate_within s w c).mono (by decide)
  simp only [stageTakes]
  split
  · exact Within.ite ((enterAckWait_within s w).mono (by decide)) (evacuate _)
  · exact evacuate _
  · exact evacuate _
  · exact Within.refl _ s

theorem resound_within (s : State) (w : Fin 4) (z : Fin 64) : Within readward s (resound s w z) :=
  Within.ite ((((Within.of_onlyIn (modWing_onlyIn s w _) (by decide)).mono (by decide)).append ..).trans
    ((sound_within _ w).mono (by decide))) (Within.refl _ s)

theorem zoneAlarm_within (s : State) (z : Fin 64) (o : AlarmOrigin) (several : Bool) :
    Within readward s (zoneAlarm s z o several) :=
  Within.ite (stageTakes_within ..)
    (((((writeFire_within ..).mono (by decide)).append ..).trans (resound_within ..)).trans (stageTakes_within ..))

theorem deriveFire_within (s : State) (z : Fin 64) : Within readward s (deriveFire s z) :=
  (deriveFire_works s z).within.mono (by decide)

/-! ### Records of detectors (R42 to R52) -/

theorem putDetector_within (s : State) (n : Fin 192) (x : Option Detector) : Within readward s (s.putDetector n x) :=
  (putDetector_works s n x).within.mono (by decide)

theorem writeDetector_within (s : State) (n : Fin 192) (old new : Detector) :
    Within readward s (writeDetector s n old new) := (writeDetector_works s n old new).within.mono (by decide)

theorem enterFault_within (s : State) (n : Fin 192) (old d : Detector) (k : FaultKind) :
    Within readward s (enterFault s n old d k) :=
  (Within.append (((abortVerify_works s n old .fault).within.mono (by decide)).trans (writeDetector_within ..)) ..).trans
    (deriveFire_within ..)

theorem takeMissed_within (s : State) (n : Fin 192) (d : Detector) : Within readward s (takeMissed s n d) := by
  simp only [takeMissed]
  split
  · exact putDetector_within ..
  all_goals exact Within.ite (putDetector_within ..) (enterFault_within ..)

theorem takeFaultCode_within (s : State) (n : Fin 192) (d : Detector) (k : FaultKind) :
    Within readward s (takeFaultCode s n d k) := by
  simp only [takeFaultCode]
  split
  · exact putDetector_within ..
  all_goals exact enterFault_within ..

theorem promote_within (s : State) (n : Fin 192) : Within readward s (promote s n) := by
  simp only [promote]
  split
  · exact (writeDetector_within ..).append ..
  · exact Within.refl _ s

theorem afterMove_within (s : State) (n : Fin 192) (z : Fin 64) (old new : DetectorState) :
    Within readward s (afterMove s n z old new) := by
  simp only [afterMove]
  split
  · exact (Within.foldl promote_within _ s).trans (deriveFire_within ..)
  · exact (Within.foldl promote_within _ s).trans (zoneAlarm_within ..)

theorem track_within (s : State) (n : Fin 192) (raw : Nat) : Within readward s (track s n raw) := by
  simp only [track]
  split
  · exact Within.ite ((putDetector_within ..).append ..) (putDetector_within ..)
  · exact Within.refl _ s

theorem evaluate_within (s : State) (n : Fin 192) (old d : Detector) (fresh : Bool) (raw : Nat) :
    Within readward s (evaluate s n old d fresh raw) := by
  have moved : ∀ {t : State} (e : Option (EntryKind × Detail)), Within readward s t →
      Within readward s (match e with | some (k, x) => appendDetector t k n d.zone x | none => t) := fun e ht => by
    cases e with
    | none => exact ht
    | some kx => exact ht.append ..
  unfold evaluate
  refine Within.ite ?_ (Within.ite (Within.trans ?_ (track_within ..)) ?_)
  · exact (Within.ite ((writeDetector_within ..).append ..) (writeDetector_within ..)).trans (afterMove_within ..)
  all_goals exact (moved _ (writeDetector_within ..)).trans (afterMove_within ..)

theorem takeValid_within (s : State) (n : Fin 192) (d : Detector) (raw : Nat) :
    Within readward s (takeValid s n d raw) := by
  simp only [takeValid]
  split
  · exact evaluate_within ..
  · exact Within.ite (putDetector_within ..) ((Within.append (Within.refl _ s) ..).trans (evaluate_within ..))
  case h_7 => exact Within.refl _ s
  all_goals exact evaluate_within ..

theorem takeReading_within (s : State) (n : Fin 192) (r : Reading) : Within readward s (takeReading s n r) := by
  simp only [takeReading]
  split
  · exact Within.refl _ s
  · refine Within.ite (Within.refl _ s) ?_
    split
    · exact takeMissed_within ..
    · exact takeFaultCode_within ..
    · exact takeValid_within ..

theorem takeMismatch_within (s : State) (n : Fin 192) (a b : Reading) : Within readward s (takeMismatch s n a b) := by
  simp only [takeMismatch]
  split
  · exact Within.refl _ s
  · exact Within.ite ((putDetector_within ..).append ..) (putDetector_within ..)

end Sys2Proof.Machine
end

section
/-! SUPPORT. The judgments of a poll and of a scan's end: LINE_FAULT and the break of a mirrored pair (R27, R31). -/

set_option autoImplicit false

namespace Sys2Proof.Machine

/-! ### The break position of a mirrored scan (R31) -/

theorem scanTail_eq (polls : List PollNote) : scanTail polls = polls.rtakeWhile fun q => decide (q.endA = .noReply) := rfl

/-- The tail of a list whose elements before it do not all belong to it. -/
theorem rtakeWhile_append_of {α : Type} {p : α → Bool} {front tail : List α} (ht : ∀ x ∈ tail, p x = true)
    (hf : ∀ x, front.getLast? = some x → p x = false) : (front ++ tail).rtakeWhile p = tail := by
  induction tail using List.reverseRecOn with
  | nil =>
    rw [List.append_nil, List.rtakeWhile_eq_nil_iff]
    exact fun hl h => by rw [hf _ (List.getLast?_eq_some_getLast hl)] at h; cases h
  | append_singleton tail x ih =>
    rw [← List.append_assoc, List.rtakeWhile_concat_pos _ _ _ (ht x (by simp)), ih fun y hy => ht y (by simp [hy])]

/-- The break that the polls give is found in their tail. -/
theorem breakFound_iff (polls : List PollNote) (k : Fin 48) : breakFound polls = some k ↔ BreakAt polls k := by
  simp only [breakFound, scanTail_eq, Option.map_eq_some_iff, List.find?_eq_some_iff_append, decide_eq_true_eq]
  constructor
  · rintro ⟨q, ⟨hv, mid, rest, he, hm⟩, hk⟩
    have tail : ∀ x ∈ mid ++ q :: rest, x.endA = .noReply := fun x hx => by
      rw [← he] at hx
      simpa using List.mem_rtakeWhile_imp hx
    refine ⟨polls.rdropWhile fun q => decide (q.endA = .noReply), mid, rest, q, ?_, fun x hx => ?_, fun x hx =>
      ⟨tail x (by simp [hx]), by simpa using hm x hx⟩, tail q (by simp), hv, fun x hx => tail x (by simp [hx]), hk⟩
    · rw [List.append_assoc, ← he, List.rdropWhile_append_rtakeWhile]
    · have hl : (polls.rdropWhile fun q => decide (q.endA = .noReply)) ≠ [] := fun e => by simp [e] at hx
      rw [List.getLast?_eq_some_getLast hl] at hx
      cases hx
      simpa using List.rdropWhile_last_not _ _ hl
  · rintro ⟨front, mid, rest, q, rfl, hf, hm, hq, hv, hr, hk⟩
    refine ⟨q, ⟨hv, mid, rest, ?_, fun x hx => by simpa using (hm x hx).2⟩, hk⟩
    rw [List.append_assoc]
    refine rtakeWhile_append_of (fun x hx => ?_) fun x hx => by simpa using hf x hx
    simp only [List.mem_append, List.mem_cons] at hx
    rcases hx with hx | rfl | hx
    · simpa using (hm x hx).1
    · simpa using hq
    · simpa using hr x hx

theorem allSilent_iff (polls : List PollNote) : allSilent polls = true ↔ SilentScan polls := by
  simp [allSilent, SilentScan]

theorem breakClears_iff (polls : List PollNote) : breakClears polls = true
    ↔ ¬ SilentScan polls ∧ ∀ x ∈ polls, replyKind x.endB = .valid → replyKind x.endA = .valid := by
  rw [← allSilent_iff]
  simp [breakClears, imp_iff_not_or]

/-- The break position that a scan leaves. -/
def breakAfter (polls : List PollNote) (recorded : Option (Fin 48)) : Option (Fin 48) :=
  match breakFound polls with
  | some k => some k
  | none => if breakClears polls then none else recorded

/-! ### A poll's judgments leave the loops' settings and timers -/

/-- The fields of a loop that the judgments of a scan leave alone. -/
def Loop.lasting (r : Loop) : Bool × LoopMode × Bool × Option Nat × Option Seconds :=
  (r.inUse, r.mode, r.due, r.intervalTimer, r.lastStart)

/-- The pieces that the judgments of a scan reach. -/
def judgeward : List Piece := [.loops] ++ logward

/-- What the judgments of a scan leave: every loop's settings and timers, the converters, and whether a loop scans. -/
structure Judged (s t : State) : Prop where
  served : LoopsServed t
  works : Works judgeward s t
  lasting : ∀ l, (t.loop l).lasting = (s.loop l).lasting
  scan : ∀ l, (t.loop l).scan = (s.loop l).scan
  state : ∀ l, (t.loop l).state = (s.loop l).state ∨ (t.loop l).state.scans = true ∧ (s.loop l).state.scans = true
  converter : ∀ c, t.converter c = s.converter c

theorem Judged.refl {s : State} (h : LoopsServed s) : Judged s s :=
  ⟨h, Works.refl _ s, fun _ => rfl, fun _ => rfl, fun _ => .inl rfl, fun _ => rfl⟩

theorem Judged.trans {s t u : State} (h : Judged s t) (k : Judged t u) : Judged s u := by
  refine ⟨k.served, h.works.trans k.works, fun l => (k.lasting l).trans (h.lasting l),
    fun l => (k.scan l).trans (h.scan l), fun l => ?_, fun c => (k.converter c).trans (h.converter c)⟩
  rcases k.state l with e | ⟨e1, e2⟩
  · rw [e]
    exact h.state l
  · rcases h.state l with f | ⟨-, f⟩
    · exact .inr ⟨e1, f ▸ e2⟩
    · exact .inr ⟨e1, f⟩

theorem Judged.mode {s t : State} (h : Judged s t) (l : Fin 4) : (t.loop l).mode = (s.loop l).mode :=
  congrArg (fun x => x.2.1) (h.lasting l)

/-- A change of a unit's records, and the entry of it. -/
theorem Judged.of_modUnit {s : State} (h : LoopsServed s) {u : ScanUnit} (hu : u.stands s) {f : Loop → Loop}
    (hf : UnitChange f) (hl : ∀ r, (f r).lasting = r.lasting) (hn : ∀ r, (f r).scan = r.scan)
    (hs : ∀ l ∈ u.loops, (f (s.loop l)).state = (s.loop l).state
      ∨ (f (s.loop l)).state.scans = true ∧ (s.loop l).state.scans = true) : Judged s (modUnit s u f) := by
  refine ⟨h.modUnit hu hf, (Works.of_onlyIn (modUnit_onlyIn s u f) (by decide)).mono (by decide), fun l => ?_, fun l => ?_,
    fun l => ?_, fun c => converter_modUnit ..⟩
  · rw [loop_modUnit]
    split
    · exact hl _
    · rfl
  · rw [loop_modUnit]
    split
    · exact hn _
    · rfl
  · rw [loop_modUnit]
    split
    next hm => exact hs l hm
    next => exact .inl rfl

theorem Judged.appendLoop {s t : State} (h : Judged s t) (k : EntryKind) (l : Fin 4) (d : Detail) :
    Judged s (appendLoop t k l d) := by
  have ha := appendLoop_aside t k l d
  exact ⟨ha.served h.served, h.works.trans ((append_works ..).mono (by decide)), fun j => by rw [ha.loop_eq, h.lasting],
    fun j => by rw [ha.loop_eq, h.scan], fun j => by rw [ha.loop_eq]; exact h.state j,
    fun c => by rw [ha.converter_eq, h.converter]⟩

/-- The state of a standing unit's loops is that of its head. -/
theorem LoopsServed.state_head {s : State} (h : LoopsServed s) {u : ScanUnit} (hu : u.stands s) {l : Fin 4}
    (hl : l ∈ u.loops) : (s.loop l).state = (s.loop u.head).state :=
  (h.agree.state_of_mem ((h.agree.mode_of_mem hu hl).symm ▸ head_mem_loops u)).symm

/-! ### LINE_FAULT (R27) -/

/-- The state after a poll's reply. -/
def stateAfterPoll (x : LoopState) (r : Reading) : LoopState :=
  if x = .lineFault ∧ replyKind r = .valid then .running else x

theorem clearLineFault_loop (s : State) (u : ScanUnit) (r : Reading) (l : Fin 4) : (clearLineFault s u r).loop l
    = if ((s.loop u.head).state = .lineFault ∧ replyKind r = .valid) ∧ l ∈ u.loops then
        { s.loop l with state := .running }
      else s.loop l := by
  unfold clearLineFault
  by_cases hc : (s.loop u.head).state = .lineFault ∧ replyKind r = .valid
  · rw [if_pos (by simp [hc]), (appendLoop_aside ..).loop_eq, loop_modUnit]
    simp only [hc, true_and, and_self]
  · rw [if_neg (by simpa using hc), if_neg fun x => hc x.1]

theorem clearLineFault_head (s : State) (u : ScanUnit) (r : Reading) :
    (clearLineFault s u r).loop u.head = { s.loop u.head with state := stateAfterPoll (s.loop u.head).state r } := by
  rw [clearLineFault_loop, stateAfterPoll]
  by_cases hc : (s.loop u.head).state = .lineFault ∧ replyKind r = .valid
  · rw [if_pos ⟨hc, head_mem_loops u⟩, if_pos hc]
  · rw [if_neg fun x => hc x.1, if_neg hc]

theorem clearLineFault_works (s : State) (u : ScanUnit) (r : Reading) : Works judgeward s (clearLineFault s u r) :=
  Works.ite (((Works.of_onlyIn (modUnit_onlyIn _ _ _) (by decide)).mono (by decide)).trans
    ((append_works ..).mono (by decide))) (Works.refl _ s)

theorem clearLineFault_judged {s : State} (h : LoopsServed s) {u : ScanUnit} (hu : u.stands s) (r : Reading) :
    Judged s (clearLineFault s u r) := by
  unfold clearLineFault
  split
  next hc =>
    simp only [Bool.and_eq_true, decide_eq_true_eq] at hc
    refine (Judged.of_modUnit (f := fun x => { x with state := .running }) h hu {} (fun _ => rfl) (fun _ => rfl)
      fun l hl => .inr ⟨rfl, ?_⟩).appendLoop ..
    rw [h.state_head hu hl, hc.1]
    rfl
  next => exact Judged.refl h

theorem clearLineFault_logged {s : State} {u : ScanUnit} {r : Reading} (hs : (s.loop u.head).state = .lineFault)
    (hr : replyKind r = .valid) : LoggedAmong s (clearLineFault s u r)
      { kind := .loopLineFaultCleared, subject := .loop u.head, wing := none, detail := .none } := by
  rw [clearLineFault, if_pos (by simp [hs, hr])]
  exact loggedAmong_append (.of_onlyIn (modUnit_onlyIn _ _ _) (by decide)) (LogGrows.refl _)

/-- The state after the judgment of a scan. -/
def stateAfterScan (x : LoopState) (polls : List PollNote) : LoopState :=
  if x = .running ∧ polls ≠ [] ∧ allSilent polls = true then .lineFault else x

theorem judgeLineFault_head (s : State) (u : ScanUnit) (polls : List PollNote) : (judgeLineFault s u polls).loop u.head
    = { s.loop u.head with state := stateAfterScan (s.loop u.head).state polls } := by
  unfold judgeLineFault stateAfterScan
  by_cases hc : (s.loop u.head).state = .running ∧ polls ≠ [] ∧ allSilent polls = true
  · rw [if_pos (by simp [hc]), if_pos hc, (appendLoop_aside ..).loop_eq, loop_modUnit, if_pos (head_mem_loops u)]
  · rw [if_neg (by simpa [and_assoc] using hc), if_neg hc]

theorem judgeLineFault_judged {s : State} (h : LoopsServed s) {u : ScanUnit} (hu : u.stands s) (polls : List PollNote) :
    Judged s (judgeLineFault s u polls) := by
  unfold judgeLineFault
  split
  next hc =>
    simp only [Bool.and_eq_true, decide_eq_true_eq] at hc
    refine (Judged.of_modUnit (f := fun x => { x with state := .lineFault }) h hu {} (fun _ => rfl) (fun _ => rfl)
      fun l hl => .inr ⟨rfl, ?_⟩).appendLoop ..
    rw [h.state_head hu hl, hc.1.1]
    rfl
  next => exact Judged.refl h

theorem judgeLineFault_logged {s : State} {u : ScanUnit} {polls : List PollNote} (hs : (s.loop u.head).state = .running)
    (hn : polls ≠ []) (hp : allSilent polls = true) : LoggedAmong s (judgeLineFault s u polls)
      { kind := .loopLineFault, subject := .loop u.head, wing := none, detail := .none } := by
  rw [judgeLineFault, if_pos (by simp [hs, hp, hn])]
  exact loggedAmong_append (.of_onlyIn (modUnit_onlyIn _ _ _) (by decide)) (LogGrows.refl _)

/-! ### The break judgment (R31) -/

theorem judgeBreak_head (s : State) (u : ScanUnit) (polls : List PollNote) : (judgeBreak s u polls).loop u.head
    = { s.loop u.head with breakPosition := breakAfter polls (s.loop u.head).breakPosition } := by
  simp only [judgeBreak, breakAfter]
  cases breakFound polls with
  | some k =>
    by_cases hb : (s.loop u.head).breakPosition = some k
    · simp only [if_pos hb]
      rw [← hb]
    · simp only [if_neg hb]
      rw [(appendLoop_aside ..).loop_eq, loop_modUnit, if_pos (head_mem_loops u)]
  | none =>
    by_cases hc : breakClears polls = true
    · cases hb : (s.loop u.head).breakPosition with
      | none =>
        simp only [hc, if_true, Option.isSome_none, Bool.and_false, Bool.false_eq_true, if_false]
        rw [← hb]
      | some k =>
        simp only [hc, Option.isSome_some, Bool.and_self, if_true]
        rw [(appendLoop_aside ..).loop_eq, loop_modUnit, if_pos (head_mem_loops u)]
    · simp [hc]

theorem judgeBreak_judged {s : State} (h : LoopsServed s) {u : ScanUnit} (hu : u.stands s) (polls : List PollNote) :
    Judged s (judgeBreak s u polls) := by
  have moved : ∀ b k d, Judged s (appendLoop (modUnit s u fun x => { x with breakPosition := b }) k u.head d) :=
    fun b k d => (Judged.of_modUnit (f := fun x => { x with breakPosition := b }) h hu {} (fun _ => rfl) (fun _ => rfl)
      fun _ _ => .inl rfl).appendLoop ..
  simp only [judgeBreak]
  split
  · split
    · exact Judged.refl h
    · exact moved _ _ _
  · split
    · exact moved _ _ _
    · exact Judged.refl h

theorem judgeBreak_logged_break {s : State} {u : ScanUnit} {polls : List PollNote} {k : Fin 48}
    (hf : breakFound polls = some k) (hb : (s.loop u.head).breakPosition ≠ some k) : LoggedAmong s (judgeBreak s u polls)
      { kind := .loopBreak, subject := .loop u.head, wing := none, detail := .number k.val } := by
  simp only [judgeBreak, hf, if_neg hb]
  exact loggedAmong_append (.of_onlyIn (modUnit_onlyIn _ _ _) (by decide)) (LogGrows.refl _)

theorem judgeBreak_logged_cleared {s : State} {u : ScanUnit} {polls : List PollNote} (hf : breakFound polls = none)
    (hc : breakClears polls = true) (hb : (s.loop u.head).breakPosition ≠ none) : LoggedAmong s (judgeBreak s u polls)
      { kind := .loopBreakCleared, subject := .loop u.head, wing := none, detail := .none } := by
  have hs : (s.loop u.head).breakPosition.isSome = true := Option.isSome_iff_ne_none.mpr hb
  simp only [judgeBreak, hf, hc, hs, Bool.and_self, if_true]
  exact loggedAmong_append (.of_onlyIn (modUnit_onlyIn _ _ _) (by decide)) (LogGrows.refl _)

end Sys2Proof.Machine
end

section
/-! SUPPORT. A poll that completes (R25, R26, R29): the scan that goes on, the scan that ends, and the end of the event. -/

set_option autoImplicit false

namespace Sys2Proof.Machine

/-! ### The end of the event -/

/-- The pieces that the end of a poll's event reaches: the help calls of an evacuation, and the doors. -/
def closingward : List Piece := doorward ++ [.engine] ++ outward ++ callward

theorem closePoll_onlyIn (s y : State) : OnlyIn closingward y (endEvent s (offerAfterEvacuation s y)) :=
  OnlyIn.trans (OnlyIn.mono (offerAfterEvacuation_within s y).1 (by decide)) (OnlyIn.mono (endEvent_onlyIn s _) (by decide))

theorem closePoll_log (s y : State) : LogGrows y (endEvent s (offerAfterEvacuation s y)) :=
  (offerAfterEvacuation_aside s y).log.trans (endEvent_aside s _).log

/-- What a poll's event leaves: the requests of the ports, the pieces it does not reach, and the doors' own records. -/
structure PollFrame (s t : State) : Prop where
  quiet : PortsQuiet s t
  pieces : OnlyIn (alarming ++ outward) s t
  doors : DoorsKept s t

theorem closePoll_frame {s x y : State} (hx : Within readward s x) (hy : Works scanward x y) :
    PollFrame s (endEvent s (offerAfterEvacuation s y)) := by
  have hc := offerAfterEvacuation_within s y
  have doors : ∀ {ps : List Piece} {a b : State}, OnlyIn ps a b → Piece.doors ∉ ps → DoorsKept a b :=
    fun h hp => .of_same (h .doors hp)
  exact ⟨((hx.2.trans hy.within.2).trans hc.2).trans (endEvent_portsQuiet s _),
    OnlyIn.trans (OnlyIn.trans (OnlyIn.mono hx.1 (by decide)) (OnlyIn.mono hy.within.1 (by decide)))
      (OnlyIn.mono (closePoll_onlyIn s y) (by decide)),
    (((doors hx.1 (by decide)).trans (doors hy.within.1 (by decide))).trans (doors hc.1 (by decide))).trans
      (endEvent_kept ..).1⟩

/-! ### The scan goes on (R25) -/

theorem moveOn_further {s : State} {u : ScanUnit} {sc : Scan} {k : Fin 48}
    (hk : enabledSlot (s.scanLists.get u.head) (sc.slot.val + 1) = some k) (note : PollNote) : moveOn s u sc note
      = modUnit s u fun x => { x with scan := some { slot := k, polls := sc.polls ++ [note] } } := by
  simp only [moveOn, hk]

theorem moveOn_last {s : State} {u : ScanUnit} {sc : Scan}
    (hk : enabledSlot (s.scanLists.get u.head) (sc.slot.val + 1) = none) (note : PollNote) :
    moveOn s u sc note = endScan s u (sc.polls ++ [note]) := by
  simp only [moveOn, hk]

/-- The scan of a unit goes on after a reply, in an event from `s`. -/
structure GoesOn (u : ScanUnit) (sc : Scan) (note : PollNote) (k : Fin 48) (reply : Reading) (s y : State) : Prop where
  scan : ∀ l ∈ u.loops, (y.loop l).scan = some { slot := k, polls := sc.polls ++ [note] }
  state : (y.loop u.head).state = stateAfterPoll (s.loop u.head).state reply
  others : ∀ l, l ∉ u.loops → y.loop l = s.loop l

theorem scanLists_clearLineFault {s x : State} (hx : OnlyIn readward s x) (u : ScanUnit) (r : Reading) :
    (clearLineFault x u r).scanLists = s.scanLists := by
  have hc : (clearLineFault x u r).scanLists = x.scanLists := (clearLineFault_works x u r).within.1 .scanLists (by decide)
  rw [hc]
  exact hx .scanLists (by decide)

theorem moveOn_goesOn {s x : State} {u : ScanUnit} {sc : Scan} {k : Fin 48} (hx : OnlyIn readward s x)
    (hk : enabledSlot (s.scanLists.get u.head) (sc.slot.val + 1) = some k) (note : PollNote) (reply : Reading) :
    GoesOn u sc note k reply s (moveOn (clearLineFault x u reply) u sc note) := by
  have hl := OnlyIn.loop_eq hx (by decide)
  rw [moveOn_further (by rw [scanLists_clearLineFault hx, hk])]
  refine ⟨fun l hm => ?_, ?_, fun l hm => ?_⟩
  · rw [loop_modUnit, if_pos hm]
  · rw [loop_modUnit, if_pos (head_mem_loops u), clearLineFault_head, hl]
  · rw [loop_modUnit, if_neg hm, clearLineFault_loop, if_neg fun x => hm x.2, hl]

/-! ### The scan ends (R26) -/

/-- The judgments of a scan that has ended (R27, R31). -/
def scanJudged (s : State) (u : ScanUnit) (polls : List PollNote) : State :=
  match u with
  | .pair _ => judgeBreak (judgeLineFault s u polls) u polls
  | .loop _ => judgeLineFault s u polls

/-- A unit whose scan has ended, before the arbiters' work. -/
def scanEnded (s : State) (u : ScanUnit) (polls : List PollNote) : State :=
  releaseConverters (scanJudged (modUnit s u fun x => { x with scan := none }) u polls) u

theorem endScan_eq (s : State) (u : ScanUnit) (polls : List PollNote) :
    endScan s u polls = arbitrate (scanEnded s u polls) := by cases u <;> rfl

theorem judgeLineFault_works (s : State) (u : ScanUnit) (polls : List PollNote) :
    Works judgeward s (judgeLineFault s u polls) :=
  Works.ite (((Works.of_onlyIn (modUnit_onlyIn _ _ _) (by decide)).mono (by decide)).trans
    ((append_works ..).mono (by decide))) (Works.refl _ s)

theorem judgeBreak_works (s : State) (u : ScanUnit) (polls : List PollNote) :
    Works judgeward s (judgeBreak s u polls) := by
  have moved : ∀ f k d, Works judgeward s (appendLoop (modUnit s u f) k u.head d) := fun f k d =>
    ((Works.of_onlyIn (modUnit_onlyIn s u f) (by decide)).mono (by decide)).trans ((append_works ..).mono (by decide))
  simp only [judgeBreak]
  split
  · exact Works.ite (Works.refl _ s) (moved _ _ _)
  · exact Works.ite (moved _ _ _) (Works.refl _ s)

/-- The pieces that the end of a scan reaches before the arbiters' work. -/
def endward : List Piece := [.converters] ++ judgeward

theorem scanEnded_works (s : State) (u : ScanUnit) (polls : List PollNote) : Works endward s (scanEnded s u polls) := by
  have stopped : Works endward s (modUnit s u fun x => { x with scan := none }) :=
    (Works.of_onlyIn (modUnit_onlyIn s u _) (by decide)).mono (by decide)
  have judged : ∀ t, Works endward t (scanJudged t u polls) := fun t => by
    cases u with
    | loop l => exact (judgeLineFault_works ..).mono (by decide)
    | pair p => exact ((judgeLineFault_works ..).trans (judgeBreak_works ..)).mono (by decide)
  exact (stopped.trans (judged _)).trans ((Works.of_onlyIn (releaseConverters_onlyIn _ u) (by decide)).mono (by decide))

theorem moveOn_works (s : State) (u : ScanUnit) (sc : Scan) (note : PollNote) : Works scanward s (moveOn s u sc note) := by
  simp only [moveOn]
  split
  · exact modUnit_works ..
  · rw [endScan_eq]
    exact ((scanEnded_works ..).mono (by decide)).trans (arbitrate_works _)

theorem moveOn_mismatchKept (s : State) (u : ScanUnit) (sc : Scan) (note : PollNote) :
    MismatchKept s (moveOn s u sc note) := by
  simp only [moveOn]
  split
  · exact .of_same (modUnit_onlyIn s u _ .detectors (by decide))
  · rw [endScan_eq]
    exact MismatchKept.trans (.of_same ((scanEnded_works s u _).within.1 .detectors (by decide)))
      (arbitrate_mismatchKept _)

section
variable {s : State} {u : ScanUnit} {polls : List PollNote}

theorem scanJudged_judged (h : LoopsServed s) (hu : u.stands s) : Judged s (scanJudged s u polls) := by
  have hl := judgeLineFault_judged h hu polls
  cases u with
  | loop l => exact hl
  | pair p => exact hl.trans (judgeBreak_judged hl.served ((stands_of_handed hl.mode).mpr hu) polls)

theorem scanJudged_state : ((scanJudged s u polls).loop u.head).state = stateAfterScan (s.loop u.head).state polls := by
  have hl : ((judgeLineFault s u polls).loop u.head).state = stateAfterScan (s.loop u.head).state polls := by
    rw [judgeLineFault_head]
  cases u with
  | loop l => exact hl
  | pair p =>
    rw [← hl, scanJudged, judgeBreak_head]

theorem scanJudged_lineFault (hs : (s.loop u.head).state = .running) (hn : polls ≠ []) (hp : allSilent polls = true) :
    LoggedAmong s (scanJudged s u polls)
      { kind := .loopLineFault, subject := .loop u.head, wing := none, detail := .none } := by
  have hl := judgeLineFault_logged hs hn hp
  cases u with
  | loop l => exact hl
  | pair p => exact hl.grow (judgeLineFault_works ..).log.1 (judgeBreak_works ..).log

/-- What the break judgment leaves of the position recorded for a unit, with its entries. -/
structure BreakWritten (u : ScanUnit) (polls : List PollNote) (s t : State) : Prop where
  position : (t.loop u.head).breakPosition = breakAfter polls (s.loop u.head).breakPosition
  found : ∀ k, breakFound polls = some k → (s.loop u.head).breakPosition ≠ some k → LoggedAmong s t
    { kind := .loopBreak, subject := .loop u.head, wing := none, detail := .number k.val }
  cleared : breakFound polls = none → breakClears polls = true → (s.loop u.head).breakPosition ≠ none → LoggedAmong s t
    { kind := .loopBreakCleared, subject := .loop u.head, wing := none, detail := .none }

theorem BreakWritten.within {s0 t t0 : State} (h : BreakWritten u polls s t)
    (hs : (s.loop u.head).breakPosition = (s0.loop u.head).breakPosition) (hg : LogGrows s0 s) (hst : LogGrows s t)
    (ht : (t0.loop u.head).breakPosition = (t.loop u.head).breakPosition) (hgt : LogGrows t t0) :
    BreakWritten u polls s0 t0 := by
  obtain ⟨h1, h2, h3⟩ := h
  rw [hs] at h1 h2 h3
  have logged : ∀ {x}, LoggedAmong s t x → LoggedAmong s0 t0 x := fun hx =>
    (LoggedAmong.late hg hx).grow (hg.trans hst).1 hgt
  exact ⟨ht.trans h1, fun k hf hb => logged (h2 k hf hb), fun hf hc hb => logged (h3 hf hc hb)⟩

theorem scanJudged_break {p : Fin 2} (hu : u = .pair p) : BreakWritten u polls s (scanJudged s u polls) := by
  subst hu
  have hw := judgeLineFault_works s (.pair p) polls
  have hb : ((judgeLineFault s (.pair p) polls).loop (ScanUnit.pair p).head).breakPosition
      = (s.loop (ScanUnit.pair p).head).breakPosition := by rw [judgeLineFault_head]
  have judged : BreakWritten (.pair p) polls (judgeLineFault s (.pair p) polls) (scanJudged s (.pair p) polls) :=
    ⟨by rw [scanJudged, judgeBreak_head], fun _ hf hk => judgeBreak_logged_break hf hk, fun hf hc hk =>
      judgeBreak_logged_cleared hf hc hk⟩
  exact judged.within hb hw.log (judgeBreak_works ..).log rfl (LogGrows.refl _)

end

/-- A scan of a unit is over after its last reply, in an event from `s`, and its converters are free. -/
structure ScanOver (u : ScanUnit) (polls : List PollNote) (reply : Reading) (s r : State) : Prop where
  served : LoopsServed r
  lasting : ∀ l, (r.loop l).lasting = (s.loop l).lasting
  scan : ∀ l, (r.loop l).scan = if l ∈ u.loops then none else (s.loop l).scan
  state : ∀ l, (r.loop l).state = (s.loop l).state ∨ (r.loop l).state.scans = true ∧ (s.loop l).state.scans = true
  converter : ∀ c, r.converter c = if (s.converter c).isFor u then .free else s.converter c
  log : LogGrows s r
  head : (r.loop u.head).state = stateAfterScan (stateAfterPoll (s.loop u.head).state reply) polls
  cleared : (s.loop u.head).state = .lineFault → replyKind reply = .valid → LoggedAmong s r
    { kind := .loopLineFaultCleared, subject := .loop u.head, wing := none, detail := .none }
  lineFault : (s.loop u.head).state = .running → allSilent polls = true → LoggedAmong s r
    { kind := .loopLineFault, subject := .loop u.head, wing := none, detail := .none }
  broken : ∀ p, u = .pair p → BreakWritten u polls s r

theorem scanEnded_over {s x : State} {u : ScanUnit} {polls : List PollNote} (h : LoopsServed s) (hu : u.stands s)
    (hx : OnlyIn readward s x) (hg : LogGrows s x) (hn : polls ≠ []) (reply : Reading) :
    ScanOver u polls reply s (scanEnded (clearLineFault x u reply) u polls) := by
  have hl := OnlyIn.loop_eq hx (by decide)
  have hxs : LoopsServed x := h.of_onlyIn hx (by decide)
  have hc := clearLineFault_judged hxs ((stands_of_handed fun l => by rw [hl]).mpr hu) reply
  have hcu : u.stands (clearLineFault x u reply) := (stands_of_handed fun l => by rw [hc.mode, hl]).mpr hu
  have hch := clearLineFault_head x u reply
  rw [hl] at hch
  have hcl := @clearLineFault_logged x u reply
  rw [hl] at hcl
  generalize clearLineFault x u reply = c at hc hcu hch hcl ⊢
  have h1 : LoopsServed (modUnit c u fun q => { q with scan := none }) := hc.served.modUnit hcu {}
  have hloop : ∀ l, ((modUnit c u fun q => { q with scan := none }).loop l)
      = if l ∈ u.loops then { c.loop l with scan := none } else c.loop l := loop_modUnit c u _
  have h1c : ∀ d, (modUnit c u fun q => { q with scan := none }).converter d = c.converter d := converter_modUnit c u _
  have h1o : LogGrows c (modUnit c u fun q => { q with scan := none }) := .of_onlyIn (modUnit_onlyIn c u _) (by decide)
  rw [scanEnded]
  generalize modUnit c u (fun q => { q with scan := none }) = m at h1 hloop h1c h1o ⊢
  have hlast : ∀ l, (m.loop l).lasting = (c.loop l).lasting ∧ (m.loop l).state = (c.loop l).state
      ∧ (m.loop l).breakPosition = (c.loop l).breakPosition := fun l => by
    rw [hloop]
    split <;> exact ⟨rfl, rfl, rfl⟩
  have hmu : u.stands m := (stands_of_handed fun l => congrArg (fun q => q.2.1) (hlast l).1).mpr hcu
  have hj : Judged m (scanJudged m u polls) := scanJudged_judged h1 hmu
  have hro := releaseConverters_onlyIn (scanJudged m u polls) u
  have hrg : LogGrows (scanJudged m u polls) (releaseConverters (scanJudged m u polls) u) := .of_onlyIn hro (by decide)
  have hsm : LogGrows s m := (hg.trans hc.works.log).trans h1o
  have head : (m.loop u.head).state = stateAfterPoll (s.loop u.head).state reply := by rw [(hlast _).2.1, hch]
  refine ⟨hj.served.release u, fun l => ?_, fun l => ?_, fun l => ?_, fun d => ?_, (hsm.trans hj.works.log).trans hrg, ?_,
    fun hs hr => ?_, fun hs hp => ?_, fun p hp => (scanJudged_break hp).within ?_ hsm hj.works.log ?_ hrg⟩
  · rw [loop_releaseConverters, hj.lasting, (hlast l).1, hc.lasting, hl]
  · rw [loop_releaseConverters, hj.scan, hloop]
    split
    · rfl
    · rw [hc.scan, hl]
  · rw [loop_releaseConverters]
    have hm := hc.state l
    rw [hl, ← (hlast l).2.1] at hm
    rcases hj.state l with e | ⟨e1, e2⟩
    · rw [e]
      exact hm
    · rcases hm with f | ⟨-, f⟩
      · exact .inr ⟨e1, f ▸ e2⟩
      · exact .inr ⟨e1, f⟩
  · rw [converter_releaseConverters, hj.converter, h1c, hc.converter, OnlyIn.converter_eq hx (by decide)]
  · rw [loop_releaseConverters, scanJudged_state, head]
  · exact ((LoggedAmong.late hg (hcl hs hr)).grow (hg.trans hc.works.log).1 h1o).grow hsm.1 (hj.works.log.trans hrg)
  · have hm : (m.loop u.head).state = .running := by rw [head, hs]; rfl
    exact (LoggedAmong.late hsm (scanJudged_lineFault hm hn hp)).grow (hsm.trans hj.works.log).1 hrg
  · rw [(hlast _).2.2, hch]
  · rw [loop_releaseConverters]

/-- What contends in the event contends once the scan is over. -/
theorem ScanOver.contends {u : ScanUnit} {polls : List PollNote} {reply : Reading} {s r : State}
    (h : ScanOver u polls reply s r) {l : Fin 4} (hc : Contends s u.loops l) : Contends r [] l := by
  obtain ⟨hi, hs, hd⟩ := hc
  have hlast := h.lasting l
  simp only [Loop.lasting, Prod.mk.injEq] at hlast
  obtain ⟨e1, -, e3, e4, -⟩ := hlast
  refine ⟨e1.trans hi, .inl ?_, ?_⟩
  · rw [h.scan]
    split
    · rfl
    next hm => exact hs.resolve_right hm
  · rw [e3, e4]
    rcases h.state l with e | ⟨f1, f2⟩
    · rwa [e]
    · refine .inr ⟨f1, hd.elim (fun x => ?_) And.right⟩
      rw [x] at f2
      cases f2

/-- The converters that a unit's scan frees at its end. -/
def freedBy (s : State) (u : ScanUnit) (c : Converter) : Bool :=
  decide (s.converter c = .free) || (s.converter c).isFor u

theorem ScanOver.made {u : ScanUnit} {polls : List PollNote} {reply : Reading} {s r : State}
    (h : ScanOver u polls reply s r) : Made s u.loops (freedBy s u) (makeDue r) where
  served := h.served.makeDue
  mode l := (mode_of_undue (makeDue_undue r l)).trans (congrArg (fun x => x.2.1) (h.lasting l))
  lastStart l := (lastStart_of_undue (makeDue_undue r l)).trans (congrArg (fun x => x.2.2.2.2) (h.lasting l))
  seconds := (makeDue_seconds r).trans h.log.1
  wants _ hc := (h.contends hc).wants
  free c hf := by
    simp only [freedBy, Bool.or_eq_true, decide_eq_true_eq] at hf
    rw [makeDue_converter, h.converter]
    split
    next => rfl
    next hn => exact hf.resolve_right hn
  unkept c p hk := by
    rw [makeDue_converter, h.converter]
    split
    · exact nofun
    · exact hk
  kept c p hn hk := by
    rw [makeDue_converter, h.converter, hk, if_neg]
    cases u with
    | loop l => exact nofun
    | pair q =>
      intro e
      simp only [Holder.isFor, decide_eq_true_eq] at e
      exact hn (by simp [e])

/-- The line-fault judgment of a poll's event (R27). -/
theorem lineJudged_of {l : Fin 4} {polls : List PollNote} {reply : Reading} {s t : State}
    (head : (s.loop l).state = .running ∨ (s.loop l).state = .lineFault →
      (t.loop l).state = stateAfterScan (stateAfterPoll (s.loop l).state reply) polls)
    (hn : polls ≠ [])
    (cleared : (s.loop l).state = .lineFault → replyKind reply = .valid → LoggedAmong s t
      { kind := .loopLineFaultCleared, subject := .loop l, wing := none, detail := .none })
    (fault : (s.loop l).state = .running → allSilent polls = true → LoggedAmong s t
      { kind := .loopLineFault, subject := .loop l, wing := none, detail := .none }) :
    LineJudged l polls (decide (replyKind reply = .valid)) s t := by
  simp only [LineJudged, ← allSilent_iff, decide_eq_true_eq, decide_eq_false_iff_not]
  refine ⟨fun hs hp => ⟨?_, fault hs hp⟩, fun hs hp => ?_, cleared, fun hs hv hp => ?_, fun hs hv => ?_⟩
  · simp [head (.inl hs), hs, stateAfterPoll, stateAfterScan, hn, hp]
  · simp [head (.inl hs), hs, stateAfterPoll, stateAfterScan, hp]
  · simp [head (.inr hs), hs, stateAfterPoll, stateAfterScan, hv, hp]
  · simp [head (.inr hs), hs, stateAfterPoll, stateAfterScan, hv]

/-- The break judgment of a poll's event (R31). -/
theorem breakJudged_of {u : ScanUnit} {polls : List PollNote} {s t : State} (h : BreakWritten u polls s t) :
    BreakJudged u.head polls s t := by
  have hp := h.position
  refine ⟨fun k hk => ?_, fun hno => ?_⟩
  · have hf := (breakFound_iff polls k).mpr hk
    exact ⟨by rw [hp, breakAfter, hf], h.found k hf⟩
  · have hf : breakFound polls = none := Option.eq_none_iff_forall_ne_some.mpr fun k hk =>
      hno k ((breakFound_iff polls k).mp hk)
    refine ⟨fun hc => ?_, fun hc => ?_⟩
    · have hc' := (breakClears_iff polls).mpr hc
      exact ⟨by simp [hp, breakAfter, hf, hc'], h.cleared hf hc'⟩
    · have hc' : breakClears polls ≠ true := fun e => by
        obtain ⟨h1, h2⟩ := (breakClears_iff polls).mp e
        exact hc.elim h1 fun ⟨x, hx, hb, ha⟩ => ha (h2 x hx hb)
      simp [hp, breakAfter, hf, hc']

/-- A loop that scans scans still after the judgments of a poll. -/
theorem scans_afterPoll {x : LoopState} (r : Reading) (h : x = .running ∨ x = .lineFault) :
    (stateAfterPoll x r).scans = true := by
  unfold stateAfterPoll
  split
  · rfl
  · rcases h with rfl | rfl <;> rfl

theorem scans_afterScan {x : LoopState} (polls : List PollNote) (h : x.scans = true) :
    (stateAfterScan x polls).scans = true := by
  unfold stateAfterScan
  split
  · rfl
  · exact h

/-- What the event leaves in which a scan ends. -/
structure ScanEndEvent (u : ScanUnit) (polls : List PollNote) (reply : Reading) (s t : State) : Prop where
  ended : ∀ l ∈ u.loops, (t.loop l).scan = none ∨ (t.loop l).lastStart = some s.seconds
  line : LineJudged u.head polls (decide (replyKind reply = .valid)) s t
  broken : ∀ p, u = .pair p → BreakJudged u.head polls s t
  handedOut : HandedOut s t u.loops (freedBy s u)

theorem ScanOver.event {u : ScanUnit} {polls : List PollNote} {reply : Reading} {s r : State}
    (h : ScanOver u polls reply s r) (hn : polls ≠ []) :
    ScanEndEvent u polls reply s (endEvent s (offerAfterEvacuation s (arbitrate r))) := by
  have ho := closePoll_onlyIn s (arbitrate r)
  have hg : LogGrows r (endEvent s (offerAfterEvacuation s (arbitrate r))) :=
    (arbitrate_works r).log.trans (closePoll_log s (arbitrate r))
  have hl := OnlyIn.loop_eq ho (by decide)
  have hc := OnlyIn.converter_eq ho (by decide)
  generalize endEvent s (offerAfterEvacuation s (arbitrate r)) = t at ho hg hl hc ⊢
  have handed := fun l => Gives.handed (arbitrate_gives r) l
  refine ⟨fun l hm => ?_, lineJudged_of (fun hs => ?_) hn (fun hs hr => (h.cleared hs hr).grow h.log.1 hg)
    (fun hs hp => (h.lineFault hs hp).grow h.log.1 hg), fun p hp => breakJudged_of ?_,
    (h.made.handedOut (handOut_arbitrate r) (arbitrate_nothingPicked h.served)).congr hl hc⟩
  · rw [hl]
    rcases (handed l).record with e | e
    · left
      rw [e, scan_of_undue (makeDue_undue r l), h.scan, if_pos hm]
    · right
      rw [e.2, makeDue_seconds, h.log.1]
  · rw [hl, (handed _).state, ← h.head]
    refine makeDue_state h.served fun e => ?_
    rw [h.head] at e
    have := scans_afterScan polls (scans_afterPoll reply hs)
    rw [e] at this
    cases this
  · refine (h.broken p hp).within rfl (LogGrows.refl s) h.log ?_ hg
    rw [hl, (handed _).breakPosition, breakPosition_of_undue (makeDue_undue r _)]

end Sys2Proof.Machine
end

section
/-! The polls of the loops (O51). -/

set_option autoImplicit false

namespace Sys2Proof.Machine

/-! ### The reading that a mirrored slot hands on (R29) -/

theorem eq_noReply_of_kind {r : Reading} (h : replyKind r = .noReply) : r = .noReply := by
  cases r with
  | noReply => rfl
  | raw v =>
    simp only [replyKind] at h
    split at h <;> cases h

theorem replyKind_raw_iff (v : Nat) :
    replyKind (.raw v) = .valid ↔ Config.validLow ≤ v ∧ v ≤ Config.validHigh := by
  simp only [replyKind]
  split <;> simp_all

theorem replyKind_max {a b : Reading} (ha : replyKind a = .valid) (hb : replyKind b = .valid) :
    replyKind (.raw (max (Reading.value a) (Reading.value b))) = .valid := by
  cases a with
  | noReply => cases ha
  | raw v =>
    cases b with
    | noReply => cases hb
    | raw w =>
      rw [replyKind_raw_iff] at ha hb ⊢
      simp only [Reading.value]
      omega

/-- A mirrored slot hands on a valid reading where an end gave one. -/
theorem combineEnds_valid_iff (a b : Reading) :
    replyKind (combineEnds a b) = .valid ↔ replyKind a = .valid ∨ replyKind b = .valid := by
  unfold combineEnds
  cases ha : replyKind a <;> cases hb : replyKind b <;> simp [ha, hb, replyKind_max]
  exact nofun

/-! ### The mismatch flag (R29, R30) -/

theorem takeMismatch_detector {s : State} {n : Fin 192} {d : Detector} (h : s.detector n = some d) (a b : Reading) :
    (takeMismatch s n a b).detector n = some { d with mismatch := mismatchAfter d.mismatch a b } := by
  simp only [takeMismatch, h]
  split
  · rw [appendDetector, append_detector, State.detector_putDetector, if_pos rfl]
  · rw [State.detector_putDetector, if_pos rfl]

theorem takeMismatch_logged {s : State} {n : Fin 192} {d : Detector} {a b : Reading} (h : s.detector n = some d)
    (hd : d.mismatch = false) (hm : mismatchAfter d.mismatch a b = true) : Logged s (takeMismatch s n a b)
      [{ kind := .mirrorMismatch, subject := .detector n, wing := some (s.wingOf d.zone)
         detail := .number (mismatchDetail a b) }] := by
  have hc : (mismatchAfter d.mismatch a b && !d.mismatch) = true := by rw [hm, hd]; rfl
  have put : Logged s (s.putDetector n (some { d with mismatch := mismatchAfter d.mismatch a b })) [] :=
    logged_nil rfl rfl
  simp only [takeMismatch, h, if_pos hc]
  exact put.trans (append_logged ..) rfl

theorem takeMismatch_logGrows (s : State) (n : Fin 192) (a b : Reading) : LogGrows s (takeMismatch s n a b) := by
  have put : ∀ x, LogGrows s (s.putDetector n x) := fun x => .of_onlyIn (putDetector_onlyIn s n x) (by decide)
  simp only [takeMismatch]
  split
  · exact LogGrows.refl s
  · split
    · exact (put _).trans (append_logGrows ..)
    · exact put _

/-! ### The polls -/

/-- The reading that the poll of an independent loop hands on. -/
def readPoll (s : State) (l : Fin 4) (slot : Fin 48) (r : Reading) : State :=
  match detectorPolled s l slot with
  | some n => takeReading s n r
  | none => s

/-- The reading that the polls of a mirrored slot hand on. -/
def readEnds (s : State) (p : Fin 2) (slot : Fin 48) (a b : Reading) : State :=
  match detectorPolled s (lowerLoop p) slot with
  | some n => takeReading (takeMismatch s n a b) n (combineEnds a b)
  | none => s

/-- The event of a poll after its reading. -/
def afterPoll (s x : State) (u : ScanUnit) (reply : Reading) (sc : Scan) (note : PollNote) : State :=
  endEvent s (offerAfterEvacuation s (moveOn (clearLineFault x u reply) u sc note))

theorem readPoll_within (s : State) (l : Fin 4) (k : Fin 48) (r : Reading) :
    Within readward s (readPoll s l k r) ∧ LogGrows s (readPoll s l k r) := by
  unfold readPoll
  split
  · exact ⟨takeReading_within .., (takeReading_aside ..).log⟩
  · exact ⟨Within.refl _ s, LogGrows.refl s⟩

theorem readEnds_within (s : State) (p : Fin 2) (k : Fin 48) (a b : Reading) :
    Within readward s (readEnds s p k a b) ∧ LogGrows s (readEnds s p k a b) := by
  unfold readEnds
  split
  · exact ⟨(takeMismatch_within ..).trans (takeReading_within ..),
      (takeMismatch_logGrows ..).trans (takeReading_aside ..).log⟩
  · exact ⟨Within.refl _ s, LogGrows.refl s⟩

theorem exec_pollComplete {s : State} {l : Fin 4} {sc : Scan} (hm : (s.loop l).mode = .independent)
    (hs : (s.loop l).scan = some sc) (r : Reading) : exec (.pollComplete l r) s
      = .next (afterPoll s (readPoll s l sc.slot r) (.loop l) r sc { slot := sc.slot, endA := r, endB := .noReply }) := by
  change execPollComplete l r s = _
  simp only [execPollComplete, hm, hs]
  rfl

theorem exec_mirroredPollComplete {s : State} {p : Fin 2} {sc : Scan} (hm : (s.loop (lowerLoop p)).mode = .mirrored)
    (hs : (s.loop (lowerLoop p)).scan = some sc) (a b : Reading) : exec (.mirroredPollComplete p a b) s
      = .next (afterPoll s (readEnds s p sc.slot a b) (.pair p) (combineEnds a b) sc
        { slot := sc.slot, endA := a, endB := b }) := by
  change execMirroredPollComplete p a b s = _
  simp only [execMirroredPollComplete, hm, hs]
  rfl

theorem freedBy_loop (s : State) (l : Fin 4) : freedBy s (.loop l)
    = fun c => decide (s.converter c = .free) || decide (s.converter c = .loop l) := funext fun c => by
  unfold freedBy
  cases s.converter c <;> simp [Holder.isFor]

theorem freedBy_pair (s : State) (p : Fin 2) : freedBy s (.pair p)
    = fun c => decide (s.converter c = .free) || decide (s.converter c = .pair p) || decide (s.converter c = .kept p) :=
  funext fun c => by
    unfold freedBy
    cases s.converter c <;> simp [Holder.isFor]

/-- A loop whose scan is under way shows that the part is in service. -/
theorem LoopPairsOk.served_of_scan {s : State} (h : LoopPairsOk s) {l : Fin 4} {sc : Scan}
    (hs : (s.loop l).scan = some sc) : LoopsServed s :=
  h.served (l := l) fun ⟨_, _, hq, _⟩ => by rw [hs] at hq; cases hq

section
variable {s x : State} {u : ScanUnit} {reply : Reading} {sc : Scan} {note : PollNote}

/-- What a poll's event leaves besides. -/
theorem afterPoll_frame (hx : Within readward s x) : PollFrame s (afterPoll s x u reply sc note) :=
  closePoll_frame hx (((clearLineFault_works x u reply).mono (by decide)).trans (moveOn_works ..))

theorem afterPoll_goesOn {k : Fin 48} (hx : Within readward s x)
    (hk : enabledSlot (s.scanLists.get u.head) (sc.slot.val + 1) = some k) :
    GoesOn u sc note k reply s (afterPoll s x u reply sc note) := by
  have on := moveOn_goesOn hx.1 hk note reply
  have hl := OnlyIn.loop_eq (closePoll_onlyIn s (moveOn (clearLineFault x u reply) u sc note)) (by decide)
  exact ⟨fun l hm => by rw [afterPoll, hl, on.scan l hm], by rw [afterPoll, hl, on.state],
    fun l hm => by rw [afterPoll, hl, on.others l hm]⟩

/-- A scan that goes on changes no detector after the reading. -/
theorem afterPoll_detector {k : Fin 48} (hx : Within readward s x)
    (hk : enabledSlot (s.scanLists.get u.head) (sc.slot.val + 1) = some k) (n : Fin 192) :
    (afterPoll s x u reply sc note).detector n = x.detector n := by
  rw [afterPoll, OnlyIn.detector_eq (closePoll_onlyIn s _) (by decide),
    moveOn_further (by rw [scanLists_clearLineFault hx.1, hk]), OnlyIn.detector_eq (modUnit_onlyIn _ _ _) (by decide),
    OnlyIn.detector_eq (clearLineFault_works ..).within.1 (by decide)]

/-- After the reading a poll's event keeps the mismatch flags, and adds to the log. -/
theorem afterPoll_mismatchKept : MismatchKept x (afterPoll s x u reply sc note) :=
  ((MismatchKept.of_same ((clearLineFault_works x u reply).within.1 .detectors (by decide))).trans
    (moveOn_mismatchKept _ u sc note)).trans (.of_same (closePoll_onlyIn s _ .detectors (by decide)))

theorem afterPoll_logGrows : LogGrows x (afterPoll s x u reply sc note) :=
  ((clearLineFault_works x u reply).log.trans (moveOn_works ..).log).trans (closePoll_log ..)

/-- The last poll of a scan. -/
theorem afterPoll_last (h : LoopsServed s) (hu : u.stands s) (hx : Within readward s x ∧ LogGrows s x)
    (hk : enabledSlot (s.scanLists.get u.head) (sc.slot.val + 1) = none) :
    ScanEndEvent u (sc.polls ++ [note]) reply s (afterPoll s x u reply sc note) := by
  rw [afterPoll, moveOn_last (by rw [scanLists_clearLineFault hx.1.1, hk]), endScan_eq]
  exact (scanEnded_over h hu hx.1.1 hx.2 (by simp) reply).event (by simp)

end

/-- Settles O51: the reading is taken, the loop leaves LINE_FAULT at a valid reply, and the scan goes on, or ends with its
judgments before the arbiters' work. -/
theorem pollsMoveOn : Obligations.PollsMoveOn := by
  refine fun s sc => ⟨fun l r hm hs => ?_, fun p a b hm hs => ?_⟩
  · have hx := readPoll_within s l sc.slot r
    have frame := afterPoll_frame (u := .loop l) (reply := r) (sc := sc)
      (note := { slot := sc.slot, endA := r, endB := .noReply }) hx.1
    refine ⟨fun k hk => ⟨_, exec_pollComplete hm hs r, ?_⟩, fun hok hk => ⟨_, exec_pollComplete hm hs r, ?_⟩⟩
    · have on := afterPoll_goesOn (u := .loop l) (reply := r)
        (note := { slot := sc.slot, endA := r, endB := .noReply }) hx.1 hk
      exact ⟨on.scan l (by simp), on.state, fun m hne => on.others m (by simpa using hne), frame.quiet, frame.pieces,
        frame.doors⟩
    · have last := afterPoll_last (u := .loop l) (reply := r) (note := { slot := sc.slot, endA := r, endB := .noReply })
        (hok.served_of_scan hs) hm hx hk
      exact ⟨last.ended l (by simp), last.line, freedBy_loop s l ▸ last.handedOut, frame.quiet, frame.pieces, frame.doors⟩
  · have hx := readEnds_within s p sc.slot a b
    have frame := afterPoll_frame (u := .pair p) (reply := combineEnds a b) (sc := sc)
      (note := { slot := sc.slot, endA := a, endB := b }) hx.1
    have valid := combineEnds_valid_iff a b
    refine ⟨fun k hk => ⟨_, exec_mirroredPollComplete hm hs a b, ?_⟩,
      fun n d hn hd => ⟨_, exec_mirroredPollComplete hm hs a b, ?_⟩,
      fun hok hk => ⟨_, exec_mirroredPollComplete hm hs a b, ?_⟩⟩
    · have on := afterPoll_goesOn (u := .pair p) (reply := combineEnds a b)
        (note := { slot := sc.slot, endA := a, endB := b }) hx.1 hk
      refine ⟨on.scan, ?_, fun n d hn hd => ?_, frame.quiet, frame.pieces, frame.doors⟩
      · simp only [← valid]
        exact on.state
      · rw [afterPoll_detector (u := .pair p) hx.1 hk]
        simp only [readEnds, hn]
        refine congrArg (fun r => (takeReading (takeMismatch s n a b) n r).detector n) ?_
        unfold combineEnds
        cases ha : replyKind a <;> cases hb : replyKind b <;> try rfl
        exact (eq_noReply_of_kind hb).symm
    · have read : readEnds s p sc.slot a b = takeReading (takeMismatch s n a b) n (combineEnds a b) := by
        simp only [readEnds, hn]
      rw [read]
      have aside := takeReading_aside (takeMismatch s n a b) n (combineEnds a b)
      beta_reduce
      intro flag
      have flagged : mismatchAfter d.mismatch a b = flag := by
        simp only [mismatchAfter, flag]
        cases replyKind a <;> cases replyKind b <;> rfl
      have detail : mismatchDetail a b = if replyKind a = .valid ∧ replyKind b = .valid then
          max (Reading.value a) (Reading.value b) - min (Reading.value a) (Reading.value b) else 0 := by
        unfold mismatchDetail
        cases replyKind a <;> cases replyKind b <;> rfl
      obtain ⟨e, he, hme⟩ := aside.mismatch.trans afterPoll_mismatchKept n _ (takeMismatch_detector hd a b)
      refine ⟨⟨e, he, hme.trans flagged⟩, fun hf hflag => ?_⟩
      have logged := takeMismatch_logged hd hf (flagged.trans hflag)
      obtain ⟨-, more, rest⟩ := aside.log.trans afterPoll_logGrows
      rw [detail] at logged
      exact ⟨more, logged.trans rest (takeMismatch_logGrows s n a b).1⟩
    · have last := afterPoll_last (u := .pair p) (reply := combineEnds a b)
        (note := { slot := sc.slot, endA := a, endB := b }) (hok.served_of_scan hs) hm hx hk
      simp only [← valid]
      exact ⟨last.ended, last.line, last.broken p rfl, freedBy_pair s p ▸ last.handedOut, frame.quiet, frame.pieces,
        frame.doors⟩

end Sys2Proof.Machine
end

section
/-! SUPPORT. The test of a zone: what its start and its end leave of zones, detectors and the log (R53, R55). -/

set_option autoImplicit false

namespace Sys2Proof.Machine

/-! ### The detectors of a zone -/

theorem mem_detectorsOf {s : State} {z : Fin 64} {p : Detector → Bool} {n : Fin 192} :
    n ∈ s.detectorsOf z p ↔ ∃ d, s.detector n = some d ∧ d.zone = z ∧ p d = true := by
  rw [detectorsOf_eq, List.mem_filter]
  cases s.detector n <;> simp [countsFor]

theorem detectorsOf_nodup (s : State) (z : Fin 64) (p : Detector → Bool) : (s.detectorsOf z p).Nodup :=
  indices_nodup ..

/-! ### The end of a test (R55) -/

/-- The record of a detector of a zone whose test has ended. -/
def Detector.disarmed (z : Fin 64) (d : Detector) : Detector := if d.zone = z then { d with testArmed := none } else d

/-- The records after the test of a zone has ended. -/
def testOff (s : State) (z : Fin 64) : State :=
  { s.modZone z fun r => { r with testTimer := none } with
    detectors := s.detectors.map fun d => d.map (Detector.disarmed z) }

theorem endTest_of_none {s : State} {z : Fin 64} (h : (s.zone z).testTimer = none) (c : TestEndCause) :
    endTest c s z = s := by
  simp [endTest, h]

/-- A test that ends leaves the records and its entry, and perhaps a trigger (R16, R55). -/
theorem endTest_onlyIn_engine {s : State} {z : Fin 64} (h : (s.zone z).testTimer ≠ none) (c : TestEndCause) :
    OnlyIn [.engine] (appendZone (testOff s z) .testEnded z (.testEnd c)) (endTest c s z) := by
  rw [endTest, if_pos (Option.isSome_iff_ne_none.mpr h)]
  dsimp only
  split
  · exact OnlyIn.refl _ _
  · exact trigger_onlyIn _

theorem append_zone (s : State) (k : EntryKind) (x : Subject) (w : Option (Fin 4)) (d : Detail) (z : Fin 64) :
    (append s k x w d).zone z = s.zone z := (append_onlyIn s k x w d).zone_eq (by decide) z

/-- Of the zones a test's end writes the test field of its own. -/
theorem endTest_zone (c : TestEndCause) (s : State) (z y : Fin 64) : (endTest c s z).zone y
    = if y = z then { s.zone y with testTimer := none } else s.zone y := by
  by_cases h : (s.zone z).testTimer = none
  · rw [endTest_of_none h]
    split
    next e => rw [e, ← h]
    next => rfl
  · rw [(endTest_onlyIn_engine h c).zone_eq (by decide), appendZone, append_zone]
    exact State.zone_modZone ..

theorem endTest_detector {s : State} {z : Fin 64} (h : (s.zone z).testTimer ≠ none) (c : TestEndCause) (n : Fin 192) :
    (endTest c s z).detector n = (s.detector n).map (Detector.disarmed z) := by
  rw [(endTest_onlyIn_engine h c).detector_eq (by decide), appendZone, append_detector]
  exact Tbl.get_map ..

theorem endTest_logged {s : State} {z : Fin 64} (h : (s.zone z).testTimer ≠ none) (c : TestEndCause) :
    Logged s (endTest c s z)
      [{ kind := .testEnded, subject := .zone z, wing := some (s.wingOf z), detail := .testEnd c }] := by
  have off : Logged s (testOff s z) [] := logged_nil rfl rfl
  have wing : (testOff s z).wingOf z = s.wingOf z := by
    rw [State.wingOf, show (testOff s z).zone z = _ from State.zone_modZone_self ..]
    rfl
  rw [← wing]
  exact (off.trans (append_logged ..) rfl).keep (endTest_onlyIn_engine h c .log (by decide))

/-- The end of a test changes no line of a door's precedence. -/
theorem endTest_works (c : TestEndCause) (s : State) (z : Fin 64) :
    Works ([.zones, .detectors, .engine] ++ logward) s (endTest c s z) := by
  refine ⟨endTest_within c s z, ?_, (endTest_aside c s z).log⟩
  by_cases h : (s.zone z).testTimer = none
  · rw [endTest_of_none h]
    exact InputsStand.refl s
  · have off : InputsStand s (testOff s z) := ⟨fun _ => rfl, fun _ => rfl, fun y => by
      rw [show (testOff s z).zone y = _ from State.zone_modZone ..]
      split <;> rfl⟩
    exact (off.trans (append_sameInputs ..).stand).trans
      (SameInputs.of_onlyIn (endTest_onlyIn_engine h c) (by decide)).stand

/-! ### The start of a test (R53) -/

/-- The record of a detector whose zone's test has started. -/
def Detector.underTest (d : Detector) : Detector :=
  match d.state with
  | .verifying _ | .preAlarm | .normal => { d with state := .normal, testArmed := some true }
  | .unmonitored | .alarm | .fault _ | .disabled => { d with testArmed := some (d.testArmed.getD false) }

theorem startTestOn_eq {s : State} {n : Fin 192} {d : Detector} (h : s.detector n = some d) :
    startTestOn s n = (abortVerify s n d .test).putDetector n (some d.underTest) := by
  simp only [startTestOn, h, Detector.underTest]
  cases d.state <;> rfl

theorem startTestOn_detector (s : State) (n m : Fin 192) :
    (startTestOn s n).detector m = if m = n then (s.detector n).map Detector.underTest else s.detector m := by
  cases h : s.detector n with
  | none =>
    simp only [startTestOn, h, Option.map_none]
    split
    next e => rw [e, h]
    next => rfl
  | some d => rw [startTestOn_eq h, State.detector_putDetector, abortVerify_detector, Option.map_some]

theorem startTestOn_works (s : State) (n : Fin 192) : Works detectorward s (startTestOn s n) := by
  cases h : s.detector n with
  | none => simp only [startTestOn, h]; exact Works.refl _ s
  | some d => rw [startTestOn_eq h]; exact (abortVerify_works ..).trans (putDetector_works ..)

theorem startTestOn_zone (s : State) (n : Fin 192) (z : Fin 64) : (startTestOn s n).zone z = s.zone z := by
  cases h : s.detector n with
  | none => simp only [startTestOn, h]
  | some d =>
    rw [startTestOn_eq h, State.zone_putDetector, abortVerify]
    split
    · exact append_zone ..
    · rfl

/-- The detectors of a zone whose test starts, and the test field (R53). -/
def testing (s : State) (z : Fin 64) : State :=
  let s1 := s.modZone z fun r => { r with testTimer := some Config.testSeconds }
  (s1.detectorsOf z fun _ => true).foldl startTestOn s1

/-- A test that starts leaves the records and its entry, then perhaps a trigger and the fire state (R16, R53, R60). -/
theorem startTest_onlyIn (s : State) (z : Fin 64) :
    ∃ t, OnlyIn [.engine] (appendZone (testing s z) .testStarted z .none) t ∧ startTest s z = deriveFire t z := by
  refine ⟨_, ?_, rfl⟩
  split
  · exact OnlyIn.refl _ _
  · exact trigger_onlyIn _

theorem testing_zone (s : State) (z y : Fin 64) : (testing s z).zone y
    = if y = z then { s.zone y with testTimer := some Config.testSeconds } else s.zone y := by
  have fold : ∀ (ns : List (Fin 192)) (t : State), (ns.foldl startTestOn t).zone y = t.zone y := fun ns => by
    induction ns with
    | nil => exact fun _ => rfl
    | cons n ns ih => exact fun t => (ih _).trans (startTestOn_zone ..)
  rw [testing, fold]
  exact State.zone_modZone ..

theorem testing_detector (s : State) (z : Fin 64) (n : Fin 192) (d : Detector) (h : s.detector n = some d) :
    (testing s z).detector n = some (if d.zone = z then d.underTest else d) := by
  rw [testing, detector_foldl startTestOn_detector (detectorsOf_nodup ..)]
  simp only [mem_detectorsOf, State.detector_modZone, h]
  by_cases e : d.zone = z <;> simp [e]

theorem testing_works (s : State) (z : Fin 64) : Works detectorward s (testing s z) :=
  (modZone_works (by rfl)).trans (Works.foldl startTestOn_works _ _)

/-- Of a zone's record the derived fire state writes the fire state (R60). -/
theorem deriveFire_zone (s : State) (z y : Fin 64) :
    (deriveFire s z).zone y = { s.zone y with fire := ((deriveFire s z).zone y).fire } ∧ (y ≠ z →
      (deriveFire s z).zone y = s.zone y) := by
  have written : ∀ f, (refreshExits (trigger (s.modZone z fun r => { r with fire := f })) z).zone y
      = if y = z then { s.zone y with fire := f } else s.zone y := fun f => by
    rw [(refreshExits_within _ z).1.zone_eq (by decide), (trigger_onlyIn _).zone_eq (by decide), State.zone_modZone]
  unfold deriveFire writeFire
  split
  · exact ⟨rfl, fun _ => rfl⟩
  · split
    · exact ⟨rfl, fun _ => rfl⟩
    · rw [written]
      refine ⟨?_, fun h => if_neg h⟩
      split <;> rfl

/-- What the start of a zone's test leaves (R53). -/
structure TestStarts (z : Fin 64) (s t : State) : Prop where
  timer : (t.zone z).testTimer = some Config.testSeconds
  others : ∀ y, y ≠ z → t.zone y = s.zone y
  detector : ∀ n d, s.detector n = some d → t.detector n = some (if d.zone = z then d.underTest else d)
  logged : LoggedAmong s t { kind := .testStarted, subject := .zone z, wing := some (s.wingOf z), detail := .none }
  works : Works detectorward s t

theorem startTest_starts (s : State) (z : Fin 64) : TestStarts z s (startTest s z) := by
  obtain ⟨t, ht, he⟩ := startTest_onlyIn s z
  have zone : ∀ y, t.zone y = if y = z then { s.zone y with testTimer := some Config.testSeconds } else s.zone y :=
    fun y => by rw [ht.zone_eq (by decide), appendZone, append_zone, testing_zone]
  have derived := deriveFire_works t z
  have entered : Works detectorward (testing s z) t :=
    ((append_works ..).mono (by decide)).trans ((Works.of_onlyIn ht (by decide)).mono (by decide))
  rw [he]
  refine ⟨?_, fun y hy => ?_, fun n d hd => ?_, ?_, ((testing_works s z).trans entered).trans derived⟩
  · rw [(deriveFire_zone t z z).1, zone, if_pos rfl]
  · rw [(deriveFire_zone t z y).2 hy, zone, if_neg hy]
  · rw [OnlyIn.detector_eq (deriveFire_onlyIn _ _) (by decide), ht.detector_eq (by decide), appendZone, append_detector,
      testing_detector s z n d hd]
  · rw [← (testing_works s z).inputs.wingOf_eq]
    exact loggedAmong_append (testing_works s z).log ((LogGrows.of_onlyIn ht (by decide)).trans derived.log)

end Sys2Proof.Machine
end

section
/-! The timers of zones (O54), and their tests on command (O39). -/

set_option autoImplicit false

namespace Sys2Proof.Machine

theorem occursWhen_of {ok : Bool} (h : ok = true) (s t : State) : occursWhen ok s t = .next (endEvent s t) := if_pos h

/-- The event of a zone's own timer that writes its record, with the entry of it or without one, starts no pass. -/
theorem endEvent_of_zone {s u : State} {ps : List Piece} (he : s.engine ≠ .opening) (hw : Within ps s u)
    (hps : ∀ p ∈ endPieces, p ∉ ps) :
    OnlyIn (doorward ++ outward) u (endEvent s u) ∧ PortsQuiet s (endEvent s u) ∧ DoorsKept s (endEvent s u)
      ∧ ChannelsKept [] s (endEvent s u) := by
  obtain ⟨hd, hc⟩ := endEvent_kept s u
  exact ⟨endEvent_onlyIn_of_ne (by rw [hw.1 .engine (hps _ (by decide))]; exact he),
    hw.2.trans (endEvent_portsQuiet s u), (DoorsKept.of_same (hw.1 .doors (hps _ (by decide)))).trans hd,
    (ChannelsKept.of_same (hw.1 .channels (hps _ (by decide)))).trans hc⟩

/-- Settles O54: the test ends with its entry, the zone becomes VACANT without one, and the zone becomes ARMED. -/
theorem zoneTimers : Obligations.ZoneTimers := by
  refine fun s z he => ⟨fun ht => ⟨_, occursWhen_of (by simp [ht]) .., ?_⟩,
    fun hv => ⟨_, occursWhen_of (by simp [hv]) .., ?_⟩, fun hx => ⟨_, occursWhen_of (by simp [hx]) .., ?_⟩⟩
  · have hn : (s.zone z).testTimer ≠ none := by simp [ht]
    have works := endTest_works .timeout s z
    obtain ⟨ended, quiet, -⟩ := endEvent_of_works works (by decide)
    refine ⟨?_, fun y hy => ?_, fun n d hd => ?_, ?_, quiet,
      (works.within.1.mono (by decide)).trans (ended.mono (by decide))⟩
    · rw [ended.zone_eq (by decide), endTest_zone, if_pos rfl]
    · rw [ended.zone_eq (by decide), endTest_zone, if_neg hy]
    · rw [ended.detector_eq (by decide), endTest_detector hn, hd]
      rfl
    · exact (endTest_logged hn .timeout).keep (ended .log (by decide))
  · have hw := modZone_onlyIn s z Zone.vacated
    obtain ⟨ended, quiet, doors, channels⟩ := endEvent_of_zone he (Within.of_onlyIn hw (by decide)) (by decide)
    refine ⟨?_, fun y hy => ?_, quiet, (hw.mono (by decide)).trans (ended.mono (by decide)), doors, channels⟩
    · rw [ended.zone_eq (by decide), State.zone_modZone_self]
      rfl
    · rw [ended.zone_eq (by decide), State.zone_modZone, if_neg hy]
  · have hw := setSecurity_append_within s z .armed .zoneArmed .none
    have zone : ∀ y, (appendZone (setSecurity s z .armed) .zoneArmed z .none).zone y
        = if y = z then { s.zone y with security := .armed } else s.zone y := fun y => by
      rw [appendZone, append_zone]
      exact State.zone_modZone ..
    have wing : (setSecurity s z .armed).wingOf z = s.wingOf z := by
      rw [State.wingOf, setSecurity, State.zone_modZone_self]
      rfl
    have logged : Logged s (setSecurity s z .armed) [] := logged_nil rfl rfl
    obtain ⟨ended, quiet, doors, channels⟩ := endEvent_of_zone he hw (by decide)
    refine ⟨?_, fun y hy => ?_, ?_, quiet, (hw.1.mono (by decide)).trans (ended.mono (by decide)), doors, channels⟩
    · rw [ended.zone_eq (by decide), zone, if_pos rfl]
    · rw [ended.zone_eq (by decide), zone, if_neg hy]
    · rw [← wing]
      exact (logged.trans (append_logged ..) rfl).keep (ended .log (by decide))

section
variable {s : State} {x : TakenRequest} {z : Fin 64}

theorem onZone_val (h : (s.zone z).configured = true) (k : Fin 64 → Verdict) : onZone s z.val k = k z := by
  rw [onZone, onObject_val, h, need_true]

/-- The verdict on a command about the test of a zone: it is taken while the zone's wing is in STANDBY (R53, R55). -/
theorem testVerdict_eq (h : nextCommand s = some x) (hs : s.inService = true) (hz : (s.zone z).configured = true)
    (hg : holdsService s x.port (s.wingOf z) = true) :
    doTestZoneOn z.val x.port x.state = need (s.atStandby (s.wingOf z)) .evacActive (done (startTest x.state z))
      ∧ doTestZoneOff z.val x.port x.state
        = need (s.atStandby (s.wingOf z)) .evacActive (done (endTest .off x.state z)) := by
  simp only [doTestZoneOn, doTestZoneOff, inServiceOnly, taken_inService h, hs, need_true,
    onZone_val ((congrArg Zone.configured (taken_zone h z)).trans hz), taken_holdsService h, taken_wingOf h, hg,
    atStandby_eq, taken_wing h, and_self]

/-- Settles O39: the test starts on every detector of the zone, ends with its entry, or is refused. -/
theorem testZone : Obligations.TestZone := by
  intro s x z hs hz hg
  refine ⟨fun h hw => ?_, fun k h hw ht => ?_, fun h hw ht => ?_, fun i hi h hw => ?_⟩
  · obtain ⟨on, -⟩ := testVerdict_eq h.2.1 hs hz hg
    have starts := startTest_starts x.state z
    refine (completes_of_worksPass h rfl (by rw [on, hw, need_true, done]) starts.works (by decide)).mono
      fun t ⟨ended, ho, _⟩ => ⟨?_, fun y hy => ?_, fun n d hd hdz => ⟨d.underTest, ?_, ?_⟩, fun n d hd hdz => ?_, ?_,
        ho.mono (by decide)⟩
    · rw [ended.zone_eq (by decide), starts.timer]
      rfl
    · rw [ended.zone_eq (by decide), starts.others y hy, taken_zone h.2.1]
    · rw [ended.detector_eq (by decide), starts.detector n d ((taken_detector h.2.1 n).trans hd), if_pos hdz]
    · unfold Detector.underTest
      cases d.state <;> simp [DetectorState.raised]
    · rw [ended.detector_eq (by decide), starts.detector n d ((taken_detector h.2.1 n).trans hd), if_neg hdz]
    · rw [← taken_wingOf h.2.1]
      exact (starts.logged.late (.of_onlyIn (nextCommand_onlyIn h.2.1) (by decide))).grow
        (starts.works.log.1.trans (nextCommand_onlyIn h.2.1 .seconds (by decide))) (.of_onlyIn ended (by decide))
  · obtain ⟨-, off⟩ := testVerdict_eq h.2.1 hs hz hg
    have hn : (x.state.zone z).testTimer ≠ none := by simp [taken_zone h.2.1, ht]
    refine (completes_of_worksPass h rfl (by rw [off, hw, need_true, done]) (endTest_works .off x.state z)
      (by decide)).mono fun t ⟨ended, ho, _⟩ => ⟨?_, fun y hy => ?_, fun n d hd => ?_, ?_, ho.mono (by decide)⟩
    · rw [ended.zone_eq (by decide), endTest_zone, if_pos rfl, taken_zone h.2.1]
    · rw [ended.zone_eq (by decide), endTest_zone, if_neg hy, taken_zone h.2.1]
    · rw [ended.detector_eq (by decide), endTest_detector hn, taken_detector h.2.1, hd]
      rfl
    · rw [← taken_wingOf h.2.1]
      exact (taken_logged h.2.1 (endTest_logged hn .off)).keep (ended .log (by decide))
  · obtain ⟨-, off⟩ := testVerdict_eq h.2.1 hs hz hg
    refine answersOnly_of_unchanged h rfl ?_
    rw [off, hw, need_true, endTest_of_none (by rw [taken_zone h.2.1, ht]), done]
  · obtain ⟨on, off⟩ := testVerdict_eq h.2.1 hs hz hg
    rcases hi with rfl | rfl
    · exact answersOnly_of_refused h rfl (by rw [on, hw, need_false])
    · exact answersOnly_of_refused h rfl (by rw [off, hw, need_false])

end

end Sys2Proof.Machine
end

section
/-! The entries of the detector, loop and scan-list tables (O43). -/

set_option autoImplicit false

namespace Sys2Proof.Machine

variable {s : State} {x : TakenRequest}

/-! ### Detectors (R3, R15, R40) -/

theorem recountZone_sameInputs (s : State) (z : Fin 64) : SameInputs s (recountZone s z) := modZone_sameInputs rfl

theorem recountOld_sameInputs (old : Option Detector) (s : State) : SameInputs s (recountOld old s) := by
  cases old with
  | none => exact {}
  | some d => exact recountZone_sameInputs ..

/-- A change of the detector table reaches the detectors and the counts of the zones. -/
structure TableWritten (n : Fin 192) (new : Option Detector) (s t : State) : Prop where
  pieces : OnlyIn [.zones, .detectors] s t
  inputs : SameInputs s t
  detector : ∀ m, t.detector m = if m = n then new else s.detector m

theorem TableWritten.recountZone {n : Fin 192} {new : Option Detector} {t : State} (h : TableWritten n new s t)
    (z : Fin 64) : TableWritten n new s (recountZone t z) :=
  ⟨h.pieces.trans ((recountZone_onlyIn t z).mono (by decide)), h.inputs.trans (recountZone_sameInputs ..), h.detector⟩

theorem recountOld_putDetector_written (s : State) (n : Fin 192) (old new : Option Detector) :
    TableWritten n new s (recountOld old (s.putDetector n new)) := by
  have ho := recountOld_onlyIn old (s.putDetector n new)
  exact ⟨((putDetector_onlyIn s n new).mono (by decide)).trans (ho.mono (by decide)),
    .trans {} (recountOld_sameInputs ..), fun m => by rw [ho.detector_eq (by decide), State.detector_putDetector]⟩

/-- The record that an entry gives a detector: a new one, or the old one with its configuration fields written (R40). -/
def placedRecord (s : State) (n : Fin 192) (l : Fin 4) (a : Nat) (z : Fin 64) (c : Fin 8) : Detector :=
  match s.detector n with
  | some d => { d with loop := l, address := a, zone := z, cls := c }
  | none => newDetector l a z c (s.cls c)

theorem placeDetector_written (s : State) (n : Fin 192) (l : Fin 4) (a : Nat) (z : Fin 64) (c : Fin 8) :
    TableWritten n (some (placedRecord s n l a z c)) s (placeDetector s n l a z c) :=
  (recountOld_putDetector_written ..).recountZone z

/-- The zone of a placed detector has its counts taken anew (R3). -/
theorem placeDetector_counted (s : State) (n : Fin 192) (l : Fin 4) (a : Nat) (z : Fin 64) (c : Fin 8) :
    CountedAt (placeDetector s n l a z c) z := countedAt_recountZone_self ..

theorem removeDetector_written (s : State) (n : Fin 192) : TableWritten n none s (removeDetector s n) :=
  recountOld_putDetector_written ..

/-- The completion of an entry of the detector table. -/
theorem completes_of_tableWritten {i : Instr} {act : Station → State → Verdict} {n : Fin 192} {new : Option Detector}
    {u : State} (h : Ready i s x) (hx : exec i s = runCommand i act s) (ha : act x.port x.state = done u)
    (hu : TableWritten n new x.state u) :
    Completes i s x .done .none fun t => OnlyIn outward u t ∧ t.detector n = new
      ∧ (∀ m, m ≠ n → t.detector m = s.detector m) ∧ OnlyIn ([Piece.zones, .detectors] ++ answering) s t := by
  refine (completes_of_entry h hx ha hu.pieces (by decide) hu.inputs).mono fun t ⟨ended, ho⟩ =>
    ⟨ended, ?_, fun m hm => ?_, ho⟩
  · rw [ended.detector_eq (by decide), hu.detector, if_pos rfl]
  · rw [ended.detector_eq (by decide), hu.detector, if_neg hm, taken_detector h.2.1]

/-- The verdict on a detector's entry whose object numbers are in range (R40). -/
theorem doWriteEntryDetector_eq {st : Station} (hs : s.inService = false) (hg : st ≠ .guard) (n : Fin 192) (l : Fin 4)
    (a : Nat) (z : Fin 64) (c : Fin 8) : doWriteEntryDetector n.val (.placed l.val a z.val c.val) st s
      = need (decide (1 ≤ a ∧ a ≤ 48)) .badValue (done (placeDetector s n l a z c)) := by
  simp only [doWriteEntryDetector, configuringOnly_eq hs, onObject_val, underConfig_eq hg, Bool.decide_and]

theorem doWriteEntryDetector_badObject {st : Station} (hs : s.inService = false) {n : Nat} {f : DetectorFields}
    (h : 192 ≤ n ∨ ∃ l a z c, f = .placed l a z c ∧ (4 ≤ l ∨ 64 ≤ z ∨ 8 ≤ c)) :
    doWriteEntryDetector n f st s = .refused .badObject .none := by
  rw [doWriteEntryDetector, configuringOnly_eq hs]
  rcases h with hn | ⟨l, a, z, c, rfl, hl | hz | hc⟩
  · exact onObject_of_le hn _
  · exact onObject_eq (.inr rfl) fun _ => onObject_of_le hl _
  · exact onObject_eq (.inr rfl) fun _ => onObject_eq (.inr rfl) fun _ => onObject_of_le hz _
  · exact onObject_eq (.inr rfl) fun _ => onObject_eq (.inr rfl) fun _ => onObject_eq (.inr rfl) fun _ =>
      onObject_of_le hc _

/-! ### Loops (R19) -/

/-- What an entry of a loop's mode writes: both loops of a pair that is made or unmade, or the in use field alone. -/
def entryLoop (s : State) (l : Fin 4) (u : Bool) (m : LoopMode) : State :=
  if m = .independent ∧ (s.loop l).mode = .independent then s.modLoop l fun r => { r with inUse := u }
  else configureMode s l m

/-- The verdict on a loop's entry: MIRRORED stands on a lower loop alone (R19). -/
theorem doWriteEntryLoop_eq {st : Station} (hs : s.inService = false) (hg : st ≠ .guard) (l : Fin 4) (u : Bool)
    (m : LoopMode) : doWriteEntryLoop l.val u (some m) st s
      = need (decide (m = .independent ∨ l.val < 2)) .badValue (done (entryLoop s l u m)) := by
  simp only [doWriteEntryLoop, configuringOnly_eq hs, onObject_val, underConfig_eq hg, onValue, Bool.decide_or, entryLoop]
  split <;> rfl

theorem writePairMode_loop (s : State) (l k : Fin 4) (f : Loop → Loop) : (writePairMode s l f).loop k
    = if k = l ∨ k = partnerOf l then f (s.loop k) else s.loop k := by
  rw [writePairMode, State.loop_modLoop, State.loop_modLoop]
  have := partnerOf_ne l
  by_cases h : k = l
  · subst h
    simp [this.symm]
  · simp [h]

theorem completes_of_loopEntry {l : Fin 4} {u : Bool} {m : LoopMode} {y : State}
    (h : Ready (.writeEntryLoop l.val u (some m)) s x) (hs : x.state.inService = false) (hg : x.port ≠ .guard)
    (hm : m = .independent ∨ l.val < 2) (hy : entryLoop x.state l u m = y) (ho : OnlyIn [.loops] x.state y) :
    Completes (.writeEntryLoop l.val u (some m)) s x .done .none fun t =>
      (∀ k, t.loop k = y.loop k) ∧ OnlyIn ([Piece.loops] ++ answering) s t := by
  refine (completes_of_entry h rfl (u := y) ?_ ho (by decide) (.of_onlyIn ho (by decide))).mono fun t ⟨ended, hst⟩ =>
    ⟨ended.loop_eq (by decide), hst⟩
  rw [doWriteEntryLoop_eq hs hg, decide_eq_true hm, need_true, hy, done]

/-- An entry that makes or unmakes a pair. -/
theorem completes_of_pairEntry {l : Fin 4} {u : Bool} {m : LoopMode} {f : Loop → Loop}
    (h : Ready (.writeEntryLoop l.val u (some m)) s x) (hs : x.state.inService = false) (hg : x.port ≠ .guard)
    (hm : m = .independent ∨ l.val < 2) (hy : entryLoop x.state l u m = writePairMode x.state l f) :
    Completes (.writeEntryLoop l.val u (some m)) s x .done .none fun t =>
      t.loop l = f (s.loop l) ∧ t.loop (partnerOf l) = f (s.loop (partnerOf l))
        ∧ (∀ k, k ≠ l → k ≠ partnerOf l → t.loop k = s.loop k) ∧ OnlyIn ([Piece.loops] ++ answering) s t := by
  refine (completes_of_loopEntry h hs hg hm hy (writePairMode_onlyIn _ _ _)).mono fun t ⟨ht, hst⟩ =>
    ⟨?_, ?_, fun k hk hp => ?_, hst⟩
  · rw [ht, writePairMode_loop, if_pos (.inl rfl), taken_loop h.2.1]
  · rw [ht, writePairMode_loop, if_pos (.inr rfl), taken_loop h.2.1]
  · rw [ht, writePairMode_loop, if_neg (by simp [hk, hp]), taken_loop h.2.1]

/-! ### Scan lists (R20) -/

/-- The slot that an entry's fields give, where their address stands. -/
def givenSlot : SlotFields → Option ScanSlot
  | .endMark => some .endMark
  | .address a e => if 1 ≤ a ∧ a ≤ 48 then some (.address a e) else none

theorem doWriteEntryScanList_eq {st : Station} (hs : s.inService = false) (hg : st ≠ .guard) (l : Fin 4) (k : Fin 48)
    (f : SlotFields) : doWriteEntryScanList l.val k.val f st s = match givenSlot f with
      | some y => done (s.putSlot l k y)
      | none => .refused .badValue .none := by
  simp only [doWriteEntryScanList, configuringOnly_eq hs, onObject_val, underConfig_eq hg]
  cases f with
  | endMark => rfl
  | address a e =>
    by_cases h : 1 ≤ a ∧ a ≤ 48
    · simp [givenSlot, h]
    · simp only [givenSlot, if_neg h, ← Bool.decide_and, decide_eq_false h, need_false]

/-! ### The obligation -/

/-- Settles O43: an entry of the detector, loop or scan-list table writes its records, or is refused by the first of its
object numbers or values that does not stand. -/
theorem entriesOfDetection : Obligations.EntriesOfDetection := by
  intro s x hp hg
  have hc : ∀ {i}, Ready i s x → x.state.inService = false := fun h => taken_configuring h.2.1 hp
  refine ⟨fun n l a z c h => ⟨fun h1 h48 => ?_, fun ha => ?_⟩, fun n h => ?_,
    fun l u m h => ⟨fun hm hl => ?_, fun hm hl => ?_, fun hm hold => ?_, fun hm hold => ?_⟩,
    fun l k f h => ⟨fun y hy => ?_, fun a e hf ha => ?_⟩, fun n f h hbad => ?_,
    fun l u m h => ⟨fun hl => ?_, fun hl hm => ?_⟩, fun l k f h hbad => ?_⟩
  · have hw := placeDetector_written x.state n l a z c
    refine (completes_of_tableWritten h rfl ?_ hw).mono fun t ⟨ended, hn, hothers, ho⟩ => ⟨?_, hothers, ?_, ho⟩
    · rw [doWriteEntryDetector_eq (hc h) hg, decide_eq_true ⟨h1, h48⟩, need_true]
    · rw [hn, placedRecord, taken_detector h.2.1, taken_cls h.2.1]
      cases s.detector n <;> rfl
    · have counted := placeDetector_counted x.state n l a z c
      simp only [CountedAt, Zone.counts, Prod.mk.injEq] at counted
      rw [ended.zone_eq (by decide), counted.1]
      exact congrArg List.length (detectorsOf_congr fun m => by rw [ended.detector_eq (by decide)]).symm
  · refine answersOnly_of_refused h rfl ?_
    rw [doWriteEntryDetector_eq (hc h) hg, decide_eq_false (by omega), need_false]
  · refine (completes_of_tableWritten h rfl ?_ (removeDetector_written x.state n)).mono fun t ⟨_, hn, hothers, ho⟩ =>
      ⟨hn, hothers, ho⟩
    simp only [doWriteEntryDetector, configuringOnly_eq (hc h), onObject_val, underConfig_eq hg]
  · subst hm
    exact completes_of_pairEntry (f := fun r => { r with mode := .mirrored, inUse := true }) h (hc h) hg (.inr hl)
      (by simp [entryLoop, configureMode])
  · refine answersOnly_of_refused h rfl ?_
    rw [doWriteEntryLoop_eq (hc h) hg, decide_eq_false (by simp [hm, Nat.not_lt.mpr hl]), need_false]
  · subst hm
    exact completes_of_pairEntry (f := fun r => { r with mode := .independent }) h (hc h) hg (.inl rfl) (by
      simp [entryLoop, configureMode, (congrArg Loop.mode (taken_loop h.2.1 l)).trans hold])
  · subst hm
    refine (completes_of_loopEntry h (hc h) hg (.inl rfl) ?_
      (modLoop_onlyIn x.state l fun r => { r with inUse := u })).mono fun t ⟨ht, ho⟩ => ⟨?_, fun k hk => ?_, ho⟩
    · rw [entryLoop, if_pos ⟨rfl, (congrArg Loop.mode (taken_loop h.2.1 l)).trans hold⟩]
    · rw [ht, State.loop_modLoop_self, taken_loop h.2.1]
    · rw [ht, State.loop_modLoop, if_neg hk, taken_loop h.2.1]
  · have hslot : givenSlot f = some y := by
      rcases hy with ⟨rfl, rfl⟩ | ⟨a, e, rfl, h1, h48, rfl⟩
      · rfl
      · exact if_pos ⟨h1, h48⟩
    have hu := putSlot_onlyIn x.state l k y
    refine (completes_of_entry h rfl ?_ hu (by decide) (.of_onlyIn hu (by decide))).mono fun t ⟨ended, ho⟩ =>
      ⟨?_, fun m j hmj => ?_, ho⟩
    · rw [doWriteEntryScanList_eq (hc h) hg, hslot]
      rfl
    · rw [ended.slot_eq (by decide), State.slot_putSlot, if_pos ⟨rfl, rfl⟩]
    · rw [ended.slot_eq (by decide), State.slot_putSlot, if_neg (by tauto),
        (nextCommand_onlyIn h.2.1).slot_eq (by decide)]
  · refine answersOnly_of_refused h rfl ?_
    have hslot : givenSlot f = none := by rw [hf]; exact if_neg (by omega)
    rw [doWriteEntryScanList_eq (hc h) hg, hslot]
  · exact answersOnly_of_refused h rfl (doWriteEntryDetector_badObject (hc h) hbad)
  · refine answersOnly_of_refused h rfl ?_
    rw [doWriteEntryLoop, configuringOnly_eq (hc h), onObject_of_le hl]
  · refine answersOnly_of_refused h rfl ?_
    rw [doWriteEntryLoop, configuringOnly_eq (hc h), hm]
    exact onObject_eq (.inl hl) fun _ => by rw [underConfig_eq hg, onValue]
  · refine answersOnly_of_refused h rfl ?_
    rw [doWriteEntryScanList, configuringOnly_eq (hc h)]
    rcases hbad with hl | hk
    · exact onObject_of_le hl _
    · exact onObject_eq (.inr rfl) fun _ => onObject_of_le hk _

end Sys2Proof.Machine
end

section
/-! SUPPORT. Folds over the records of a state, the wings but for their revisions, and what an operation beside a wing's
own leaves of what the wing's leaving of STANDBY has done (R70). -/

set_option autoImplicit false

namespace Sys2Proof.Machine

/-! ### Folds -/

/-- A reading that each step of a fold changes at its own index alone, by a change that a repetition leaves as it is. -/
theorem read_foldl {σ ι ρ : Type} [DecidableEq ι] {inv : σ → Prop} {f : σ → ι → σ} {read : σ → ι → ρ} {h : ρ → ρ}
    (hinv : ∀ s a, inv s → inv (f s a)) (hh : ∀ r, h (h r) = h r)
    (hf : ∀ s a y, inv s → read (f s a) y = if y = a then h (read s y) else read s y) (xs : List ι) {s : σ} (hs : inv s)
    (y : ι) : read (xs.foldl f s) y = if y ∈ xs then h (read s y) else read s y := by
  induction xs generalizing s with
  | nil => rfl
  | cons a xs ih =>
    rw [List.foldl_cons, ih (hinv s a hs), hf s a y hs]
    by_cases ha : y = a <;> by_cases hm : y ∈ xs <;> simp [ha, hm, hh]

/-- What no step of a fold changes. -/
theorem foldl_same {σ α β : Type} {f : σ → α → σ} {g : σ → β} {xs : List α}
    (h : ∀ s, ∀ a ∈ xs, g (f s a) = g s) (s : σ) : g (xs.foldl f s) = g s := by
  induction xs generalizing s with
  | nil => rfl
  | cons a xs ih =>
    rw [List.foldl_cons, ih fun t b hb => h t b (List.mem_cons_of_mem a hb), h s a List.mem_cons_self]

/-- An entry that the first step of a fold at an index appends. -/
theorem loggedAmong_foldl {α : Type} {f : State → α → State} (hf : ∀ s a, LogGrows s (f s a)) {xs : List α} {a : α}
    (ha : a ∈ xs) {s : State} {x : LogItem}
    (h : ∀ front : List α, a ∉ front → LoggedAmong (front.foldl f s) (f (front.foldl f s) a) x) :
    LoggedAmong s (xs.foldl f s) x := by
  obtain ⟨front, back, rfl, hn⟩ := List.eq_append_cons_of_mem ha
  have before := LogGrows.foldl hf front s
  have after := LogGrows.foldl hf back (f (front.foldl f s) a)
  rw [List.foldl_append, List.foldl_cons]
  exact .late before ((h front hn).grow (hf _ _).1 after)

/-! ### Reads of a state through a frame -/

theorem OnlyIn.channel_eq {ps : List Piece} {s t : State} (h : OnlyIn ps s t) (hp : Piece.channels ∉ ps) (n : Fin 276) :
    t.channel n = s.channel n := by rw [State.channel, State.channel, show t.channels = s.channels from h .channels hp]

theorem OnlyIn.point_eq {ps : List Piece} {s t : State} (h : OnlyIn ps s t) (hp : Piece.points ∉ ps) (c : Fin 64) :
    t.point c = s.point c := by rw [State.point, State.point, show t.points = s.points from h .points hp]

theorem OnlyIn.call_eq {ps : List Piece} {s t : State} (h : OnlyIn ps s t) (hp : Piece.points ∉ ps) (c : Fin 64) :
    t.call c = s.call c := by rw [State.call, State.call, h.point_eq hp]

theorem wingOf_of_zone_eq {s t : State} {z : Fin 64} (h : t.zone z = s.zone z) : t.wingOf z = s.wingOf z :=
  congrArg Zone.wing h

theorem mem_zonesOf {s : State} {w : Fin 4} {z : Fin 64} :
    z ∈ s.zonesOf w ↔ (s.zone z).configured = true ∧ s.wingOf z = w := by
  rw [State.zonesOf, Tbl.mem_indices]
  simp [State.wingOf, State.zone]

theorem zonesOf_congr {s t : State} (hc : ∀ z, (t.zone z).configured = (s.zone z).configured)
    (hw : ∀ z, t.wingOf z = s.wingOf z) (w : Fin 4) : t.zonesOf w = s.zonesOf w := by
  rw [State.zonesOf, State.zonesOf, Tbl.indices_eq_filter, Tbl.indices_eq_filter]
  refine List.filter_congr fun z _ => ?_
  rw [show (t.zones.get z).configured = (s.zones.get z).configured from hc z,
    show (t.zones.get z).wing = (s.zones.get z).wing from hw z]

/-! ### The wings but for their revisions -/

/-- A wing's record without its revision, which every entry about the wing advances (R12). -/
def Wing.unstamped (r : Wing) : Wing := { r with revision := 0 }

/-- No wing changes but in its revision. -/
def Stamped (s t : State) : Prop := ∀ v, (t.wing v).unstamped = (s.wing v).unstamped

theorem Stamped.refl (s : State) : Stamped s s := fun _ => rfl

theorem Stamped.trans {s t u : State} (h : Stamped s t) (k : Stamped t u) : Stamped s u := fun v => (k v).trans (h v)

theorem Stamped.foldl {α : Type} {f : State → α → State} (h : ∀ s x, Stamped s (f s x)) :
    ∀ (xs : List α) (s : State), Stamped s (xs.foldl f s)
  | [], s => Stamped.refl s
  | x :: xs, s => (h s x).trans (Stamped.foldl h xs (f s x))

theorem Stamped.ite {c : Prop} [Decidable c] {s t u : State} (ht : Stamped s t) (hu : Stamped s u) :
    Stamped s (if c then t else u) := by
  split
  · exact ht
  · exact hu

theorem Stamped.of_onlyIn {ps : List Piece} {s t : State} (h : OnlyIn ps s t) (hp : Piece.wings ∉ ps) : Stamped s t :=
  fun v => by rw [h.wing_eq hp]

theorem append_stamped (s : State) (k : EntryKind) (x : Subject) (w : Option (Fin 4)) (d : Detail) :
    Stamped s (append s k x w d) := fun v => by
  rw [append_wing]
  split <;> rfl

/-- A change of other pieces than the wings, with the entry of it. -/
theorem Stamped.append {s t : State} (h : Stamped s t) (k : EntryKind) (x : Subject) (w : Option (Fin 4)) (d : Detail) :
    Stamped s (append t k x w d) := h.trans (append_stamped t k x w d)

theorem Stamped.stage {s t : State} (h : Stamped s t) (v : Fin 4) : (t.wing v).stage = (s.wing v).stage :=
  (congrArg Wing.stage (h v) :)

/-- A write of one wing's record. -/
theorem modWing_unstamped (s : State) (w : Fin 4) (f : Wing → Wing) (v : Fin 4) : ((s.modWing w f).wing v).unstamped
    = if v = w then (f (s.wing v)).unstamped else (s.wing v).unstamped := by
  rw [State.wing_modWing]
  split <;> rfl

theorem atStandby_congr {s t : State} {w : Fin 4} (h : (t.wing w).stage = (s.wing w).stage) :
    t.atStandby w = s.atStandby w := by rw [atStandby_eq, atStandby_eq, h]

/-! ### Beside a wing's leaving of STANDBY -/

/-- What a channel keeps when its source value is written (R149). -/
theorem Channel.rig_of_kept {a b : Channel} (h : b.kept = a.kept) :
    b.wing = a.wing ∧ b.latch = a.latch ∧ b.drive = a.drive :=
  ⟨congrArg (fun c => c.wing) h, congrArg (fun c => c.latch) h, congrArg (fun c => c.drive) h⟩

/-- What leaves alone all that the leaving of STANDBY by the wing `w` reads and writes: its lockdown, its alert where it
is not in STANDBY, the arming and the tests of its zones, and the latches and the drives of its channels. -/
structure Beside (w : Fin 4) (s t : State) : Prop where
  lockdown : (t.wing w).lockdown = (s.wing w).lockdown
  awake : s.atStandby w = false → t.atStandby w = false ∧ (t.wing w).alerted = (s.wing w).alerted
  configured : ∀ z, (t.zone z).configured = (s.zone z).configured
  wingOf : ∀ z, t.wingOf z = s.wingOf z
  zone : ∀ z ∈ s.zonesOf w, (t.zone z).security = (s.zone z).security ∧ (t.zone z).testTimer = (s.zone z).testTimer
  owner : ∀ n, (t.channel n).wing = (s.channel n).wing
  channel : ∀ n, (s.channel n).wing = some w →
    (t.channel n).latch = (s.channel n).latch ∧ (t.channel n).drive = (s.channel n).drive
  log : LogGrows s t

theorem Beside.zonesOf {w : Fin 4} {s t : State} (h : Beside w s t) (v : Fin 4) : t.zonesOf v = s.zonesOf v :=
  zonesOf_congr h.configured h.wingOf v

theorem Beside.refl (w : Fin 4) (s : State) : Beside w s s :=
  ⟨rfl, fun h => ⟨h, rfl⟩, fun _ => rfl, fun _ => rfl, fun _ _ => ⟨rfl, rfl⟩, fun _ => rfl, fun _ _ => ⟨rfl, rfl⟩,
    LogGrows.refl s⟩

theorem Beside.trans {w : Fin 4} {s t u : State} (h : Beside w s t) (k : Beside w t u) : Beside w s u where
  lockdown := k.lockdown.trans h.lockdown
  awake hs :=
    have ht := h.awake hs
    have hu := k.awake ht.1
    ⟨hu.1, hu.2.trans ht.2⟩
  configured z := (k.configured z).trans (h.configured z)
  wingOf z := (k.wingOf z).trans (h.wingOf z)
  zone z hz :=
    have hu := k.zone z (h.zonesOf w ▸ hz)
    ⟨hu.1.trans (h.zone z hz).1, hu.2.trans (h.zone z hz).2⟩
  owner n := (k.owner n).trans (h.owner n)
  channel n hn :=
    have hu := k.channel n ((h.owner n).trans hn)
    ⟨hu.1.trans (h.channel n hn).1, hu.2.trans (h.channel n hn).2⟩
  log := h.log.trans k.log

theorem Beside.foldl {w : Fin 4} {α : Type} {f : State → α → State} (h : ∀ s x, Beside w s (f s x)) :
    ∀ (xs : List α) (s : State), Beside w s (xs.foldl f s)
  | [], s => Beside.refl w s
  | x :: xs, s => (h s x).trans (Beside.foldl h xs (f s x))

/-- A change of a wing's record, and of channels' values. -/
theorem Beside.of_wing {ps : List Piece} {w : Fin 4} {s t : State} (h : OnlyIn ps s t) (hz : Piece.zones ∉ ps)
    (hc : ∀ n, (t.channel n).kept = (s.channel n).kept) (hl : LogGrows s t)
    (lockdown : (t.wing w).lockdown = (s.wing w).lockdown)
    (awake : s.atStandby w = false → t.atStandby w = false ∧ (t.wing w).alerted = (s.wing w).alerted) : Beside w s t where
  lockdown := lockdown
  awake := awake
  configured z := by rw [h.zone_eq hz]
  wingOf z := wingOf_of_zone_eq (h.zone_eq hz z)
  zone z _ := by rw [h.zone_eq hz]; exact ⟨rfl, rfl⟩
  owner n := (Channel.rig_of_kept (hc n)).1
  channel n _ := (Channel.rig_of_kept (hc n)).2
  log := hl

/-- A change that writes no wing but in its revision, no zone, and of the channels the values alone. -/
theorem Stamped.beside {ps : List Piece} {s t : State} (h : Stamped s t) (ho : OnlyIn ps s t) (hz : Piece.zones ∉ ps)
    (hc : ∀ n, (t.channel n).kept = (s.channel n).kept) (hl : LogGrows s t) (w : Fin 4) : Beside w s t :=
  .of_wing ho hz hc hl (congrArg Wing.lockdown (h w) :) fun hs =>
    ⟨(atStandby_congr (h.stage w)).trans hs, (congrArg Wing.alerted (h w) :)⟩

/-- What is done beside a wing before it leaves STANDBY. -/
theorem LeavesStandby.late {w : Fin 4} {b s t : State} (k : LeavesStandby w s t) (h : Beside w b s) :
    LeavesStandby w b t := by
  obtain ⟨hlock, halert, hlog, hzones, hchannels⟩ := k
  refine ⟨hlock, halert, fun hl => .late h.log (hlog (h.lockdown.trans hl)), fun z hz => ?_,
    fun n hn => hchannels n ((h.owner n).trans hn)⟩
  obtain ⟨hsec, htest⟩ := h.zone z hz
  obtain ⟨ksec, ktest, kentry, kended⟩ := hzones z (h.zonesOf w ▸ hz)
  rw [hsec] at ksec
  rw [htest] at kended
  refine ⟨ksec, ktest, fun x hx => .late h.log (kentry x ?_), fun ht => .late h.log (kended ht)⟩
  rw [suspendEntry, hsec, h.wingOf]
  exact hx

/-- What is done beside a wing after it has left STANDBY. -/
theorem LeavesStandby.grow {w : Fin 4} {s t u : State} (k : LeavesStandby w s t) (hs : LogGrows s t)
    (hw : t.atStandby w = false) (hz : t.zonesOf w = s.zonesOf w) (ho : ∀ n, (t.channel n).wing = (s.channel n).wing)
    (h : Beside w t u) : LeavesStandby w s u := by
  obtain ⟨hlock, halert, hlog, hzones, hchannels⟩ := k
  have grown : ∀ {x}, LoggedAmong s t x → LoggedAmong s u x := fun hx => hx.grow hs.1 h.log
  refine ⟨h.lockdown.trans hlock, (h.awake hw).2.trans halert, fun hl => grown (hlog hl), fun z hm => ?_, fun n hn => ?_⟩
  · obtain ⟨ksec, ktest, kentry, kended⟩ := hzones z hm
    obtain ⟨hsec, htest⟩ := h.zone z (hz ▸ hm)
    exact ⟨hsec.trans ksec, htest.trans ktest, fun x hx => grown (kentry x hx), fun ht => grown (kended ht)⟩
  · obtain ⟨hlatch, hdrive⟩ := h.channel n ((ho n).trans hn)
    exact ⟨hlatch.trans (hchannels n hn).1, hdrive.trans (hchannels n hn).2⟩

end Sys2Proof.Machine
end

section
/-! SUPPORT. What the leaving of STANDBY leaves of the wing, its zones, its channels and the detectors under test, each with
its entry (R55, R70, R91, R109, R155). -/

set_option autoImplicit false

namespace Sys2Proof.Machine

/-! ### Suspension (R91) -/

theorem suspendedSecurity_idem (x : Security) : suspendedSecurity (suspendedSecurity x) = suspendedSecurity x := by
  cases x <;> rfl

theorem suspendZone_zone (c : SuspendCause) (s : State) (z y : Fin 64) : (suspendZone c s z).zone y
    = if y = z then { s.zone y with security := suspendedSecurity (s.zone y).security } else s.zone y := by
  have written : ∀ x k d, (appendZone (setSecurity s z x) k z d).zone y
      = if y = z then { s.zone y with security := x } else s.zone y := fun x k d => by
    rw [appendZone, append_zone]
    exact State.zone_modZone ..
  by_cases hy : y = z
  · subst hy
    unfold suspendZone
    cases h : (s.zone y).security <;> simp only [written, if_true, suspendedSecurity, ← h]
  · unfold suspendZone
    split <;> simp only [written, if_neg hy]

theorem suspendZone_stamped (c : SuspendCause) (s : State) (z : Fin 64) : Stamped s (suspendZone c s z) := by
  have written : ∀ x k d, Stamped s (appendZone (setSecurity s z x) k z d) := fun x k d =>
    (Stamped.of_onlyIn (modZone_onlyIn s z _) (by decide)).append _ _ _ _
  unfold suspendZone
  split
  · exact written _ _ _
  · exact written _ _ _
  all_goals exact Stamped.refl s

theorem suspendZone_logged {c : SuspendCause} {s : State} {z : Fin 64} {x : LogItem} (hx : x ∈ suspendEntry s z c) :
    LoggedAmong s (suspendZone c s z) x := by
  have entered : ∀ y d, LoggedAmong s (appendZone (setSecurity s z y) .armSuspended z d)
      { kind := .armSuspended, subject := .zone z, wing := some (s.wingOf z), detail := d } := fun y d => by
    have wing : (setSecurity s z y).wingOf z = s.wingOf z := by
      rw [State.wingOf, setSecurity, State.zone_modZone_self]
      rfl
    have logged : LoggedAmong s (appendZone (setSecurity s z y) .armSuspended z d)
        { kind := .armSuspended, subject := .zone z, wing := some ((setSecurity s z y).wingOf z), detail := d } :=
      loggedAmong_append (.of_onlyIn (modZone_onlyIn s z _) (by decide)) (LogGrows.refl _)
    rwa [wing] at logged
  unfold suspendEntry at hx
  unfold suspendZone
  cases h : (s.zone z).security <;> simp only [h, List.mem_singleton, List.not_mem_nil] at hx ⊢
  all_goals
    rw [hx]
    exact entered _ _

theorem suspendWing_zone (s : State) (w : Fin 4) (z : Fin 64) : (suspendWing s w).zone z
    = if z ∈ s.zonesOf w then { s.zone z with security := suspendedSecurity (s.zone z).security } else s.zone z :=
  read_foldl (inv := fun _ => True) (read := State.zone)
    (h := fun r => { r with security := suspendedSecurity r.security })
    (fun _ _ _ => trivial) (fun r => by rw [suspendedSecurity_idem]) (fun s a y _ => suspendZone_zone .stage s a y)
    (s.zonesOf w) trivial z

theorem suspendEntry_congr {s t : State} {z : Fin 64} (h : t.zone z = s.zone z) (c : SuspendCause) :
    suspendEntry t z c = suspendEntry s z c := by
  simp only [suspendEntry, h, wingOf_of_zone_eq h]

theorem suspendWing_logged {s : State} {w : Fin 4} {z : Fin 64} (hz : z ∈ s.zonesOf w) {x : LogItem}
    (hx : x ∈ suspendEntry s z .stage) : LoggedAmong s (suspendWing s w) x := by
  refine loggedAmong_foldl (fun t y => (suspendZone_aside .stage t y).log) hz fun front hn => suspendZone_logged ?_
  rw [suspendEntry_congr (foldl_same (g := fun t => t.zone z) (fun t y hy => ?_) s)]
  · exact hx
  · exact (suspendZone_zone ..).trans (if_neg fun e : z = y => hn (e ▸ hy))

/-! ### The channels (R155) -/

theorem breakHolds_channel (s : State) (w : Fin 4) (n : Fin 276) : (breakHolds s w).channel n
    = if (s.channel n).wing = some w then returnChannel (s.channel n) else s.channel n := by
  have entered : ∀ (c : Prop) [Decidable c] (t : State) k d,
      (if c then t else appendWing t k w d).channel n = t.channel n := fun c _ t k d => by
    split
    · rfl
    · rw [appendWing, (append_onlyIn _ _ _ _ _).channel_eq (by decide)]
  rw [breakHolds, entered, entered]
  exact Tbl.get_map ..

theorem breakHolds_stamped (s : State) (w : Fin 4) : Stamped s (breakHolds s w) :=
  have entered : ∀ {c : Prop} [Decidable c] {t : State} {k d}, Stamped s t →
      Stamped s (if c then t else appendWing t k w d) := fun h => Stamped.ite h (h.append _ _ _ _)
  entered (entered fun _ => rfl)

/-! ### The lockdown (R109) -/

theorem endLockdownByStage_wing (s : State) (w v : Fin 4) : ((endLockdownByStage s w).wing v).unstamped
    = if v = w then { (s.wing v).unstamped with lockdown := false } else (s.wing v).unstamped := by
  unfold endLockdownByStage
  split
  · rw [appendWing, append_stamped _ _ _ _ _ v, modWing_unstamped]
    rfl
  next h =>
    split
    next e =>
      subst e
      rw [Bool.not_eq_true] at h
      exact (congrArg (fun b => ({ s.wing v with revision := 0, lockdown := b } : Wing)) h :)
    next => rfl

theorem endLockdownByStage_onlyIn (s : State) (w : Fin 4) : OnlyIn logward s (endLockdownByStage s w) := by
  unfold endLockdownByStage
  split
  · exact ((modWing_onlyIn s w _).mono (by decide)).trans (append_onlyIn _ _ _ _ _)
  · exact OnlyIn.refl _ s

theorem endLockdownByStage_grows (s : State) (w : Fin 4) : LogGrows s (endLockdownByStage s w) := by
  unfold endLockdownByStage
  split
  · exact (LogGrows.of_onlyIn (modWing_onlyIn s w _) (by decide)).trans (append_logGrows ..)
  · exact LogGrows.refl s

theorem endLockdownByStage_logged {s : State} {w : Fin 4} (h : (s.wing w).lockdown = true) :
    LoggedAmong s (endLockdownByStage s w)
      { kind := .lockdownEnded, subject := .wing w, wing := some w, detail := .lockdownCause .stage } := by
  rw [endLockdownByStage, if_pos h]
  exact loggedAmong_append (.of_onlyIn (modWing_onlyIn s w _) (by decide)) (LogGrows.refl _)

/-! ### The tests (R55) -/

theorem endTest_stamped (c : TestEndCause) (s : State) (z : Fin 64) : Stamped s (endTest c s z) := by
  by_cases h : (s.zone z).testTimer = none
  · rw [endTest_of_none h]
    exact Stamped.refl s
  · have off : Stamped s (testOff s z) := fun _ => rfl
    exact (off.append _ _ _ _).trans (Stamped.of_onlyIn (endTest_onlyIn_engine h c) (by decide))

/-- What the ends of tests leave of the detectors: a zone's test that is off stays off, and a detector loses its armed
flag alone, and only where its zone was under test (R55). -/
structure TestsEnd (s t : State) : Prop where
  detector : ∀ n, DetectorKept n s t
  timer : ∀ z, (s.zone z).testTimer = none → (t.zone z).testTimer = none

theorem TestsEnd.refl (s : State) : TestsEnd s s := ⟨fun _ => .inl rfl, fun _ h => h⟩

theorem TestsEnd.trans {s t u : State} (h : TestsEnd s t) (k : TestsEnd t u) : TestsEnd s u := by
  refine ⟨fun n => ?_, fun z hz => k.timer z (h.timer z hz)⟩
  have on : ∀ z, (t.zone z).testTimer ≠ none → (s.zone z).testTimer ≠ none := fun z => mt (h.timer z)
  rcases h.detector n with hs | ⟨d, hd, htest, hn⟩ <;> rcases k.detector n with ht | ⟨e, he, ktest, kn⟩
  · exact .inl (ht.trans hs)
  · exact .inr ⟨e, hs ▸ he, on _ ktest, kn⟩
  · exact .inr ⟨d, hd, htest, ht.trans hn⟩
  · rw [hn] at he
    cases he
    exact .inr ⟨d, hd, htest, kn⟩

theorem TestsEnd.foldl {α : Type} {f : State → α → State} (h : ∀ s x, TestsEnd s (f s x)) :
    ∀ (xs : List α) (s : State), TestsEnd s (xs.foldl f s)
  | [], s => TestsEnd.refl s
  | x :: xs, s => (h s x).trans (TestsEnd.foldl h xs (f s x))

/-- A change of other records. -/
theorem TestsEnd.of_same {s t : State} (hd : Same s t .detectors) (hz : ∀ z, (t.zone z).testTimer = (s.zone z).testTimer) :
    TestsEnd s t :=
  ⟨fun n => .inl (by rw [State.detector, State.detector, show t.detectors = s.detectors from hd]),
    fun z h => (hz z).trans h⟩

theorem TestsEnd.of_onlyIn {ps : List Piece} {s t : State} (h : OnlyIn ps s t)
    (hp : ∀ p ∈ [Piece.detectors, .zones], p ∉ ps) : TestsEnd s t :=
  .of_same (h .detectors (hp _ (by decide))) fun z => by rw [h.zone_eq (hp _ (by decide))]

/-- A detector of a zone that is not under test keeps its record. -/
theorem TestsEnd.detector_eq {s t : State} (h : TestsEnd s t) {n : Fin 192} {d : Detector} (hd : s.detector n = some d)
    (hz : (s.zone d.zone).testTimer = none) : t.detector n = some d := by
  rcases h.detector n with e | ⟨f, hf, ht, -⟩
  · exact e.trans hd
  · rw [hd] at hf
    cases hf
    exact absurd hz ht

/-- A detector keeps its record but for its armed flag. -/
theorem TestsEnd.detector_armed {s t : State} (h : TestsEnd s t) {n : Fin 192} {d : Detector}
    (hd : s.detector n = some d) : ∃ a, t.detector n = some { d with testArmed := a } := by
  rcases h.detector n with e | ⟨f, hf, -, hn⟩
  · exact ⟨d.testArmed, e.trans hd⟩
  · rw [hd] at hf
    cases hf
    exact ⟨none, hn⟩

theorem endTest_testsEnd (c : TestEndCause) (s : State) (z : Fin 64) : TestsEnd s (endTest c s z) := by
  by_cases h : (s.zone z).testTimer = none
  · rw [endTest_of_none h]
    exact TestsEnd.refl s
  · refine ⟨fun n => ?_, fun y hy => ?_⟩
    · rw [DetectorKept, endTest_detector h]
      cases hd : s.detector n with
      | none => exact .inl rfl
      | some d =>
        by_cases hz : d.zone = z
        · exact .inr ⟨d, rfl, hz ▸ h, by rw [Option.map_some, Detector.disarmed, if_pos hz]⟩
        · exact .inl (by rw [Option.map_some, Detector.disarmed, if_neg hz])
    · rw [endTest_zone]
      split
      · rfl
      · exact hy

/-! ### Leaving STANDBY (R70) -/

/-- A wing that leaves STANDBY before its tests end. -/
def standbyLeft (s : State) (w : Fin 4) : State := endLockdownByStage (suspendWing (breakHolds s w) w) w

theorem leaveStandby_eq (s : State) (w : Fin 4) :
    leaveStandby s w = ((standbyLeft s w).zonesOf w).foldl (endTest .stage) (standbyLeft s w) := rfl

theorem breakHolds_onlyIn (s : State) (w : Fin 4) : OnlyIn ([.channels] ++ logward) s (breakHolds s w) :=
  (breakHolds_within s w).1

theorem zonesOf_breakHolds (s : State) (w v : Fin 4) : (breakHolds s w).zonesOf v = s.zonesOf v :=
  zonesOf_congr (fun z => by rw [(breakHolds_onlyIn s w).zone_eq (by decide)])
    (fun z => wingOf_of_zone_eq ((breakHolds_onlyIn s w).zone_eq (by decide) z)) v

theorem standbyLeft_zone (s : State) (w : Fin 4) (z : Fin 64) : (standbyLeft s w).zone z
    = if z ∈ s.zonesOf w then { s.zone z with security := suspendedSecurity (s.zone z).security } else s.zone z := by
  rw [standbyLeft, (endLockdownByStage_onlyIn _ _).zone_eq (by decide), suspendWing_zone, zonesOf_breakHolds,
    (breakHolds_onlyIn s w).zone_eq (by decide)]

theorem zonesOf_standbyLeft (s : State) (w v : Fin 4) : (standbyLeft s w).zonesOf v = s.zonesOf v :=
  zonesOf_congr (fun z => by rw [standbyLeft_zone]; split <;> rfl)
    (fun z => by rw [State.wingOf, standbyLeft_zone]; split <;> rfl) v

theorem leaveStandby_zone (s : State) (w : Fin 4) (z : Fin 64) : (leaveStandby s w).zone z
    = if z ∈ s.zonesOf w then
        { s.zone z with security := suspendedSecurity (s.zone z).security, testTimer := none }
      else s.zone z := by
  rw [leaveStandby_eq, zonesOf_standbyLeft,
    read_foldl (inv := fun _ => True) (read := State.zone) (h := fun r => { r with testTimer := none })
      (fun _ _ _ => trivial) (fun _ => rfl) (fun s a y _ => endTest_zone .stage s a y) _ trivial, standbyLeft_zone]
  by_cases hz : z ∈ s.zonesOf w <;> simp [hz]

theorem standbyLeft_wing (s : State) (w v : Fin 4) : ((standbyLeft s w).wing v).unstamped
    = if v = w then { (s.wing v).unstamped with lockdown := false } else (s.wing v).unstamped := by
  rw [standbyLeft, endLockdownByStage_wing]
  have h := (breakHolds_stamped s w).trans (Stamped.foldl (suspendZone_stamped .stage) ((breakHolds s w).zonesOf w) _)
  rw [show ((suspendWing (breakHolds s w) w).wing v).unstamped = (s.wing v).unstamped from h v]

theorem leaveStandby_wing (s : State) (w v : Fin 4) : ((leaveStandby s w).wing v).unstamped
    = if v = w then { (s.wing v).unstamped with lockdown := false } else (s.wing v).unstamped := by
  rw [leaveStandby_eq, Stamped.foldl (endTest_stamped .stage) _ _ v, standbyLeft_wing]

theorem leaveStandby_channel (s : State) (w : Fin 4) (n : Fin 276) : (leaveStandby s w).channel n
    = if (s.channel n).wing = some w then returnChannel (s.channel n) else s.channel n := by
  have suspended := (suspendWing_within (breakHolds s w) w).1.channel_eq (by decide) n
  have ended := OnlyIn.foldl (fun t z => (endTest_within .stage t z).1) ((standbyLeft s w).zonesOf w) (standbyLeft s w)
  rw [leaveStandby_eq, ended.channel_eq (by decide), standbyLeft, (endLockdownByStage_onlyIn _ _).channel_eq (by decide),
    suspended, breakHolds_channel]

theorem leaveStandby_testsEnd (s : State) (w : Fin 4) : TestsEnd s (leaveStandby s w) := by
  have ended := TestsEnd.foldl (endTest_testsEnd .stage) ((standbyLeft s w).zonesOf w) (standbyLeft s w)
  have detectors : Same s (standbyLeft s w) .detectors :=
    ((breakHolds_onlyIn s w .detectors (by decide)).trans ((suspendWing_within _ w).1 .detectors (by decide))).trans
      (endLockdownByStage_onlyIn _ w .detectors (by decide))
  exact (TestsEnd.of_same detectors fun z => by rw [standbyLeft_zone]; split <;> rfl).trans ended

/-- The wing's own leaving of STANDBY, with its entries. -/
theorem leaveStandby_leaves (s : State) (w : Fin 4) : LeavesStandby w s (clearAlerted (leaveStandby s w) w) := by
  have cleared : OnlyIn [.wings] (leaveStandby s w) (clearAlerted (leaveStandby s w) w) := modWing_onlyIn _ _ _
  have hc : LogGrows (leaveStandby s w) (clearAlerted (leaveStandby s w) w) := .of_onlyIn cleared (by decide)
  have broken := (breakHolds_aside s w).log
  have suspended : LogGrows (breakHolds s w) (suspendWing (breakHolds s w) w) :=
    LogGrows.foldl (fun t z => (suspendZone_aside .stage t z).log) _ _
  have unlocked := endLockdownByStage_grows (suspendWing (breakHolds s w) w) w
  have ended : LogGrows (standbyLeft s w) (leaveStandby s w) :=
    LogGrows.foldl (fun t z => (endTest_aside .stage t z).log) ((standbyLeft s w).zonesOf w) (standbyLeft s w)
  have zone : ∀ z, (breakHolds s w).zone z = s.zone z := (breakHolds_onlyIn s w).zone_eq (by decide)
  refine ⟨?_, ?_, fun hl => ?_, fun z hz => ⟨?_, ?_, fun x hx => ?_, fun ht => ?_⟩, fun n hn => ?_⟩
  · rw [clearAlerted, State.wing_modWing_self]
    exact (congrArg Wing.lockdown ((leaveStandby_wing s w w).trans (if_pos rfl)) :)
  · rw [clearAlerted, State.wing_modWing_self]
  · have before := (breakHolds_stamped s w).trans
      (Stamped.foldl (suspendZone_stamped .stage) ((breakHolds s w).zonesOf w) _)
    have locked : ((suspendWing (breakHolds s w) w).wing w).lockdown = true :=
      (congrArg Wing.lockdown (before w) :).trans hl
    exact (((endLockdownByStage_logged locked).late suspended).late broken).grow
      (unlocked.1.trans (suspended.1.trans broken.1)) (ended.trans hc)
  · rw [cleared.zone_eq (by decide), leaveStandby_zone, if_pos hz]
  · rw [cleared.zone_eq (by decide), leaveStandby_zone, if_pos hz]
  · have logged := suspendWing_logged (s := breakHolds s w) (zonesOf_breakHolds s w w ▸ hz)
      (suspendEntry_congr (zone z) .stage ▸ hx)
    exact (logged.late broken).grow (suspended.1.trans broken.1) ((unlocked.trans ended).trans hc)
  · have hm : z ∈ (standbyLeft s w).zonesOf w := zonesOf_standbyLeft s w w ▸ hz
    have hw : s.wingOf z = w := (mem_zonesOf.mp hz).2
    have logged : LoggedAmong (standbyLeft s w) (leaveStandby s w)
        { kind := .testEnded, subject := .zone z, wing := some w, detail := .testEnd .stage } := by
      refine loggedAmong_foldl (fun t y => (endTest_aside .stage t y).log) hm fun front hn => ?_
      have same : (front.foldl (endTest .stage) (standbyLeft s w)).zone z = (standbyLeft s w).zone z :=
        foldl_same (f := endTest .stage) (g := fun t => t.zone z)
          (fun t y hy => (endTest_zone .stage t y z).trans (if_neg fun e : z = y => hn (e ▸ hy))) _
      have here := (endTest_logged (s := front.foldl (endTest .stage) (standbyLeft s w)) (z := z)
        (by rw [same, standbyLeft_zone, if_pos hz]; exact ht) .stage).among
      rwa [State.wingOf, same, standbyLeft_zone, if_pos hz, show (s.zone z).wing = w from hw] at here
    exact (logged.late ((broken.trans suspended).trans unlocked)).grow
      (ended.1.trans ((broken.trans suspended).trans unlocked).1) hc
  · rw [cleared.channel_eq (by decide), leaveStandby_channel, if_pos hn]
    exact ⟨rfl, rfl⟩

end Sys2Proof.Machine
end

section
/-! SUPPORT. The selection-pass triggers of an event, and the pass that it opens at its end (R71, R137). -/

set_option autoImplicit false

namespace Sys2Proof.Machine

/-! ### Triggers (R137) -/

theorem RouteEngine.triggered_triggered (e : RouteEngine) : e.triggered.triggered = e.triggered := by cases e <;> rfl

/-- What work with triggers leaves of the Route Engine. -/
structure EnginePassed (s t : State) : Prop where
  part : t.part = s.part
  engine : t.engine = s.engine ∨ s.inService = true ∧ t.engine = s.engine.triggered

theorem EnginePassed.inService {s t : State} (h : EnginePassed s t) : t.inService = s.inService := by
  rw [State.inService, State.inService, h.part]

theorem EnginePassed.refl (s : State) : EnginePassed s s := ⟨rfl, .inl rfl⟩

theorem EnginePassed.trans {s t u : State} (h : EnginePassed s t) (k : EnginePassed t u) : EnginePassed s u := by
  refine ⟨k.part.trans h.part, ?_⟩
  have hk := k.engine
  rw [h.inService] at hk
  rcases hk with e | ⟨hs, e⟩ <;> rcases h.engine with f | ⟨hs, f⟩ <;> rw [f] at e
  · exact .inl e
  · exact .inr ⟨hs, e⟩
  · exact .inr ⟨hs, e⟩
  · exact .inr ⟨hs, e.trans (RouteEngine.triggered_triggered _)⟩

theorem EnginePassed.foldl {α : Type} {f : State → α → State} (h : ∀ s x, EnginePassed s (f s x)) :
    ∀ (xs : List α) (s : State), EnginePassed s (xs.foldl f s)
  | [], s => EnginePassed.refl s
  | x :: xs, s => (h s x).trans (EnginePassed.foldl h xs (f s x))

theorem EnginePassed.ite {c : Prop} [Decidable c] {s t u : State} (ht : EnginePassed s t) (hu : EnginePassed s u) :
    EnginePassed s (if c then t else u) := by
  split
  · exact ht
  · exact hu

theorem EnginePassed.of_onlyIn {ps : List Piece} {s t : State} (h : OnlyIn ps s t)
    (hp : ∀ p ∈ [Piece.part, .engine], p ∉ ps) : EnginePassed s t :=
  ⟨h .part (hp _ (by decide)), .inl (h .engine (hp _ (by decide)))⟩

theorem trigger_enginePassed (s : State) : EnginePassed s (trigger s) := by
  refine ⟨trigger_onlyIn s .part (by decide), ?_⟩
  rw [trigger_engine]
  split
  next h => exact .inr ⟨h, rfl⟩
  next => exact .inl rfl

/-- A trigger after other work in service. -/
theorem EnginePassed.trigger {s t : State} (h : EnginePassed s t) (hs : s.inService = true) :
    (trigger t).engine = s.engine.triggered := by
  rw [trigger_engine, if_pos (h.inService.trans hs)]
  rcases h.engine with e | ⟨-, e⟩ <;> rw [e]
  exact RouteEngine.triggered_triggered _

/-- Other work before and after a trigger. -/
theorem EnginePassed.triggered_of {b s t u : State} (h : EnginePassed b s) (ht : t.engine = s.engine.triggered)
    (k : EnginePassed t u) : u.engine = b.engine.triggered := by
  have hs : t.engine = b.engine.triggered := by
    rcases h.engine with e | ⟨-, e⟩ <;> rw [ht, e]
    exact RouteEngine.triggered_triggered _
  rcases k.engine with e | ⟨-, e⟩ <;> rw [e, hs]
  exact RouteEngine.triggered_triggered _

theorem writeFire_enginePassed (s : State) (z : Fin 64) (f : FireState) : EnginePassed s (writeFire s z f) := by
  refine .ite (.refl s) ((EnginePassed.of_onlyIn (modZone_onlyIn s z _) (by decide)).trans
    ((trigger_enginePassed _).trans (.foldl (fun t e => ?_) _ _)))
  exact .ite ((EnginePassed.of_onlyIn (modExit_onlyIn t e _) (by decide)).trans (trigger_enginePassed _)) (.refl t)

theorem append_enginePassed (s : State) (k : EntryKind) (x : Subject) (w : Option (Fin 4)) (d : Detail) :
    EnginePassed s (append s k x w d) := .of_onlyIn (append_onlyIn s k x w d) (by decide)

theorem endTest_enginePassed (c : TestEndCause) (s : State) (z : Fin 64) : EnginePassed s (endTest c s z) := by
  have off : EnginePassed s (appendZone (testOff s z) .testEnded z (.testEnd c)) :=
    EnginePassed.trans (t := testOff s z) ⟨rfl, .inl rfl⟩ (append_enginePassed ..)
  exact .ite (.ite off (off.trans (trigger_enginePassed _))) (.refl s)

theorem leaveStandby_enginePassed (s : State) (w : Fin 4) : EnginePassed s (leaveStandby s w) := by
  rw [leaveStandby_eq, standbyLeft]
  exact ((EnginePassed.of_onlyIn (breakHolds_onlyIn s w) (by decide)).trans
    ((EnginePassed.of_onlyIn (suspendWing_within _ w).1 (by decide)).trans
      (.of_onlyIn (endLockdownByStage_onlyIn _ w) (by decide)))).trans (.foldl (endTest_enginePassed .stage) _ _)

/-- What follows an impaired count's change (R16). -/
theorem followImpaired_enginePassed (s : State) (z : Fin 64) (was is : Bool) :
    EnginePassed s (followImpaired s z was is) := by
  have counted : ∀ f, EnginePassed s (s.modZone z f) := fun f => .of_onlyIn (modZone_onlyIn s z f) (by decide)
  exact .ite (.refl s) (.ite (counted _) ((counted _).trans (trigger_enginePassed _)))

/-! ### Egress (R71, R137) -/

theorem mem_egressed {s : State} {w : Fin 4} {x : Bool} {z : Fin 64} :
    z ∈ (s.zonesOf w).filter (fun z => decide ((s.zone z).egress ≠ x)) ↔ z ∈ s.zonesOf w ∧ (s.zone z).egress ≠ x := by
  simp

theorem setEgress_zone (s : State) (w : Fin 4) (x : Bool) (z : Fin 64) : (setEgress s w x).zone z
    = if z ∈ s.zonesOf w then { s.zone z with egress := x } else s.zone z := by
  have written := read_foldl (inv := fun _ => True) (read := State.zone) (h := fun r => { r with egress := x })
    (f := fun t y => t.modZone y fun r => { r with egress := x }) (fun _ _ _ => trivial) (fun _ => rfl)
    (fun t a y _ => State.zone_modZone t a _ y) ((s.zonesOf w).filter fun z => decide ((s.zone z).egress ≠ x))
    (s := s) trivial z
  simp only [mem_egressed] at written
  have done : (setEgress s w x).zone z
      = if z ∈ s.zonesOf w ∧ (s.zone z).egress ≠ x then { s.zone z with egress := x } else s.zone z := by
    unfold setEgress
    dsimp only
    split
    next h =>
      rw [if_neg fun hz => List.ne_nil_of_mem (mem_egressed.mpr hz) (List.isEmpty_iff.mp h)]
    next =>
      rw [(trigger_onlyIn _).zone_eq (by decide)]
      exact written
  rw [done]
  by_cases hz : z ∈ s.zonesOf w <;> by_cases hx : (s.zone z).egress = x <;> simp [hz, hx]
  rw [← hx]

theorem setEgress_enginePassed (s : State) (w : Fin 4) (x : Bool) : EnginePassed s (setEgress s w x) :=
  .ite (.refl s) ((EnginePassed.foldl (fun t z => .of_onlyIn (modZone_onlyIn t z _) (by decide)) _ s).trans
    (trigger_enginePassed _))

theorem setEgress_triggers {s : State} {w : Fin 4} {x : Bool} (hs : s.inService = true)
    (h : ∃ z ∈ s.zonesOf w, (s.zone z).egress ≠ x) : (setEgress s w x).engine = s.engine.triggered := by
  obtain ⟨z, hz, hx⟩ := h
  unfold setEgress
  dsimp only
  rw [if_neg fun e => List.ne_nil_of_mem (mem_egressed.mpr ⟨hz, hx⟩) (List.isEmpty_iff.mp e)]
  exact EnginePassed.trigger (EnginePassed.foldl (fun t z => .of_onlyIn (modZone_onlyIn t z _) (by decide)) _ s) hs

/-! ### The pass that an event opens (R137) -/

theorem takeView_congr {s t : State} (hz : t.zones = s.zones) (he : t.exits = s.exits) : takeView t = takeView s := by
  rw [takeView, takeView, hz, he]

theorem endEvent_triggered {b u : State} (h : u.engine = b.engine.triggered) : Triggered b (endEvent b u) := by
  have settled := settleDoors_onlyIn b u
  have engine : (settleDoors b u).engine = u.engine := settled .engine (by decide)
  have zones : (settleDoors b u).zones = u.zones := settled .zones (by decide)
  have exits : (settleDoors b u).exits = u.exits := settled .exits (by decide)
  have view : takeView (endEvent b u) = takeView (settleDoors b u) :=
    takeView_congr (Eq.trans (endEvent_onlyIn b u .zones (by decide)) zones.symm)
      (Eq.trans (endEvent_onlyIn b u .exits (by decide)) exits.symm)
  have ended : (endEvent b u).engine = (openPass (settleDoors b u)).engine := by
    simp only [endEvent, startTransmitters]
  have opened : b.engine.triggered = .opening → (endEvent b u).engine = .passing (takeView (endEvent b u)) false :=
    fun e => by rw [ended, view, openPass, engine, h, e]
  unfold Triggered
  cases he : b.engine with
  | idle => exact opened (by rw [he]; rfl)
  | opening => exact opened (by rw [he]; rfl)
  | passing v again =>
    have e : (settleDoors b u).engine = .passing v true := by rw [engine, h, he]; rfl
    rw [ended, openPass_of_ne (by rw [e]; nofun), e]

end Sys2Proof.Machine
end

section
/-! SUPPORT. The help calls of a wing that enters EVACUATE, and the offering round at the end of the event (R122, R126). -/

set_option autoImplicit false

namespace Sys2Proof.Machine

/-! ### One call's record -/

/-- A help call of a wing that enters EVACUATE, whose evacuation desk is given, before the offering round (R126). -/
def HelpCall.evacuated (evac : Option (Fin 8)) (h : HelpCall) : HelpCall :=
  match h.phase with
  | .raised => { h with priority := .evacAssist, next := .evac }
  | .offered k _ =>
    if evac = some k then { h with priority := .evacAssist, next := .evac }
    else { h with priority := .evacAssist, next := .evac, phase := .raised }
  | .accepted _ => { h with priority := .evacAssist }

theorem HelpCall.evacuated_evacuated (e : Option (Fin 8)) (h : HelpCall) :
    (h.evacuated e).evacuated e = h.evacuated e := by
  cases hp : h.phase with
  | raised => simp [HelpCall.evacuated, hp]
  | offered k n => by_cases hk : e = some k <;> simp [HelpCall.evacuated, hp, hk]
  | accepted k => simp [HelpCall.evacuated, hp]

theorem setCall_call (s : State) (c : Fin 64) (h : HelpCall) (d : Fin 64) :
    (setCall s c h).call d = if d = c then some h else s.call d := by
  rw [State.call, setCall, State.point_modPoint]
  by_cases hd : d = c <;> simp [hd, State.call]

theorem appendPoint_call (s : State) (k : EntryKind) (c : Fin 64) (x : Detail) (d : Fin 64) :
    (appendPoint s k c x).call d = s.call d := (append_onlyIn _ _ _ _ _).call_eq (by decide) d

theorem enqueueCall_call (s : State) (c d : Fin 64) : (enqueueCall s c).call d = s.call d := rfl

theorem leaveDesk_call (s : State) (k : Fin 8) (c d : Fin 64) : (leaveDesk s k c).call d = s.call d :=
  (modDesk_onlyIn s k _).call_eq (by decide) d

theorem withdrawCall_call (s : State) (c : Fin 64) (h : HelpCall) (k : Fin 8) (p : Place) (d : Fin 64) :
    (withdrawCall s c h k p).call d = if d = c then some { h with next := p, phase := .raised } else s.call d := by
  rw [withdrawCall, appendPoint_call, setCall_call, leaveDesk_call]

/-- The call's record raised to EVAC_ASSIST, at its new place in the queue, with the entry (R126). -/
def assistCall (s : State) (c : Fin 64) (h : HelpCall) : State :=
  appendPoint (enqueueCall (setCall s c { h with priority := .evacAssist }) c) .callPriority c
    (.priorityCause .evacAssist .evacuation)

theorem assistCall_call (s : State) (c : Fin 64) (h : HelpCall) (d : Fin 64) :
    (assistCall s c h).call d = if d = c then some { h with priority := .evacAssist } else s.call d := by
  rw [assistCall, appendPoint_call, enqueueCall_call, setCall_call]

theorem evacuateCall_of_none {s : State} {c : Fin 64} (h : s.call c = none) (w : Fin 4) : evacuateCall w s c = s := by
  simp only [evacuateCall, h]

/-- What follows for a call of the wing, by the phase that finds it (R126). -/
def assistInPhase (w : Fin 4) (s : State) (c : Fin 64) (h : HelpCall) : CallPhase → State
  | .raised => setCall (assistCall s c h) c { h with priority := .evacAssist, next := .evac }
  | .offered k _ =>
    if (s.wing w).evacDesk = some k then
      setCall (assistCall s c h) c { h with priority := .evacAssist, next := .evac }
    else withdrawCall (assistCall s c h) c { h with priority := .evacAssist } k .evac
  | .accepted _ => assistCall s c h

theorem evacuateCall_of_some {s : State} {c : Fin 64} {h : HelpCall} (hc : s.call c = some h) (w : Fin 4) :
    evacuateCall w s c = assistInPhase w s c h h.phase := by
  simp only [evacuateCall, hc]
  cases hp : h.phase <;> simp only [assistInPhase, assistCall, hp]

theorem evacuateCall_call (w : Fin 4) (s : State) (c d : Fin 64) : (evacuateCall w s c).call d
    = if d = c then (s.call d).map (HelpCall.evacuated (s.wing w).evacDesk) else s.call d := by
  cases hc : s.call c with
  | none =>
    rw [evacuateCall_of_none hc]
    by_cases hd : d = c <;> simp [hd, hc]
  | some h =>
    rw [evacuateCall_of_some hc]
    cases hp : h.phase with
    | raised =>
      rw [assistInPhase, setCall_call, assistCall_call]
      by_cases hd : d = c <;> simp [hd, hc, HelpCall.evacuated, hp]
    | offered k n =>
      rw [assistInPhase]
      by_cases hk : (s.wing w).evacDesk = some k
      · rw [if_pos hk, setCall_call, assistCall_call]
        by_cases hd : d = c <;> simp [hd, hc, HelpCall.evacuated, hp, hk]
      · rw [if_neg hk, withdrawCall_call, assistCall_call]
        by_cases hd : d = c <;> simp [hd, hc, HelpCall.evacuated, hp, hk]
    | accepted k =>
      rw [assistInPhase, assistCall_call]
      by_cases hd : d = c <;> simp [hd, hc, HelpCall.evacuated, hp]

/-! ### What a call's evacuation leaves of the wings and of the calls' places -/

theorem assistCall_stamped (s : State) (c : Fin 64) (h : HelpCall) : Stamped s (assistCall s c h) :=
  have moved : Stamped s (enqueueCall (setCall s c { h with priority := .evacAssist }) c) := fun _ => rfl
  moved.append _ _ _ _

theorem withdrawCall_stamped (s : State) (c : Fin 64) (h : HelpCall) (k : Fin 8) (p : Place) :
    Stamped s (withdrawCall s c h k p) :=
  have moved : Stamped s (setCall (leaveDesk s k c) c { h with next := p, phase := .raised }) := fun _ => rfl
  moved.append _ _ _ _

theorem setCall_stamped (s : State) (c : Fin 64) (h : HelpCall) : Stamped s (setCall s c h) := fun _ => rfl

theorem evacuateCall_stamped (w : Fin 4) (s : State) (c : Fin 64) : Stamped s (evacuateCall w s c) := by
  cases hc : s.call c with
  | none =>
    rw [evacuateCall_of_none hc]
    exact .refl s
  | some h =>
    have assisted := assistCall_stamped s c h
    rw [evacuateCall_of_some hc]
    unfold assistInPhase
    split
    · exact assisted.trans (setCall_stamped _ _ _)
    · exact (Stamped.ite (assisted.trans (setCall_stamped _ _ _)) (assisted.trans (withdrawCall_stamped _ _ _ _ _)))
    · exact assisted

/-- The wing of the zone that a call point stands in. -/
def State.callWing (s : State) (c : Fin 64) : Fin 4 := s.wingOf (s.point c).zone

theorem setCall_callWing (s : State) (c : Fin 64) (h : HelpCall) (d : Fin 64) :
    (setCall s c h).callWing d = s.callWing d := by
  have zone : ((setCall s c h).point d).zone = (s.point d).zone := by
    rw [setCall, State.point_modPoint]
    split <;> rfl
  rw [State.callWing, zone]
  rfl

theorem OnlyIn.callWing_eq {ps : List Piece} {s t : State} (h : OnlyIn ps s t)
    (hp : ∀ p ∈ [Piece.points, .zones], p ∉ ps) (d : Fin 64) : t.callWing d = s.callWing d := by
  rw [State.callWing, State.callWing, h.point_eq (hp _ (by decide)),
    wingOf_of_zone_eq (h.zone_eq (hp _ (by decide)) _)]

theorem assistCall_callWing (s : State) (c : Fin 64) (h : HelpCall) (d : Fin 64) :
    (assistCall s c h).callWing d = s.callWing d :=
  ((append_onlyIn _ _ _ _ _).callWing_eq (by decide) d).trans (setCall_callWing s c _ d)

theorem withdrawCall_callWing (s : State) (c : Fin 64) (h : HelpCall) (k : Fin 8) (p : Place) (d : Fin 64) :
    (withdrawCall s c h k p).callWing d = s.callWing d :=
  ((append_onlyIn _ _ _ _ _).callWing_eq (by decide) d).trans (setCall_callWing (leaveDesk s k c) c _ d)

theorem evacuateCall_callWing (w : Fin 4) (s : State) (c d : Fin 64) :
    (evacuateCall w s c).callWing d = s.callWing d := by
  cases hc : s.call c with
  | none => rw [evacuateCall_of_none hc]
  | some h =>
    rw [evacuateCall_of_some hc]
    unfold assistInPhase
    split
    · rw [setCall_callWing, assistCall_callWing]
    · split
      · rw [setCall_callWing, assistCall_callWing]
      · rw [withdrawCall_callWing, assistCall_callWing]
    · rw [assistCall_callWing]

/-! ### The entries of a call's evacuation -/

theorem assistCall_logged (s : State) (c : Fin 64) (h : HelpCall) : LoggedAmong s (assistCall s c h)
    { kind := .callPriority, subject := .point c, wing := some (s.callWing c)
      detail := .priorityCause .evacAssist .evacuation } := by
  have logged : LoggedAmong s (assistCall s c h)
      { kind := .callPriority, subject := .point c
        wing := some ((enqueueCall (setCall s c { h with priority := .evacAssist }) c).callWing c)
        detail := .priorityCause .evacAssist .evacuation } :=
    loggedAmong_append (Aside.trans (setCall_aside s c _) (enqueueCall_aside _ c)).log (LogGrows.refl _)
  have wing : (enqueueCall (setCall s c { h with priority := .evacAssist }) c).callWing c = s.callWing c :=
    setCall_callWing s c _ c
  rwa [wing] at logged

theorem evacuateCall_logged {s : State} {c : Fin 64} {h : HelpCall} (hc : s.call c = some h) (w : Fin 4) :
    LoggedAmong s (evacuateCall w s c)
      { kind := .callPriority, subject := .point c, wing := some (s.callWing c)
        detail := .priorityCause .evacAssist .evacuation } := by
  have logged := assistCall_logged s c h
  have seconds : (assistCall s c h).seconds = s.seconds := append_seconds ..
  rw [evacuateCall_of_some hc]
  unfold assistInPhase
  split
  · exact logged.grow seconds (setCall_aside ..).log
  · split
    · exact logged.grow seconds (setCall_aside ..).log
    · exact logged.grow seconds (withdrawCall_aside ..).log
  · exact logged

theorem evacuateCall_withdrawn {s : State} {c : Fin 64} {h : HelpCall} (hc : s.call c = some h) {k : Fin 8} {n : Nat}
    (hp : h.phase = .offered k n) {w : Fin 4} (hk : (s.wing w).evacDesk ≠ some k) :
    LoggedAmong s (evacuateCall w s c)
      { kind := .callWithdrawn, subject := .point c, wing := some (s.callWing c), detail := .desk k } := by
  rw [evacuateCall_of_some hc, hp, assistInPhase, if_neg hk]
  have logged : ∀ t : State, t.callWing c = s.callWing c → ∀ g p, LoggedAmong t (withdrawCall t c g k p)
      { kind := .callWithdrawn, subject := .point c, wing := some (s.callWing c), detail := .desk k } := fun t ht g p => by
    have entered : LoggedAmong t (withdrawCall t c g k p)
        { kind := .callWithdrawn, subject := .point c
          wing := some ((setCall (leaveDesk t k c) c { g with next := p, phase := .raised }).callWing c)
          detail := .desk k } :=
      loggedAmong_append (Aside.trans (leaveDesk_aside t k c) (setCall_aside _ c _)).log (LogGrows.refl _)
    rwa [setCall_callWing, show (leaveDesk t k c).callWing c = s.callWing c from ht] at entered
  exact (logged _ (assistCall_callWing ..) _ _).late
    (LogGrows.trans (Aside.trans (setCall_aside s c _) (enqueueCall_aside _ c)).log (append_logGrows ..))

/-! ### The calls of a wing -/

theorem mem_callsOfWing {s : State} {w : Fin 4} {c : Fin 64} :
    c ∈ callsOfWing s w ↔ c ∈ s.callQueue ∧ s.callWing c = w := by
  simp [callsOfWing, State.callWing]

theorem evacuateCalls_call (s : State) (w : Fin 4) (c : Fin 64) : (evacuateCalls s w).call c
    = if c ∈ callsOfWing s w then (s.call c).map (HelpCall.evacuated (s.wing w).evacDesk) else s.call c :=
  read_foldl (inv := fun t : State => (t.wing w).evacDesk = (s.wing w).evacDesk) (read := State.call)
    (h := Option.map (HelpCall.evacuated (s.wing w).evacDesk))
    (fun t d ht => (congrArg Wing.evacDesk (evacuateCall_stamped w t d w) :).trans ht)
    (fun r => by cases r <;> simp [HelpCall.evacuated_evacuated])
    (fun t d y ht => by rw [evacuateCall_call, ht]) (callsOfWing s w) rfl c

theorem evacuateCalls_stamped (s : State) (w : Fin 4) : Stamped s (evacuateCalls s w) :=
  .foldl (evacuateCall_stamped w) _ s

/-- The state in which an evacuation comes to a call of the wing. -/
structure BeforeCall (w : Fin 4) (c : Fin 64) (s t : State) : Prop where
  call : t.call c = s.call c
  callWing : t.callWing c = s.callWing c
  desk : (t.wing w).evacDesk = (s.wing w).evacDesk

theorem beforeCall_foldl (w : Fin 4) {c : Fin 64} {front : List (Fin 64)} (hn : c ∉ front) (s : State) :
    BeforeCall w c s (front.foldl (evacuateCall w) s) where
  call := foldl_same (f := evacuateCall w) (g := fun t => t.call c)
    (fun t d hd => (evacuateCall_call w t d c).trans (if_neg fun e : c = d => hn (e ▸ hd))) s
  callWing := foldl_same (f := evacuateCall w) (g := fun t => t.callWing c) (fun t d _ => evacuateCall_callWing w t d c) s
  desk := (congrArg Wing.evacDesk (Stamped.foldl (evacuateCall_stamped w) front s w) :)

/-- What R126 says of a call, before the offering round. -/
theorem evacuateCalls_evacuated {s : State} {w : Fin 4} {c : Fin 64} {h : HelpCall} (hq : c ∈ s.callQueue)
    (hw : s.callWing c = w) (hc : s.call c = some h) : CallEvacuated w c h s (evacuateCalls s w) := by
  have hm := mem_callsOfWing.mpr ⟨hq, hw⟩
  have among : ∀ {x}, (∀ front : List (Fin 64), c ∉ front → LoggedAmong (front.foldl (evacuateCall w) s)
      (evacuateCall w (front.foldl (evacuateCall w) s) c) x) → LoggedAmong s (evacuateCalls s w) x := fun hx =>
    loggedAmong_foldl (fun t d => (evacuateCall_aside w t d).log) hm hx
  refine ⟨⟨h.evacuated (s.wing w).evacDesk, by rw [evacuateCalls_call, if_pos hm, hc]; rfl, ?_⟩,
    among fun front hn => ?_, fun k n hp hk => among fun front hn => ?_⟩
  · cases hp : h.phase with
    | raised => simp [HelpCall.evacuated, hp]
    | offered k n => by_cases hk : (s.wing w).evacDesk = some k <;> simp [HelpCall.evacuated, hp, hk]
    | accepted k => simp [HelpCall.evacuated, hp]
  · have before := beforeCall_foldl w hn s
    have entered := evacuateCall_logged (before.call.trans hc) w
    rwa [before.callWing, hw] at entered
  · have before := beforeCall_foldl w hn s
    have entered := evacuateCall_withdrawn (before.call.trans hc) hp (w := w) (before.desk ▸ hk)
    rwa [before.callWing, hw] at entered

/-! ### The offering round (R122) -/

/-- What an offering round leaves of a call: what it was raised with, and all of it where it is offered or accepted. -/
def CallOffered (c : Fin 64) (s t : State) : Prop :=
  ∀ h, s.call c = some h → ∃ g, t.call c = some g ∧ g.priority = h.priority ∧ g.presses = h.presses
    ∧ g.firstPress = h.firstPress ∧ (h.phase ≠ .raised → g = h)

theorem CallOffered.of_eq {c : Fin 64} {s t : State} (e : t.call c = s.call c) : CallOffered c s t := fun h hc =>
  ⟨h, e.trans hc, rfl, rfl, rfl, fun _ => rfl⟩

theorem CallOffered.trans {c : Fin 64} {s t u : State} (h : CallOffered c s t) (k : CallOffered c t u) :
    CallOffered c s u := fun x hx => by
  obtain ⟨y, hy, yp, yn, yf, ye⟩ := h x hx
  obtain ⟨z, hz, zp, zn, zf, ze⟩ := k y hy
  refine ⟨z, hz, zp.trans yp, zn.trans yn, zf.trans yf, fun hr => ?_⟩
  have e := ye hr
  rw [ze (e ▸ hr), e]

theorem CallOffered.foldl {α : Type} {c : Fin 64} {f : State → α → State} (h : ∀ s x, CallOffered c s (f s x)) :
    ∀ (xs : List α) (s : State), CallOffered c s (xs.foldl f s)
  | [], _ => .of_eq rfl
  | x :: xs, s => (h s x).trans (CallOffered.foldl h xs (f s x))

theorem offerCall_call (s : State) (c : Fin 64) (h : HelpCall) (p : Place) (k : Fin 8) (d : Fin 64) :
    (offerCall s c h p k).call d
      = if d = c then some { h with next := p, phase := .offered k (s.desk k).tOffer } else s.call d := by
  rw [offerCall, appendPoint_call, (modDesk_onlyIn _ k _).call_eq (by decide), setCall_call]

theorem offerOne_callOffered (s : State) (d c : Fin 64) : CallOffered c s (offerOne s d) := by
  unfold offerOne
  split
  next h hd =>
    split
    next hp =>
      split
      · intro g hg
        rw [offerCall_call]
        split
        next e =>
          subst e
          rw [hd] at hg
          cases hg
          exact ⟨_, rfl, rfl, rfl, rfl, fun hr => absurd hp hr⟩
        next => exact ⟨g, hg, rfl, rfl, rfl, fun _ => rfl⟩
      · exact .of_eq rfl
    all_goals exact .of_eq rfl
  next => exact .of_eq rfl

theorem offerOne_stamped (s : State) (c : Fin 64) : Stamped s (offerOne s c) := by
  have offered : ∀ h p k, Stamped s (offerCall s c h p k) := fun h p k =>
    Stamped.append (t := (setCall s c { h with next := p, phase := .offered k (s.desk k).tOffer }).modDesk k
      fun d => { d with offered := d.offered ++ [c] }) (fun _ => rfl) _ _ _ _
  unfold offerOne
  split
  · split
    · split
      · exact offered _ _ _
      · exact .refl s
    all_goals exact .refl s
  · exact .refl s

theorem offeringRound_callOffered (s : State) (c : Fin 64) : CallOffered c s (offeringRound s) :=
  .foldl (fun t d => offerOne_callOffered t d c) _ s

theorem offeringRound_stamped (s : State) : Stamped s (offeringRound s) := .foldl offerOne_stamped _ s

/-- What R126 says of a call, after the offering round too. -/
theorem CallEvacuated.after {w : Fin 4} {c : Fin 64} {h : HelpCall} {s t u : State} (k : CallEvacuated w c h s t)
    (hs : LogGrows s t) (hc : CallOffered c t u) (hl : LogGrows t u) : CallEvacuated w c h s u := by
  obtain ⟨⟨g, hg, gp, gn, gf, gacc, goff⟩, hprio, hwith⟩ := k
  obtain ⟨x, hx, xp, xn, xf, xe⟩ := hc g hg
  have kept : ∀ {y}, g.phase = y → y ≠ .raised → x = g := fun e hy => xe (e ▸ hy)
  refine ⟨⟨x, hx, xp.trans gp, xn.trans gn, xf.trans gf, fun k hk => ?_, fun k n hk hd => ?_⟩, hprio.grow hs.1 hl,
    fun k n hk hd => (hwith k n hk hd).grow hs.1 hl⟩
  · rw [kept (gacc k hk) nofun]
    exact gacc k hk
  · rw [kept (goff k n hk hd).1 nofun]
    exact goff k n hk hd

/-- What R126 says of a call, in an event that comes to the calls later. -/
theorem CallEvacuated.late {w : Fin 4} {c : Fin 64} {h : HelpCall} {b s t : State} (k : CallEvacuated w c h s t)
    (hd : (s.wing w).evacDesk = (b.wing w).evacDesk) (hb : LogGrows b s) : CallEvacuated w c h b t := by
  obtain ⟨hg, hprio, hwith⟩ := k
  rw [hd] at hg hwith
  exact ⟨hg, .late hb hprio, fun k n hp hk => .late hb (hwith k n hp hk)⟩

end Sys2Proof.Machine
end

section
/-! SUPPORT. A wing's entries into EVACUATE and ACK_WAIT: what they leave of the wings, the zones, the channels, the
detectors and the calls, and the entries they append (R63, R69 to R71, R73, R126). -/

set_option autoImplicit false

namespace Sys2Proof.Machine

theorem Wing.stage_of_unstamped {a b : Wing} (h : a.unstamped = b) : a.stage = b.stage := (congrArg Wing.stage h :)

theorem Wing.stage_eq {a b : Wing} (h : a.unstamped = b.unstamped) : a.stage = b.stage := (congrArg Wing.stage h :)

theorem Wing.silenced_eq {a b : Wing} (h : a.unstamped = b.unstamped) : a.silenced = b.silenced :=
  (congrArg Wing.silenced h :)

/-! ### Changes of a wing's stage (R69) -/

theorem changeStage_wing (s : State) (w : Fin 4) (x : Stage) (c : StageCause) (v : Fin 4) :
    ((changeStage s w x c).wing v).unstamped
      = if v = w then { (s.wing v).unstamped with stage := x } else (s.wing v).unstamped := by
  rw [changeStage, appendWing, append_stamped _ _ _ _ _ v, modWing_unstamped]
  rfl

theorem changeStage_logged (s : State) (w : Fin 4) (x : Stage) (c : StageCause) :
    Logged s (changeStage s w x c)
      [{ kind := .stageChange, subject := .wing w, wing := some w, detail := .stage x.name c }] :=
  append_logged ..

theorem clearAlerted_wing (s : State) (w v : Fin 4) : ((clearAlerted s w).wing v).unstamped
    = if v = w then { (s.wing v).unstamped with alerted := false } else (s.wing v).unstamped := modWing_unstamped ..

theorem clearAlerted_onlyIn (s : State) (w : Fin 4) : OnlyIn [.wings] s (clearAlerted s w) := modWing_onlyIn _ _ _

/-! ### Sounders (R75) -/

theorem sound_onlyIn (s : State) (w : Fin 4) : OnlyIn [.channels] s (sound s w) := writeSource_onlyIn _ _ _

theorem sound_kept (s : State) (w : Fin 4) (n : Fin 276) : ((sound s w).channel n).kept = (s.channel n).kept := by
  rw [sound, channel_writeSource]
  split
  · rw [withSource_kept]
  · rfl

theorem sound_source (s : State) (w : Fin 4) :
    ((sound s w).channel (sounderChannel w)).source = sounderValue (s.wing w) := by
  rw [sound, channel_writeSource, if_pos rfl, withSource_source]

theorem sounderChannel_ne {v w : Fin 4} (h : v ≠ w) : sounderChannel v ≠ sounderChannel w := fun e =>
  h (Fin.ext (Nat.add_left_cancel (congrArg Fin.val e)))

theorem sound_source_other {s : State} {v w : Fin 4} (h : v ≠ w) :
    (sound s w).channel (sounderChannel v) = s.channel (sounderChannel v) := by
  rw [sound, channel_writeSource, if_neg (sounderChannel_ne h)]

theorem sound_stamped (s : State) (w : Fin 4) : Stamped s (sound s w) := .of_onlyIn (sound_onlyIn s w) (by decide)

theorem sound_logGrows (s : State) (w : Fin 4) : LogGrows s (sound s w) := .of_onlyIn (sound_onlyIn s w) (by decide)

/-! ### Alerting (R73) -/

/-- A wing's record after the alerting of the wing. -/
def Wing.alertedNow (r : Wing) : Wing := if r.stage = .standby then { r with alerted := true } else r

theorem Wing.alertedNow_alertedNow (r : Wing) : r.alertedNow.alertedNow = r.alertedNow := by
  by_cases h : r.stage = .standby <;> simp [Wing.alertedNow, h]

theorem alertWing_wing (u : Fin 4) (s : State) (w v : Fin 4) : ((alertWing u s w).wing v).unstamped
    = if v = w then (s.wing v).unstamped.alertedNow else (s.wing v).unstamped := by
  have unstamped : ∀ r : Wing, r.unstamped.alertedNow
      = if r.stage = .standby then { r.unstamped with alerted := true } else r.unstamped := fun _ => rfl
  unfold alertWing
  rw [unstamped]
  split
  next h =>
    rw [Bool.and_eq_true, atStandby_eq, decide_eq_true_eq] at h
    rw [sound_stamped _ _ v, appendWing, append_stamped _ _ _ _ _ v, modWing_unstamped]
    split
    next e => rw [e, if_pos h.1]; rfl
    next => rfl
  next h =>
    split
    next e =>
      subst e
      by_cases hs : (s.wing v).stage = .standby
      · have ha : (s.wing v).alerted = true := by
          rw [atStandby_eq, decide_eq_true hs, Bool.true_and, Bool.not_eq_true'] at h
          exact Bool.of_not_eq_false h
        rw [if_pos hs]
        exact (congrArg (fun b => ({ s.wing v with revision := 0, alerted := b } : Wing)) ha :)
      · rw [if_neg hs]
    next => rfl

theorem alertWing_logged {u : Fin 4} {s : State} {w : Fin 4} (hs : s.atStandby w = true)
    (ha : (s.wing w).alerted = false) : LoggedAmong s (alertWing u s w)
      { kind := .wingAlerted, subject := .wing w, wing := some w, detail := .wing u } := by
  rw [alertWing, hs, ha]
  exact loggedAmong_append (.of_onlyIn (modWing_onlyIn s w _) (by decide)) (sound_logGrows _ w)

theorem alertWing_kept (u : Fin 4) (s : State) (w : Fin 4) (n : Fin 276) :
    ((alertWing u s w).channel n).kept = (s.channel n).kept := by
  unfold alertWing
  split
  · rw [sound_kept, appendWing, (append_onlyIn _ _ _ _ _).channel_eq (by decide)]
    rfl
  · rfl

theorem alertWing_beside (u : Fin 4) (s : State) (w v : Fin 4) : Beside v s (alertWing u s w) := by
  have written := alertWing_wing u s w v
  have unstamped : ∀ r : Wing, r.unstamped.alertedNow
      = if r.stage = .standby then { r.unstamped with alerted := true } else r.unstamped := fun _ => rfl
  refine .of_wing (alertWing_within u s w).1 (by decide) (alertWing_kept u s w) (alertWing_aside u s w).log ?_
    fun hs => ?_
  · rw [unstamped] at written
    split at written
    · split at written <;> exact (congrArg Wing.lockdown written :)
    · exact (congrArg Wing.lockdown written :)
  · rw [atStandby_eq, decide_eq_false_iff_not] at hs
    rw [unstamped, if_neg hs, ite_self] at written
    refine ⟨?_, (congrArg Wing.alerted written :)⟩
    rw [atStandby_eq, show ((alertWing u s w).wing v).stage = (s.wing v).stage from (congrArg Wing.stage written :)]
    exact decide_eq_false hs

/-! ### The parts of an entry into EVACUATE -/

/-- A wing that has changed its stage and left STANDBY. -/
def leftStandby (s : State) (w : Fin 4) (x : Stage) (c : StageCause) : State :=
  clearAlerted (leaveStandby (changeStage s w x c) w) w

/-- A wing whose stage is EVACUATE, and which has left STANDBY where it was there (R69, R70). -/
def evacuateStaged (s : State) (w : Fin 4) (c : StageCause) : State :=
  if s.atStandby w then leftStandby s w .evacuate c else changeStage s w .evacuate c

/-- The flags and the timer of an entry into EVACUATE (R71, R74, R76). -/
def Wing.timed (r : Wing) : Wing :=
  { r with silenced := false, spreadTimer := if 0 < r.tSpread then some r.tSpread else r.spreadTimer }

/-- A wing that has entered EVACUATE, before its calls, its sounder and its spread list. -/
def evacuateTimed (s : State) (w : Fin 4) (c : StageCause) : State :=
  (setEgress (evacuateStaged s w c) w true).modWing w Wing.timed

/-- A wing that has entered EVACUATE, before its spread list. -/
def evacuateSounded (s : State) (w : Fin 4) (c : StageCause) : State := sound (evacuateCalls (evacuateTimed s w c) w) w

theorem enterEvacuate_eq (s : State) (w : Fin 4) (c : StageCause) : enterEvacuate s w c
    = (spreadOf (evacuateSounded s w c) w).foldl (alertWing w) (evacuateSounded s w c) := rfl

/-! ### The wings -/

/-- A wing's record after its stage alone is EVACUATE. -/
def Wing.toEvacuate (r : Wing) : Wing :=
  { r with
    stage := .evacuate, lockdown := if r.stage = .standby then false else r.lockdown
    alerted := if r.stage = .standby then false else r.alerted }

theorem leftStandby_wing (s : State) (w : Fin 4) (x : Stage) (c : StageCause) (v : Fin 4) :
    ((leftStandby s w x c).wing v).unstamped
      = if v = w then { (s.wing v).unstamped with stage := x, lockdown := false, alerted := false }
        else (s.wing v).unstamped := by
  rw [leftStandby, clearAlerted_wing, leaveStandby_wing, changeStage_wing]
  by_cases hv : v = w <;> simp only [hv, if_true, if_false]

theorem evacuateStaged_wing (s : State) (w : Fin 4) (c : StageCause) (v : Fin 4) :
    ((evacuateStaged s w c).wing v).unstamped
      = if v = w then (s.wing v).unstamped.toEvacuate else (s.wing v).unstamped := by
  have standby : s.atStandby w = decide ((s.wing w).unstamped.stage = .standby) := atStandby_eq s w
  unfold evacuateStaged Wing.toEvacuate
  split
  next h =>
    rw [standby, decide_eq_true_eq] at h
    rw [leftStandby_wing]
    split
    next e => rw [e, if_pos h, if_pos h]
    next => rfl
  next h =>
    rw [standby, decide_eq_true_eq] at h
    rw [changeStage_wing]
    split
    next e => rw [e, if_neg h, if_neg h]
    next => rfl

/-- A wing's record after the wing has entered EVACUATE. -/
def Wing.evacuated (r : Wing) : Wing := r.toEvacuate.timed

theorem evacuateSounded_wing (s : State) (w : Fin 4) (c : StageCause) (v : Fin 4) :
    ((evacuateSounded s w c).wing v).unstamped
      = if v = w then (s.wing v).unstamped.evacuated else (s.wing v).unstamped := by
  rw [evacuateSounded, sound_stamped _ _ v, evacuateCalls_stamped _ _ v, evacuateTimed, modWing_unstamped,
    show ((setEgress (evacuateStaged s w c) w true).wing v).unstamped = ((evacuateStaged s w c).wing v).unstamped from
      Stamped.of_onlyIn (setEgress_within _ w true).1 (by decide) v,
    show ((setEgress (evacuateStaged s w c) w true).wing v).timed.unstamped
        = ((setEgress (evacuateStaged s w c) w true).wing v).unstamped.timed from rfl,
    show ((setEgress (evacuateStaged s w c) w true).wing v).unstamped = ((evacuateStaged s w c).wing v).unstamped from
      Stamped.of_onlyIn (setEgress_within _ w true).1 (by decide) v, evacuateStaged_wing]
  split <;> rfl

theorem mem_spreadOf {s : State} {w v : Fin 4} : v ∈ spreadOf s w ↔ v ∈ (s.wing w).spreadList := by
  simp [spreadOf]

theorem enterEvacuate_wing (s : State) (w : Fin 4) (c : StageCause) (v : Fin 4) :
    ((enterEvacuate s w c).wing v).unstamped
      = if v = w then (s.wing v).unstamped.evacuated
        else if v ∈ (s.wing w).spreadList then (s.wing v).unstamped.alertedNow else (s.wing v).unstamped := by
  have spread : ((evacuateSounded s w c).wing w).spreadList = (s.wing w).spreadList :=
    (congrArg Wing.spreadList ((evacuateSounded_wing s w c w).trans (if_pos rfl)) :)
  have own : (s.wing v).unstamped.evacuated.alertedNow = (s.wing v).unstamped.evacuated := if_neg nofun
  rw [enterEvacuate_eq, read_foldl (inv := fun _ => True) (read := fun t y => (t.wing y).unstamped)
    (fun _ _ _ => trivial) Wing.alertedNow_alertedNow (fun t a y _ => alertWing_wing w t a y) _ trivial v,
    evacuateSounded_wing]
  simp only [mem_spreadOf, spread]
  by_cases hv : v = w
  · rw [if_pos hv, own, ite_self, if_pos hv]
  · rw [if_neg hv]
    exact (if_neg hv).symm

/-! ### What follows the change of stage leaves of it -/

theorem setEgress_beside (s : State) (w : Fin 4) (x : Bool) (v : Fin 4) : Beside v s (setEgress s w x) where
  lockdown := by rw [(setEgress_within s w x).1.wing_eq (by decide)]
  awake hs := by
    have wing := (setEgress_within s w x).1.wing_eq (by decide) v
    exact ⟨(atStandby_congr (by rw [wing])).trans hs, by rw [wing]⟩
  configured z := by rw [setEgress_zone]; split <;> rfl
  wingOf z := by rw [State.wingOf, setEgress_zone]; split <;> rfl
  zone z _ := by rw [setEgress_zone]; split <;> exact ⟨rfl, rfl⟩
  owner n := by rw [(setEgress_within s w x).1.channel_eq (by decide)]
  channel n _ := by rw [(setEgress_within s w x).1.channel_eq (by decide)]; exact ⟨rfl, rfl⟩
  log := (setEgress_aside s w x).log

theorem timed_beside (s : State) (w v : Fin 4) : Beside v s (s.modWing w Wing.timed) := by
  refine .of_wing (modWing_onlyIn s w _) (by decide) (fun _ => rfl) (.of_onlyIn (modWing_onlyIn s w _) (by decide)) ?_
    fun hs => ⟨(atStandby_congr ?_).trans hs, ?_⟩
  all_goals
    rw [State.wing_modWing]
    split <;> rfl

theorem evacuateCalls_beside (s : State) (w v : Fin 4) : Beside v s (evacuateCalls s w) :=
  (evacuateCalls_stamped s w).beside (evacuateCalls_within s w).1 (by decide)
    (fun n => by rw [(evacuateCalls_within s w).1.channel_eq (by decide)])
    (Aside.foldl (evacuateCall_aside w) _ s).log v

theorem sound_beside (s : State) (w v : Fin 4) : Beside v s (sound s w) :=
  (sound_stamped s w).beside (sound_onlyIn s w) (by decide) (sound_kept s w) (sound_logGrows s w) v

theorem evacuateTimed_beside (s : State) (w : Fin 4) (c : StageCause) (v : Fin 4) :
    Beside v (evacuateStaged s w c) (evacuateTimed s w c) := (setEgress_beside _ w true v).trans (timed_beside _ w v)

/-- The rest of an entry into EVACUATE, for every wing. -/
theorem enterEvacuate_beside_staged (s : State) (w : Fin 4) (c : StageCause) (v : Fin 4) :
    Beside v (evacuateStaged s w c) (enterEvacuate s w c) :=
  ((evacuateTimed_beside s w c v).trans ((evacuateCalls_beside _ w v).trans (sound_beside _ w v))).trans
    (.foldl (fun t y => alertWing_beside w t y v) _ _)

/-! ### The wing leaves STANDBY -/

theorem changeStage_onlyIn (s : State) (w : Fin 4) (x : Stage) (c : StageCause) :
    OnlyIn logward s (changeStage s w x c) := (changeStage_within s w x c).1

theorem changeStage_lockdown (s : State) (w : Fin 4) (x : Stage) (c : StageCause) (v : Fin 4) :
    ((changeStage s w x c).wing v).lockdown = (s.wing v).lockdown := by
  have written := changeStage_wing s w x c v
  split at written <;> exact (congrArg Wing.lockdown written :)

/-- A wing's change of stage, and its leaving of STANDBY with it. -/
theorem LeavesStandby.of_changeStage {s t : State} {w : Fin 4} {x : Stage} {c : StageCause}
    (k : LeavesStandby w (changeStage s w x c) t) (hs : s.atStandby w = true) : LeavesStandby w s t := by
  have only := changeStage_onlyIn s w x c
  refine k.late ⟨changeStage_lockdown s w x c w, fun e => (Bool.false_ne_true (e.symm.trans hs)).elim,
    fun z => by rw [only.zone_eq (by decide)], fun z => wingOf_of_zone_eq (only.zone_eq (by decide) z),
    fun z _ => by rw [only.zone_eq (by decide)]; exact ⟨rfl, rfl⟩, fun n => by rw [only.channel_eq (by decide)],
    fun n _ => by rw [only.channel_eq (by decide)]; exact ⟨rfl, rfl⟩, (changeStage_aside s w x c).log⟩

theorem leftStandby_grows (s : State) (w : Fin 4) (x : Stage) (c : StageCause) : LogGrows s (leftStandby s w x c) :=
  (changeStage_aside s w x c).log.trans
    ((leaveStandby_aside _ w).log.trans (.of_onlyIn (clearAlerted_onlyIn _ w) (by decide)))

theorem leftStandby_leaves {s : State} {w : Fin 4} (h : s.atStandby w = true) (x : Stage) (c : StageCause) :
    LeavesStandby w s (leftStandby s w x c) := (leaveStandby_leaves (changeStage s w x c) w).of_changeStage h

theorem evacuateStaged_grows (s : State) (w : Fin 4) (c : StageCause) : LogGrows s (evacuateStaged s w c) := by
  unfold evacuateStaged
  split
  · exact leftStandby_grows ..
  · exact (changeStage_aside s w _ c).log

theorem returnChannel_wing (c : Channel) : (returnChannel c).wing = c.wing := rfl

theorem leftStandby_zone (s : State) (w : Fin 4) (x : Stage) (c : StageCause) (z : Fin 64) :
    (leftStandby s w x c).zone z
      = if z ∈ s.zonesOf w then
          { s.zone z with security := suspendedSecurity (s.zone z).security, testTimer := none }
        else s.zone z := by
  have only := changeStage_onlyIn s w x c
  have zones : (changeStage s w x c).zonesOf w = s.zonesOf w :=
    zonesOf_congr (fun z => by rw [only.zone_eq (by decide)]) (fun z => wingOf_of_zone_eq (only.zone_eq (by decide) z)) w
  rw [leftStandby, (clearAlerted_onlyIn _ w).zone_eq (by decide), leaveStandby_zone, zones, only.zone_eq (by decide)]

theorem leftStandby_channel (s : State) (w : Fin 4) (x : Stage) (c : StageCause) (n : Fin 276) :
    (leftStandby s w x c).channel n
      = if (s.channel n).wing = some w then returnChannel (s.channel n) else s.channel n := by
  rw [leftStandby, (clearAlerted_onlyIn _ w).channel_eq (by decide), leaveStandby_channel,
    (changeStage_onlyIn s w x c).channel_eq (by decide)]

theorem evacuateStaged_zone (s : State) (w : Fin 4) (c : StageCause) (z : Fin 64) : (evacuateStaged s w c).zone z
    = if z ∈ s.zonesOf w ∧ s.atStandby w = true then
        { s.zone z with security := suspendedSecurity (s.zone z).security, testTimer := none }
      else s.zone z := by
  unfold evacuateStaged
  split
  next h => rw [leftStandby_zone, if_congr (and_iff_left h).symm rfl rfl]
  next h => rw [(changeStage_onlyIn s w _ c).zone_eq (by decide), if_neg fun e => h e.2]

theorem evacuateStaged_channel (s : State) (w : Fin 4) (c : StageCause) (n : Fin 276) :
    (evacuateStaged s w c).channel n
      = if (s.channel n).wing = some w ∧ s.atStandby w = true then returnChannel (s.channel n) else s.channel n := by
  unfold evacuateStaged
  split
  next h => rw [leftStandby_channel, if_congr (and_iff_left h).symm rfl rfl]
  next h => rw [(changeStage_onlyIn s w _ c).channel_eq (by decide), if_neg fun e => h e.2]

theorem zonesOf_evacuateStaged (s : State) (w : Fin 4) (c : StageCause) (v : Fin 4) :
    (evacuateStaged s w c).zonesOf v = s.zonesOf v :=
  zonesOf_congr (fun z => by rw [evacuateStaged_zone]; split <;> rfl)
    (fun z => by rw [State.wingOf, evacuateStaged_zone]; split <;> rfl) v

theorem evacuateStaged_owner (s : State) (w : Fin 4) (c : StageCause) (n : Fin 276) :
    ((evacuateStaged s w c).channel n).wing = (s.channel n).wing := by
  rw [evacuateStaged_channel]
  split
  · rw [returnChannel_wing]
  · rfl

/-- The entry into EVACUATE of a wing that was in STANDBY. -/
theorem enterEvacuate_leaves {s : State} {w : Fin 4} (h : s.atStandby w = true) (c : StageCause) :
    LeavesStandby w s (enterEvacuate s w c) := by
  have left := leftStandby_leaves h .evacuate c
  rw [show leftStandby s w .evacuate c = evacuateStaged s w c from (if_pos h).symm] at left
  refine left.grow (evacuateStaged_grows s w c) ?_ (zonesOf_evacuateStaged s w c w) (evacuateStaged_owner s w c)
    (enterEvacuate_beside_staged s w c w)
  have stage : ((evacuateStaged s w c).wing w).stage = .evacuate :=
    (congrArg Wing.stage ((evacuateStaged_wing s w c w).trans (if_pos rfl)) :)
  rw [atStandby_eq, stage]
  rfl

/-- Beside a wing, another wing's entry into EVACUATE. -/
theorem enterEvacuate_beside {s : State} {v w : Fin 4} (h : v ≠ w) (c : StageCause) :
    Beside v s (enterEvacuate s w c) := by
  have wing := (evacuateStaged_wing s w c v).trans (if_neg h)
  have staged : Beside v s (evacuateStaged s w c) := by
    refine ⟨(congrArg Wing.lockdown wing :), fun hs => ⟨(atStandby_congr (congrArg Wing.stage wing :)).trans hs,
      (congrArg Wing.alerted wing :)⟩, fun z => by rw [evacuateStaged_zone]; split <;> rfl,
      fun z => by rw [State.wingOf, evacuateStaged_zone]; split <;> rfl, fun z hz => ?_, evacuateStaged_owner s w c,
      fun n hn => ?_, evacuateStaged_grows s w c⟩
    · rw [evacuateStaged_zone, if_neg fun e => h ((mem_zonesOf.mp hz).2.symm.trans (mem_zonesOf.mp e.1).2)]
      exact ⟨rfl, rfl⟩
    · rw [evacuateStaged_channel, if_neg fun e => h (Option.some.inj (hn.symm.trans e.1))]
      exact ⟨rfl, rfl⟩
  exact staged.trans (enterEvacuate_beside_staged s w c v)

theorem zonesOf_leftStandby (s : State) (w : Fin 4) (x : Stage) (c : StageCause) (v : Fin 4) :
    (leftStandby s w x c).zonesOf v = s.zonesOf v :=
  zonesOf_congr (fun z => by rw [leftStandby_zone]; split <;> rfl)
    (fun z => by rw [State.wingOf, leftStandby_zone]; split <;> rfl) v

theorem leftStandby_owner (s : State) (w : Fin 4) (x : Stage) (c : StageCause) (n : Fin 276) :
    ((leftStandby s w x c).channel n).wing = (s.channel n).wing := by
  rw [leftStandby_channel]
  split
  · rw [returnChannel_wing]
  · rfl

theorem leftStandby_stage (s : State) (w : Fin 4) (x : Stage) (c : StageCause) :
    ((leftStandby s w x c).wing w).stage = x := by
  have written := leftStandby_wing s w x c w
  rw [if_pos rfl] at written
  exact Wing.stage_of_unstamped written

theorem enterAckWait_eq (s : State) (w : Fin 4) :
    enterAckWait s w = sound (leftStandby s w (.ackWait (s.wing w).tAck) .staged) w := rfl

/-- The entry into ACK_WAIT of a wing that was in STANDBY. -/
theorem enterAckWait_leaves {s : State} {w : Fin 4} (h : s.atStandby w = true) :
    LeavesStandby w s (enterAckWait s w) := by
  rw [enterAckWait_eq]
  exact (leftStandby_leaves h _ _).grow (leftStandby_grows s w _ _) (by rw [atStandby_eq, leftStandby_stage]; rfl)
    (zonesOf_leftStandby s w _ _ w) (leftStandby_owner s w _ _) (sound_beside _ w w)

end Sys2Proof.Machine
end

section
/-! SUPPORT. What a wing's entry into EVACUATE leaves of the zones, the sounder, the Route Engine, the detectors and the
calls (R55, R69 to R71, R73, R75, R126, R137). -/

set_option autoImplicit false

namespace Sys2Proof.Machine

/-! ### The pieces between the parts -/

/-- The pieces that the calls, the sounder and the spread list reach. -/
theorem enterEvacuate_onlyIn_timed (s : State) (w : Fin 4) (c : StageCause) :
    OnlyIn ([.channels] ++ queueward) (evacuateTimed s w c) (enterEvacuate s w c) := by
  rw [enterEvacuate_eq, evacuateSounded]
  exact (((evacuateCalls_within _ w).1.mono (by decide)).trans ((sound_onlyIn _ w).mono (by decide))).trans
    (OnlyIn.foldl (fun t v => (alertWing_within w t v).1.mono (by decide)) _ _)

theorem evacuateStaged_onlyIn (s : State) (w : Fin 4) (c : StageCause) :
    OnlyIn leavingStandby s (evacuateStaged s w c) := by
  have staged : OnlyIn leavingStandby s (changeStage s w .evacuate c) := (changeStage_onlyIn s w _ c).mono (by decide)
  unfold evacuateStaged
  split
  · exact (staged.trans (leaveStandby_within _ w).1).trans ((clearAlerted_onlyIn _ w).mono (by decide))
  · exact staged

theorem evacuateTimed_onlyIn (s : State) (w : Fin 4) (c : StageCause) :
    OnlyIn [.zones, .engine, .wings] (evacuateStaged s w c) (evacuateTimed s w c) :=
  ((setEgress_within _ w true).1.mono (by decide)).trans ((modWing_onlyIn _ w _).mono (by decide))

/-! ### The zones -/

theorem enterEvacuate_zone (s : State) (w : Fin 4) (c : StageCause) (z : Fin 64) : (enterEvacuate s w c).zone z
    = { s.zone z with
        egress := (s.zone z).egress || decide (z ∈ s.zonesOf w)
        security := if z ∈ s.zonesOf w ∧ s.atStandby w = true then suspendedSecurity (s.zone z).security
          else (s.zone z).security
        testTimer := if z ∈ s.zonesOf w ∧ s.atStandby w = true then none else (s.zone z).testTimer } := by
  rw [(enterEvacuate_onlyIn_timed s w c).zone_eq (by decide), evacuateTimed,
    (modWing_onlyIn _ w _).zone_eq (by decide), setEgress_zone, zonesOf_evacuateStaged, evacuateStaged_zone]
  by_cases hz : z ∈ s.zonesOf w <;> by_cases hs : s.atStandby w = true <;> simp [hz, hs]

theorem zonesOf_enterEvacuate (s : State) (w : Fin 4) (c : StageCause) (v : Fin 4) :
    (enterEvacuate s w c).zonesOf v = s.zonesOf v :=
  zonesOf_congr (fun z => by rw [enterEvacuate_zone]) (fun z => by rw [State.wingOf, enterEvacuate_zone]; rfl) v

/-! ### The stages -/

theorem enterEvacuate_own (s : State) (w : Fin 4) (c : StageCause) :
    ((enterEvacuate s w c).wing w).unstamped = (s.wing w).unstamped.evacuated :=
  (enterEvacuate_wing s w c w).trans (if_pos rfl)

theorem enterEvacuate_stage (s : State) (w : Fin 4) (c : StageCause) :
    ((enterEvacuate s w c).wing w).stage = .evacuate := Wing.stage_of_unstamped (enterEvacuate_own s w c)

theorem Wing.alertedNow_stage (r : Wing) : r.alertedNow.stage = r.stage := by
  unfold Wing.alertedNow
  split <;> rfl

theorem enterEvacuate_stage_other {s : State} {v w : Fin 4} (h : v ≠ w) (c : StageCause) :
    ((enterEvacuate s w c).wing v).stage = (s.wing v).stage := by
  have wing := enterEvacuate_wing s w c v
  rw [if_neg h] at wing
  split at wing
  · exact (Wing.stage_of_unstamped wing).trans (Wing.alertedNow_stage _)
  · exact Wing.stage_eq wing

/-! ### The sounder (R75) -/

/-- A wing in EVACUATE whose sounder sounds for it. -/
def SoundsEvacuation (w : Fin 4) (s : State) : Prop :=
  (s.wing w).stage = .evacuate ∧ (s.channel (sounderChannel w)).source = .evacuate

theorem alertWing_soundsEvacuation {u : Fin 4} {s : State} {w v : Fin 4} (h : SoundsEvacuation w s) :
    SoundsEvacuation w (alertWing u s v) := by
  obtain ⟨stage, source⟩ := h
  unfold alertWing
  split
  next hv =>
    have hne : w ≠ v := fun e => by
      rw [← e, atStandby_eq, stage] at hv
      cases hv
    refine ⟨?_, ?_⟩
    · rw [(sound_stamped _ v).stage, appendWing, (append_stamped _ _ _ _ _).stage, State.wing_modWing, if_neg hne]
      exact stage
    · rw [sound_source_other hne, appendWing, (append_onlyIn _ _ _ _ _).channel_eq (by decide)]
      exact source
  next => exact ⟨stage, source⟩

theorem enterEvacuate_sounds (s : State) (w : Fin 4) (c : StageCause) : SoundsEvacuation w (enterEvacuate s w c) := by
  rw [enterEvacuate_eq]
  refine foldl_keeps (P := SoundsEvacuation w) (fun t v => alertWing_soundsEvacuation) _ ⟨?_, ?_⟩
  · exact Wing.stage_of_unstamped ((evacuateSounded_wing s w c w).trans (if_pos rfl))
  · have timed : ((evacuateTimed s w c).wing w).stage = .evacuate ∧ ((evacuateTimed s w c).wing w).silenced = false := by
      rw [evacuateTimed, State.wing_modWing_self, (setEgress_within _ w true).1.wing_eq (by decide)]
      exact ⟨Wing.stage_of_unstamped ((evacuateStaged_wing s w c w).trans (if_pos rfl)), rfl⟩
    have called := evacuateCalls_stamped (evacuateTimed s w c) w w
    have stage : ((evacuateCalls (evacuateTimed s w c) w).wing w).stage = .evacuate :=
      (Stamped.stage (evacuateCalls_stamped _ w) w).trans timed.1
    have silenced : ((evacuateCalls (evacuateTimed s w c) w).wing w).silenced = false :=
      (Wing.silenced_eq called).trans timed.2
    rw [evacuateSounded, sound_source, sounderValue, stage, silenced]
    rfl

/-! ### The Route Engine (R137) -/

theorem evacuateStaged_enginePassed (s : State) (w : Fin 4) (c : StageCause) :
    EnginePassed s (evacuateStaged s w c) := by
  have staged : EnginePassed s (changeStage s w .evacuate c) := .of_onlyIn (changeStage_onlyIn s w _ c) (by decide)
  exact .ite ((staged.trans (leaveStandby_enginePassed _ w)).trans (.of_onlyIn (clearAlerted_onlyIn _ w) (by decide)))
    staged

theorem enterEvacuate_triggers {s : State} {w : Fin 4} (hs : s.inService = true)
    (h : ∃ z ∈ s.zonesOf w, (s.zone z).egress = false) (c : StageCause) :
    (enterEvacuate s w c).engine = s.engine.triggered := by
  obtain ⟨z, hz, hx⟩ := h
  have staged := evacuateStaged_enginePassed s w c
  have egress : ((evacuateStaged s w c).zone z).egress = false := by
    rw [evacuateStaged_zone]
    split <;> exact hx
  have set := setEgress_triggers (s := evacuateStaged s w c) (w := w) (x := true) (staged.inService.trans hs)
    ⟨z, zonesOf_evacuateStaged s w c w ▸ hz, by rw [egress]; decide⟩
  exact staged.triggered_of set ((EnginePassed.of_onlyIn (modWing_onlyIn _ w _) (by decide)).trans
    (.of_onlyIn (enterEvacuate_onlyIn_timed s w c) (by decide)))

/-! ### The detectors (R55) -/

theorem leftStandby_testsEnd (s : State) (w : Fin 4) (x : Stage) (c : StageCause) :
    TestsEnd s (leftStandby s w x c) :=
  ((TestsEnd.of_onlyIn (changeStage_onlyIn s w x c) (by decide)).trans (leaveStandby_testsEnd _ w)).trans
    (.of_onlyIn (clearAlerted_onlyIn _ w) (by decide))

theorem enterEvacuate_testsEnd (s : State) (w : Fin 4) (c : StageCause) : TestsEnd s (enterEvacuate s w c) := by
  have staged : TestsEnd s (evacuateStaged s w c) := by
    unfold evacuateStaged
    split
    · exact leftStandby_testsEnd ..
    · exact .of_onlyIn (changeStage_onlyIn s w _ c) (by decide)
  have timed : TestsEnd (evacuateStaged s w c) (evacuateTimed s w c) :=
    .of_same (evacuateTimed_onlyIn s w c .detectors (by decide)) fun z => by
      rw [evacuateTimed, (modWing_onlyIn _ w _).zone_eq (by decide), setEgress_zone]
      split <;> rfl
  exact (staged.trans timed).trans (.of_onlyIn (enterEvacuate_onlyIn_timed s w c) (by decide))

theorem enterAckWait_testsEnd (s : State) (w : Fin 4) : TestsEnd s (enterAckWait s w) :=
  (leftStandby_testsEnd ..).trans (.of_onlyIn (sound_onlyIn _ w) (by decide))

/-! ### The entries -/

theorem enterEvacuate_logged (s : State) (w : Fin 4) (c : StageCause) : LoggedFirst s (enterEvacuate s w c)
    [{ kind := .stageChange, subject := .wing w, wing := some w, detail := .stage .evacuate c }] := by
  have staged : LogGrows (changeStage s w .evacuate c) (evacuateStaged s w c) := by
    unfold evacuateStaged
    split
    · exact (leaveStandby_aside _ w).log.trans (.of_onlyIn (clearAlerted_onlyIn _ w) (by decide))
    · exact .refl _
  obtain ⟨-, more, logged⟩ := staged.trans (enterEvacuate_beside_staged s w c w).log
  exact (changeStage_logged s w .evacuate c).first.andThen logged (changeStage_aside s w _ c).log.1

theorem enterEvacuate_alerted {s : State} {w v : Fin 4} (c : StageCause) (hv : v ∈ (s.wing w).spreadList) (hne : v ≠ w)
    (hs : s.atStandby v = true) (ha : (s.wing v).alerted = false) : LoggedAmong s (enterEvacuate s w c)
      { kind := .wingAlerted, subject := .wing v, wing := some v, detail := .wing w } := by
  have before : LogGrows s (evacuateSounded s w c) :=
    (evacuateStaged_grows s w c).trans ((evacuateTimed_beside s w c w).trans
      ((evacuateCalls_beside _ w w).trans (sound_beside _ w w))).log
  have spread : ((evacuateSounded s w c).wing w).spreadList = (s.wing w).spreadList :=
    (congrArg Wing.spreadList ((evacuateSounded_wing s w c w).trans (if_pos rfl)) :)
  rw [enterEvacuate_eq]
  refine .late before (loggedAmong_foldl (fun t y => (alertWing_aside w t y).log)
    (mem_spreadOf.mpr (spread ▸ hv)) fun front hn => ?_)
  have same : ((front.foldl (alertWing w) (evacuateSounded s w c)).wing v).unstamped = (s.wing v).unstamped :=
    (foldl_same (f := alertWing w) (g := fun t => (t.wing v).unstamped)
      (fun t y hy => (alertWing_wing w t y v).trans (if_neg fun e : v = y => hn (e ▸ hy))) _).trans
      ((evacuateSounded_wing s w c v).trans (if_neg hne))
  exact alertWing_logged ((atStandby_congr (Wing.stage_eq same)).trans hs)
    ((congrArg Wing.alerted same :).trans ha)

/-! ### The calls (R126) -/

theorem evacuateTimed_wing (s : State) (w : Fin 4) (c : StageCause) :
    ((evacuateTimed s w c).wing w).evacDesk = (s.wing w).evacDesk := by
  rw [evacuateTimed, State.wing_modWing_self, (setEgress_within _ w true).1.wing_eq (by decide)]
  exact (congrArg Wing.evacDesk ((evacuateStaged_wing s w c w).trans (if_pos rfl)) :)

theorem enterEvacuate_call {s : State} {w : Fin 4} (x : StageCause) {c : Fin 64} {h : HelpCall} (hq : c ∈ s.callQueue)
    (hw : s.callWing c = w) (hc : s.call c = some h) : CallEvacuated w c h s (enterEvacuate s w x) := by
  have staged := evacuateStaged_onlyIn s w x
  have timed := evacuateTimed_onlyIn s w x
  have queue : (evacuateTimed s w x).callQueue = s.callQueue :=
    Eq.trans (timed .callQueue (by decide)) (staged .callQueue (by decide))
  have call : (evacuateTimed s w x).call c = s.call c :=
    (timed.call_eq (by decide) c).trans (staged.call_eq (by decide) c)
  have beside := evacuateTimed_beside s w x w
  have wing : (evacuateTimed s w x).callWing c = s.callWing c := by
    rw [State.callWing, timed.point_eq (by decide), staged.point_eq (by decide), beside.wingOf, State.wingOf,
      evacuateStaged_zone]
    split <;> rfl
  have before : LogGrows s (evacuateTimed s w x) := (evacuateStaged_grows s w x).trans beside.log
  have evacuated := evacuateCalls_evacuated (s := evacuateTimed s w x) (w := w) (queue ▸ hq) (wing.trans hw)
    (call.trans hc)
  have tail : OnlyIn ([.channels] ++ logward) (evacuateCalls (evacuateTimed s w x) w) (enterEvacuate s w x) := by
    rw [enterEvacuate_eq, evacuateSounded]
    exact ((sound_onlyIn _ w).mono (by decide)).trans (OnlyIn.foldl (fun t v => (alertWing_within w t v).1) _ _)
  have after : LogGrows (evacuateCalls (evacuateTimed s w x) w) (enterEvacuate s w x) := by
    rw [enterEvacuate_eq, evacuateSounded]
    exact (sound_logGrows _ w).trans (.foldl (fun t v => (alertWing_aside w t v).log) _ _)
  exact (evacuated.late (evacuateTimed_wing s w x) before).after
    (before.trans (evacuateCalls_beside _ w w).log) (.of_eq (tail.call_eq (by decide) c)) after

end Sys2Proof.Machine
end

section
/-! SUPPORT. What an event does before a wing changes its stage, and what it does afterwards up to its end. -/

set_option autoImplicit false

namespace Sys2Proof.Machine

/-! ### Before the stage machine -/

/-- A zone's record without what the states of its detectors write in it (R15, R60, R61). -/
def Zone.unfired (r : Zone) : Zone := { r with fire := .normal, impairedCount := 0 }

/-- What the Detector Evaluation Unit and the fire state of a zone write before a wing's stage machine acts. -/
structure Prelude (b s : State) : Prop where
  wings : Stamped b s
  zone : ∀ z, (s.zone z).unfired = (b.zone z).unfired
  pieces : OnlyIn detectorward b s
  log : LogGrows b s
  engine : EnginePassed b s

theorem Prelude.refl (s : State) : Prelude s s := ⟨.refl s, fun _ => rfl, OnlyIn.refl _ s, .refl s, .refl s⟩

theorem Prelude.trans {s t u : State} (h : Prelude s t) (k : Prelude t u) : Prelude s u :=
  ⟨h.wings.trans k.wings, fun z => (k.zone z).trans (h.zone z), h.pieces.trans k.pieces, h.log.trans k.log,
    h.engine.trans k.engine⟩

theorem Prelude.foldl {α : Type} {f : State → α → State} (h : ∀ s x, Prelude s (f s x)) :
    ∀ (xs : List α) (s : State), Prelude s (xs.foldl f s)
  | [], s => Prelude.refl s
  | x :: xs, s => (h s x).trans (Prelude.foldl h xs (f s x))

theorem Prelude.ite {c : Prop} [Decidable c] {s t u : State} (ht : Prelude s t) (hu : Prelude s u) :
    Prelude s (if c then t else u) := by
  split
  · exact ht
  · exact hu

theorem append_prelude (s : State) (k : EntryKind) (x : Subject) (w : Option (Fin 4)) (d : Detail) :
    Prelude s (append s k x w d) :=
  ⟨append_stamped s k x w d, fun z => by rw [append_zone], (append_within s k x w d).1.mono (by decide),
    append_logGrows s k x w d, append_enginePassed s k x w d⟩

theorem Prelude.append {s t : State} (h : Prelude s t) (k : EntryKind) (x : Subject) (w : Option (Fin 4))
    (d : Detail) : Prelude s (append t k x w d) := h.trans (append_prelude t k x w d)

theorem putDetector_prelude (s : State) (n : Fin 192) (x : Option Detector) : Prelude s (s.putDetector n x) :=
  ⟨fun _ => rfl, fun _ => rfl, (putDetector_works s n x).within.1.mono (by decide), (putDetector_works s n x).log,
    ⟨rfl, .inl rfl⟩⟩

theorem followImpaired_prelude (s : State) (z : Fin 64) (was now : Bool) : Prelude s (followImpaired s z was now) := by
  obtain ⟨zones, only⟩ := followImpaired_eq s z was now
  refine ⟨.of_onlyIn only (by decide), fun y => ?_, only.mono (by decide), .of_onlyIn only (by decide),
    followImpaired_enginePassed s z was now⟩
  rw [State.zone, zones, Tbl.get_modify]
  split <;> rfl

theorem writeDetector_prelude (s : State) (n : Fin 192) (old new : Detector) :
    Prelude s (writeDetector s n old new) := (putDetector_prelude ..).trans (followImpaired_prelude ..)

theorem writeFire_zone (s : State) (z : Fin 64) (f : FireState) (y : Fin 64) : (writeFire s z f).zone y
    = if y = z ∧ (s.zone z).fire.name ≠ f.name then { s.zone y with fire := f } else s.zone y := by
  unfold writeFire
  split
  next h => rw [if_neg fun e => e.2 h]
  next h =>
    rw [(refreshExits_within _ z).1.zone_eq (by decide), (trigger_onlyIn _).zone_eq (by decide), State.zone_modZone,
      if_congr (and_iff_left h).symm rfl rfl]

theorem writeFire_prelude (s : State) (z : Fin 64) (f : FireState) : Prelude s (writeFire s z f) := by
  have only := (writeFire_within s z f).1
  refine ⟨.of_onlyIn only (by decide), fun y => ?_, only.mono (by decide), .of_onlyIn only (by decide),
    writeFire_enginePassed s z f⟩
  rw [writeFire_zone]
  split <;> rfl

theorem deriveFire_prelude (s : State) (z : Fin 64) : Prelude s (deriveFire s z) := .ite (.refl s) (writeFire_prelude ..)

section
variable {b s : State} (h : Prelude b s)
include h

theorem Prelude.configured (z : Fin 64) : (s.zone z).configured = (b.zone z).configured :=
  (congrArg Zone.configured (h.zone z) :)

theorem Prelude.wingOf (z : Fin 64) : s.wingOf z = b.wingOf z := (congrArg Zone.wing (h.zone z) :)

theorem Prelude.security (z : Fin 64) : (s.zone z).security = (b.zone z).security :=
  (congrArg Zone.security (h.zone z) :)

theorem Prelude.testTimer (z : Fin 64) : (s.zone z).testTimer = (b.zone z).testTimer :=
  (congrArg Zone.testTimer (h.zone z) :)

theorem Prelude.egress (z : Fin 64) : (s.zone z).egress = (b.zone z).egress := (congrArg Zone.egress (h.zone z) :)

theorem Prelude.zonesOf (w : Fin 4) : s.zonesOf w = b.zonesOf w := zonesOf_congr h.configured h.wingOf w

theorem Prelude.atStandby (w : Fin 4) : s.atStandby w = b.atStandby w := atStandby_congr (h.wings.stage w)

theorem Prelude.channel (n : Fin 276) : s.channel n = b.channel n := h.pieces.channel_eq (by decide) n

theorem Prelude.beside (w : Fin 4) : Beside w b s :=
  ⟨(congrArg Wing.lockdown (h.wings w) :), fun hs => ⟨(h.atStandby w).trans hs, (congrArg Wing.alerted (h.wings w) :)⟩,
    h.configured, h.wingOf, fun z _ => ⟨h.security z, h.testTimer z⟩, fun n => by rw [h.channel],
    fun n _ => by rw [h.channel]; exact ⟨rfl, rfl⟩, h.log⟩

end

/-! ### After the stage machine -/

/-- What the rest of an event leaves of a wing's change of stage: the zones, the detectors, the wings but for their
revisions, the channels but for what the doors show, and the calls but for the offering round. -/
structure Outlasts (u t : State) : Prop where
  wings : Stamped u t
  zones : t.zones = u.zones
  detectors : t.detectors = u.detectors
  kept : ∀ n, (t.channel n).kept = (u.channel n).kept
  channel : ∀ n : Fin 276, 48 ≤ n.val → t.channel n = u.channel n
  calls : ∀ c, CallOffered c u t
  log : LogGrows u t
  doors : DoorsKept u t

theorem Outlasts.trans {s t u : State} (h : Outlasts s t) (k : Outlasts t u) : Outlasts s u where
  wings := h.wings.trans k.wings
  zones := k.zones.trans h.zones
  detectors := k.detectors.trans h.detectors
  kept n := (k.kept n).trans (h.kept n)
  channel n hn := (k.channel n hn).trans (h.channel n hn)
  calls c := (h.calls c).trans (k.calls c)
  log := h.log.trans k.log
  doors := h.doors.trans k.doors

/-- Work that writes neither zones nor detectors nor channels nor doors, and the calls as an offering round does. -/
theorem Outlasts.of_onlyIn {ps : List Piece} {u t : State} (h : OnlyIn ps u t)
    (hp : ∀ p ∈ [Piece.zones, .detectors, .channels, .doors], p ∉ ps) (hw : Stamped u t) (hc : ∀ c, CallOffered c u t)
    (hl : LogGrows u t) : Outlasts u t where
  wings := hw
  zones := h .zones (hp _ (by decide))
  detectors := h .detectors (hp _ (by decide))
  kept n := by rw [h.channel_eq (hp _ (by decide))]
  channel n _ := h.channel_eq (hp _ (by decide)) n
  calls := hc
  log := hl
  doors := .of_same (h .doors (hp _ (by decide)))

theorem Outlasts.refl (s : State) : Outlasts s s :=
  .of_onlyIn (OnlyIn.refl [] s) (by decide) (.refl s) (fun _ => .of_eq rfl) (.refl s)

/-- The zones of a state through the rest of the event. -/
theorem Outlasts.zone {u t : State} (h : Outlasts u t) (z : Fin 64) : t.zone z = u.zone z := by
  rw [State.zone, State.zone, h.zones]

theorem Outlasts.detector {u t : State} (h : Outlasts u t) (n : Fin 192) : t.detector n = u.detector n := by
  rw [State.detector, State.detector, h.detectors]

theorem Outlasts.beside {u t : State} (h : Outlasts u t) (w : Fin 4) : Beside w u t :=
  ⟨(congrArg Wing.lockdown (h.wings w) :),
    fun hs => ⟨(atStandby_congr (h.wings.stage w)).trans hs, (congrArg Wing.alerted (h.wings w) :)⟩,
    fun z => by rw [h.zone], fun z => wingOf_of_zone_eq (h.zone z), fun z _ => by rw [h.zone]; exact ⟨rfl, rfl⟩,
    fun n => (Channel.rig_of_kept (h.kept n)).1, fun n _ => (Channel.rig_of_kept (h.kept n)).2, h.log⟩

theorem Outlasts.testsEnd {u t : State} (h : Outlasts u t) : TestsEnd u t :=
  .of_same h.detectors fun z => by rw [h.zone]

theorem offeringRound_outlasts (s : State) : Outlasts s (offeringRound s) :=
  .of_onlyIn (offeringRound_within s).1 (by decide) (offeringRound_stamped s) (offeringRound_callOffered s)
    (offeringRound_aside s).log

theorem offerAfterEvacuation_outlasts (b s : State) : Outlasts s (offerAfterEvacuation b s) := by
  unfold offerAfterEvacuation
  split
  · exact offeringRound_outlasts s
  · exact .refl s

theorem endEvent_outlasts (b s : State) : Outlasts s (endEvent b s) where
  wings := .of_onlyIn (endEvent_onlyIn b s) (by decide)
  zones := endEvent_onlyIn b s .zones (by decide)
  detectors := endEvent_onlyIn b s .detectors (by decide)
  kept n := ((endEvent_kept b s).2 n).1
  channel n hn := ((endEvent_kept b s).2 n).2 hn (by simp)
  calls c := .of_eq (OnlyIn.call_eq (endEvent_onlyIn b s) (by decide) c)
  log := (endEvent_aside b s).log
  doors := (endEvent_kept b s).1

theorem modUnit_outlasts (s : State) (u : ScanUnit) (f : Loop → Loop) : Outlasts s (modUnit s u f) :=
  have only := modUnit_onlyIn s u f
  .of_onlyIn only (by decide) (.of_onlyIn only (by decide)) (fun c => .of_eq (only.call_eq (by decide) c))
    (.of_onlyIn only (by decide))

theorem append_outlasts (s : State) (k : EntryKind) (x : Subject) (w : Option (Fin 4)) (d : Detail) :
    Outlasts s (append s k x w d) :=
  have only := append_onlyIn s k x w d
  .of_onlyIn only (by decide) (append_stamped s k x w d) (fun c => .of_eq (only.call_eq (by decide) c))
    (append_logGrows s k x w d)

theorem clearLineFault_outlasts (s : State) (u : ScanUnit) (r : Reading) : Outlasts s (clearLineFault s u r) := by
  unfold clearLineFault
  split
  · exact (modUnit_outlasts s u _).trans (append_outlasts _ _ _ _ _)
  · exact .refl s

/-- The rest of an event from `b`, its end included. -/
structure Concludes (b u t : State) : Prop extends Outlasts u t where
  engine : u.engine = b.engine.triggered → Triggered b t

theorem concludes_endEvent {b u v : State} (h : Outlasts u v) (he : v.engine = u.engine) :
    Concludes b u (endEvent b v) := ⟨h.trans (endEvent_outlasts b v), fun e => endEvent_triggered (he.trans e)⟩

/-! ### Leaving STANDBY and entering EVACUATE within an event -/

theorem LeavesStandby.concluded {w : Fin 4} {b s u t : State} (h : LeavesStandby w s u) (hp : Prelude b s)
    (hl : LogGrows s u) (hw : u.atStandby w = false) (hz : u.zonesOf w = s.zonesOf w)
    (ho : ∀ n, (u.channel n).wing = (s.channel n).wing) (k : Outlasts u t) : LeavesStandby w b t :=
  (h.late (hp.beside w)).grow (hp.log.trans hl) hw (hz.trans (hp.zonesOf w))
    (fun n => by rw [ho, hp.channel]) (k.beside w)

theorem enterEvacuate_owner (s : State) (w : Fin 4) (c : StageCause) (n : Fin 276) :
    ((enterEvacuate s w c).channel n).wing = (s.channel n).wing :=
  ((enterEvacuate_beside_staged s w c w).owner n).trans (evacuateStaged_owner s w c n)

theorem enterEvacuate_logGrows (s : State) (w : Fin 4) (c : StageCause) : LogGrows s (enterEvacuate s w c) :=
  (evacuateStaged_grows s w c).trans (enterEvacuate_beside_staged s w c w).log

theorem enterEvacuate_not_standby (s : State) (w : Fin 4) (c : StageCause) :
    (enterEvacuate s w c).atStandby w = false := by rw [atStandby_eq, enterEvacuate_stage]; rfl

/-- An entry into EVACUATE within an event. -/
theorem entersEvacuate {b s t : State} {w : Fin 4} {c : StageCause} (hp : Prelude b s)
    (k : Concludes b (enterEvacuate s w c) t) : EntersEvacuate w b t := by
  have own := (k.wings w).trans (enterEvacuate_own s w c)
  have grown := enterEvacuate_logGrows s w c
  have zone : ∀ z, t.zone z = (enterEvacuate s w c).zone z := k.zone
  have first := hp.wings w
  refine ⟨Wing.stage_of_unstamped own, (congrArg Wing.silenced own :), ?_, fun hs => ?_, fun z hz => ⟨?_, fun hs => ?_⟩,
    fun hs hx => ?_, ?_, fun v hv => ?_, fun v hv hne hs => ⟨?_, fun ha => ?_⟩, fun d hq hw h hc => ?_, ?_⟩
  · have timer := (congrArg Wing.spreadTimer own :)
    rw [first] at timer
    exact timer
  · exact (enterEvacuate_leaves ((hp.atStandby w).trans hs) c).concluded hp grown (enterEvacuate_not_standby s w c)
      (zonesOf_enterEvacuate s w c w) (enterEvacuate_owner s w c) k.toOutlasts
  · rw [zone, enterEvacuate_zone, decide_eq_true (hp.zonesOf w ▸ hz), Bool.or_true]
  · have stays : ¬ (z ∈ s.zonesOf w ∧ s.atStandby w = true) := fun e =>
      Bool.false_ne_true ((hs.symm.trans (hp.atStandby w).symm).trans e.2)
    rw [zone, enterEvacuate_zone, if_neg stays, if_neg stays]
    exact ⟨hp.security z, hp.testTimer z⟩
  · obtain ⟨z, hz, he⟩ := hx
    have triggered := enterEvacuate_triggers (hp.engine.inService.trans hs)
      ⟨z, hp.zonesOf w ▸ hz, (hp.egress z).trans he⟩ c
    exact k.engine (hp.engine.triggered_of triggered (.refl _))
  · rw [k.channel _ (by simp [sounderChannel]; omega)]
    exact (enterEvacuate_sounds s w c).2
  · exact ((k.wings.stage v).trans (enterEvacuate_stage_other hv c)).trans (hp.wings.stage v)
  · have wing := (k.wings v).trans (enterEvacuate_wing s w c v)
    have listed : v ∈ (s.wing w).spreadList := by
      rw [show (s.wing w).spreadList = (b.wing w).spreadList from (congrArg Wing.spreadList first :)]
      exact hv
    have standby : (s.wing v).unstamped.stage = .standby := by
      have := (hp.atStandby v).trans hs
      rw [atStandby_eq, decide_eq_true_eq] at this
      exact this
    rw [if_neg hne, if_pos listed, Wing.alertedNow, if_pos standby] at wing
    exact (congrArg Wing.alerted wing :)
  · have listed : v ∈ (s.wing w).spreadList := by
      rw [show (s.wing w).spreadList = (b.wing w).spreadList from (congrArg Wing.spreadList first :)]
      exact hv
    exact ((enterEvacuate_alerted c listed hne ((hp.atStandby v).trans hs)
      ((congrArg Wing.alerted (hp.wings v) :).trans ha)).late hp.log).grow (hp.log.trans grown).1 k.log
  · have call := hp.pieces.call_eq (by decide) d
    have queue : s.callQueue = b.callQueue := hp.pieces .callQueue (by decide)
    have wing : s.callWing d = b.callWing d := by
      rw [State.callWing, hp.pieces.point_eq (by decide), hp.wingOf]
      rfl
    exact ((enterEvacuate_call c (queue ▸ hq) (wing.trans hw) (call.trans hc)).late
      (congrArg Wing.evacDesk first :) hp.log).after (hp.log.trans grown) (k.calls d) k.log
  · exact ((DoorsKept.of_same (hp.pieces .doors (by decide))).trans
      (.of_same ((enterEvacuate_within s w c).1 .doors (by decide)))).trans k.doors

end Sys2Proof.Machine
end

section
/-! SUPPORT. A zone that takes an alarm, and its wing (R61, R63, R64, R76), within an event. -/

set_option autoImplicit false

namespace Sys2Proof.Machine

/-! ### Runs of entries -/

theorem LoggedRun.grow {s t u : State} {xs : List LogItem} (h : LoggedRun s t xs) (hs : t.seconds = s.seconds)
    (k : LogGrows t u) : LoggedRun s u xs := by
  obtain ⟨before, after, h⟩ := h
  obtain ⟨-, more, k⟩ := k
  exact ⟨before, after ++ more, by simpa using h.trans k hs⟩

theorem LoggedRun.late {s t u : State} {xs : List LogItem} (h : LogGrows s t) (k : LoggedRun t u xs) :
    LoggedRun s u xs := by
  obtain ⟨hs, before, h⟩ := h
  obtain ⟨mid, after, k⟩ := k
  exact ⟨before ++ mid, after, by simpa using h.trans k hs⟩

theorem Logged.run {s t : State} {xs : List LogItem} (h : Logged s t xs) : LoggedRun s t xs := ⟨[], [], by simpa using h⟩

theorem Logged.refl_of_onlyIn {ps : List Piece} {s t : State} (h : OnlyIn ps s t) (hp : Piece.log ∉ ps) :
    Logged s t [] := (Logged.refl s).keep (h .log hp)

/-! ### The zone enters ALARM (R61) -/

theorem enterAlarm_prelude (s : State) (z : Fin 64) (o : AlarmOrigin) : Prelude s (enterAlarm s z o) :=
  (writeFire_prelude ..).append _ _ _ _

theorem enterAlarm_fire {s : State} {z : Fin 64} (h : (s.zone z).fire.inAlarm = false) (o : AlarmOrigin) :
    ((enterAlarm s z o).zone z).fire = .alarm o s.seconds := by
  have name : (s.zone z).fire.name ≠ (FireState.alarm o s.seconds).name := of_decide_eq_false h
  rw [enterAlarm, appendZone, append_zone, writeFire_zone, if_pos ⟨rfl, name⟩]

theorem enterAlarm_logged (s : State) (z : Fin 64) (o : AlarmOrigin) : Logged s (enterAlarm s z o)
    [{ kind := .zoneAlarm, subject := .zone z, wing := some (s.wingOf z), detail := .origin o }] := by
  have written := (writeFire_prelude s z (.alarm o s.seconds)).wingOf z
  have only := (writeFire_within s z (.alarm o s.seconds)).1
  have entered : Logged s (enterAlarm s z o)
      [{ kind := .zoneAlarm, subject := .zone z, wing := some ((writeFire s z (.alarm o s.seconds)).wingOf z)
         detail := .origin o }] :=
    (Logged.refl_of_onlyIn only (by decide)).trans (append_logged _ _ _ _ _) (only .seconds (by decide))
  rwa [written] at entered

/-- A zone that has taken an alarm, before its wing. -/
def alarmed (s : State) (z : Fin 64) (o : AlarmOrigin) : State :=
  if (s.zone z).fire.inAlarm then s else enterAlarm s z o

theorem alarmed_prelude (s : State) (z : Fin 64) (o : AlarmOrigin) : Prelude s (alarmed s z o) :=
  .ite (.refl s) (enterAlarm_prelude s z o)

theorem alarmed_fire (s : State) (z : Fin 64) (o : AlarmOrigin) : ((alarmed s z o).zone z).fire
    = if (s.zone z).fire.inAlarm then (s.zone z).fire else .alarm o s.seconds := by
  unfold alarmed
  split
  · rfl
  next h => exact enterAlarm_fire (Bool.not_eq_true _ ▸ h) o

theorem alarmed_detectors (s : State) (z : Fin 64) (o : AlarmOrigin) : TestsEnd s (alarmed s z o) := by
  refine .of_same ?_ (alarmed_prelude s z o).testTimer
  unfold alarmed
  split
  · rfl
  · exact Eq.trans (append_onlyIn _ _ _ _ _ .detectors (by decide)) ((writeFire_within s z _).1 .detectors (by decide))

/-! ### Resounding (R76) -/

theorem resound_of_not {s : State} {w : Fin 4} (h : ¬ (s.evacuating w = true ∧ (s.wing w).silenced = true))
    (z : Fin 64) : resound s w z = s := if_neg (by simpa using h)

/-- The flag of a wing that resounds, with its entry. -/
def resoundEntered (s : State) (w : Fin 4) (z : Fin 64) : State :=
  appendWing (s.modWing w fun r => { r with silenced := false }) .wingResounded w (.zone z)

theorem resound_of {s : State} {w : Fin 4} (h : s.evacuating w = true ∧ (s.wing w).silenced = true) (z : Fin 64) :
    resound s w z = sound (resoundEntered s w z) w := if_pos (by simpa using h)

theorem resoundEntered_wing (s : State) (w : Fin 4) (z : Fin 64) (v : Fin 4) :
    ((resoundEntered s w z).wing v).unstamped
      = if v = w then { (s.wing v).unstamped with silenced := false } else (s.wing v).unstamped := by
  rw [resoundEntered, appendWing, append_stamped _ _ _ _ _ v, modWing_unstamped]
  rfl

theorem resoundEntered_logged (s : State) (w : Fin 4) (z : Fin 64) : Logged s (resoundEntered s w z)
    [{ kind := .wingResounded, subject := .wing w, wing := some w, detail := .zone z }] := append_logged ..

theorem resoundEntered_grows (s : State) (w : Fin 4) (z : Fin 64) : LogGrows s (resoundEntered s w z) :=
  (LogGrows.of_onlyIn (modWing_onlyIn s w _) (by decide)).trans (append_logGrows _ _ _ _ _)

theorem resound_onlyIn (s : State) (w : Fin 4) (z : Fin 64) : OnlyIn ([.channels] ++ logward) s (resound s w z) := by
  unfold resound
  split
  · exact (((modWing_onlyIn s w _).mono (by decide)).trans ((append_onlyIn _ _ _ _ _).mono (by decide))).trans
      ((sound_onlyIn _ w).mono (by decide))
  · exact OnlyIn.refl _ s

theorem resound_stage (s : State) (w : Fin 4) (z : Fin 64) (v : Fin 4) :
    ((resound s w z).wing v).stage = (s.wing v).stage := by
  by_cases h : s.evacuating w = true ∧ (s.wing w).silenced = true
  · rw [resound_of h, (sound_stamped _ w).stage]
    have wing := resoundEntered_wing s w z v
    split at wing
    · exact (Wing.stage_of_unstamped wing).trans rfl
    · exact Wing.stage_eq wing
  · rw [resound_of_not h]

/-! ### The three outcomes of an alarm -/

theorem evacuating_iff {s : State} {w : Fin 4} : s.evacuating w = true ↔ (s.wing w).stage = .evacuate := by
  rw [State.evacuating, decide_eq_true_eq]
  cases (s.wing w).stage <;> simp [Stage.name]

/-- The alarm of a zone whose wing waits for the fire station (R63). -/
def StagesAlarm (s : State) (z : Fin 64) (o : AlarmOrigin) (several : Bool) : Prop :=
  (s.zone z).fire.inAlarm = false ∧ (s.wing (s.wingOf z)).stage = .standby
    ∧ stagedConditions s (s.wingOf z) o several = true

theorem stagedConditions_prelude {b s : State} (h : Prelude b s) (hq : PortsQuiet b s) (w : Fin 4) (o : AlarmOrigin)
    (several : Bool) : stagedConditions s w o several = stagedConditions b w o several := by
  have wing := h.wings w
  have up : s.ports.fire.up = b.ports.fire.up := by
    rw [Port.up, Port.up, show s.ports.fire.link = b.ports.fire.link from (hq .fire).1]
  unfold stagedConditions
  rw [up, show (s.wing w).mode = (b.wing w).mode from (congrArg Wing.mode wing :),
    show (s.wing w).staged = (b.wing w).staged from (congrArg Wing.staged wing :)]

theorem alarmed_quiet (s : State) (z : Fin 64) (o : AlarmOrigin) : PortsQuiet s (alarmed s z o) := by
  unfold alarmed
  split
  · exact .refl s
  · exact ((writeFire_within s z _).2).trans (append_within _ _ _ _ _).2

theorem zoneAlarm_of_evacuate {s : State} {z : Fin 64} (h : (s.wing (s.wingOf z)).stage = .evacuate) (o : AlarmOrigin)
    (several : Bool) : zoneAlarm s z o several
      = if (s.zone z).fire.inAlarm then s else resound (enterAlarm s z o) (s.wingOf z) z := by
  have stays : ∀ t fresh, (t.wing (s.wingOf z)).stage = .evacuate →
      stageTakes t (s.wingOf z) o several fresh = t := fun t fresh ht => by simp only [stageTakes, ht]
  unfold zoneAlarm
  dsimp only
  split
  · exact stays _ _ h
  · exact stays _ _ (by rw [resound_stage, (enterAlarm_prelude s z o).wings.stage, h])

/-- The wing of a zone that takes an alarm, where it is not in EVACUATE. -/
theorem zoneAlarm_of_not_evacuate {s : State} {z : Fin 64} (h : (s.wing (s.wingOf z)).stage ≠ .evacuate)
    (o : AlarmOrigin) (several : Bool) : zoneAlarm s z o several
      = stageTakes (alarmed s z o) (s.wingOf z) o several !(s.zone z).fire.inAlarm := by
  have stage := (enterAlarm_prelude s z o).wings.stage (s.wingOf z)
  have quiet : resound (enterAlarm s z o) (s.wingOf z) z = enterAlarm s z o :=
    resound_of_not (fun e => h (stage.symm.trans (evacuating_iff.mp e.1))) z
  unfold zoneAlarm alarmed
  dsimp only
  split
  next hf => rw [hf]; rfl
  next hf => rw [quiet, Bool.eq_false_of_not_eq_true hf]; rfl

theorem zoneAlarm_of_staged {s : State} {z : Fin 64} {o : AlarmOrigin} {several : Bool} (h : StagesAlarm s z o several) :
    zoneAlarm s z o several = enterAckWait (alarmed s z o) (s.wingOf z) := by
  obtain ⟨hf, hs, hc⟩ := h
  have prelude := alarmed_prelude s z o
  rw [zoneAlarm_of_not_evacuate (by rw [hs]; nofun), stageTakes, prelude.wings.stage, hs]
  dsimp only
  rw [stagedConditions_prelude prelude (alarmed_quiet s z o), hf, hc]
  rfl

theorem zoneAlarm_evacuates {s : State} {z : Fin 64} {o : AlarmOrigin} {several : Bool}
    (h : (s.wing (s.wingOf z)).stage ≠ .evacuate) (hn : ¬ StagesAlarm s z o several) :
    ∃ c, zoneAlarm s z o several = enterEvacuate (alarmed s z o) (s.wingOf z) c := by
  have prelude := alarmed_prelude s z o
  rw [zoneAlarm_of_not_evacuate h, stageTakes, prelude.wings.stage]
  cases hs : (s.wing (s.wingOf z)).stage with
  | standby =>
    have staged : ¬ ((!(s.zone z).fire.inAlarm) && stagedConditions s (s.wingOf z) o several) = true := fun e => by
      rw [Bool.and_eq_true, Bool.not_eq_true'] at e
      exact hn ⟨e.1, hs, e.2⟩
    dsimp only
    rw [stagedConditions_prelude prelude (alarmed_quiet s z o), if_neg staged]
    exact ⟨_, rfl⟩
  | ackWait k => exact ⟨_, rfl⟩
  | investigate k => exact ⟨_, rfl⟩
  | evacuate => exact absurd hs h

end Sys2Proof.Machine
end

section
/-! SUPPORT. The alarm of a zone within an event: the zone, its wing, and what the wing's change of stage brings. -/

set_option autoImplicit false

namespace Sys2Proof.Machine

/-! ### What the wing's answer leaves of the zone and the detectors -/

/-- What a wing does at an alarm leaves the fire states, ends tests at most, and appends to the log. -/
structure FollowsAlarm (s t : State) : Prop where
  log : LogGrows s t
  fire : ∀ z, (t.zone z).fire = (s.zone z).fire
  tests : TestsEnd s t

theorem FollowsAlarm.refl (s : State) : FollowsAlarm s s := ⟨.refl s, fun _ => rfl, .refl s⟩

theorem resound_follows (s : State) (w : Fin 4) (z : Fin 64) : FollowsAlarm s (resound s w z) :=
  ⟨(resound_aside s w z).log, fun y => by rw [(resound_onlyIn s w z).zone_eq (by decide)],
    .of_onlyIn (resound_onlyIn s w z) (by decide)⟩

theorem enterAckWait_follows (s : State) (w : Fin 4) : FollowsAlarm s (enterAckWait s w) := by
  refine ⟨(enterAckWait_aside s w).log, fun y => ?_, enterAckWait_testsEnd s w⟩
  rw [enterAckWait_eq, (sound_onlyIn _ w).zone_eq (by decide), leftStandby_zone]
  split <;> rfl

theorem enterEvacuate_follows (s : State) (w : Fin 4) (c : StageCause) : FollowsAlarm s (enterEvacuate s w c) :=
  ⟨enterEvacuate_logGrows s w c, fun y => by rw [enterEvacuate_zone], enterEvacuate_testsEnd s w c⟩

theorem zoneAlarm_follows (s : State) (z : Fin 64) (o : AlarmOrigin) (several : Bool) :
    FollowsAlarm (alarmed s z o) (zoneAlarm s z o several) := by
  by_cases h : (s.wing (s.wingOf z)).stage = .evacuate
  · rw [zoneAlarm_of_evacuate h]
    unfold alarmed
    split
    · exact .refl s
    · exact resound_follows ..
  · by_cases hs : StagesAlarm s z o several
    · rw [zoneAlarm_of_staged hs]
      exact enterAckWait_follows ..
    · obtain ⟨c, e⟩ := zoneAlarm_evacuates h hs
      rw [e]
      exact enterEvacuate_follows ..

theorem zoneAlarm_testsEnd (s : State) (z : Fin 64) (o : AlarmOrigin) (several : Bool) :
    TestsEnd s (zoneAlarm s z o several) := (alarmed_detectors s z o).trans (zoneAlarm_follows s z o several).tests

/-! ### The event -/

/-- A zone has taken an alarm in an event (R61), and so has its wing (R63, R64, R76). -/
structure AlarmEvent (z : Fin 64) (o : AlarmOrigin) (several : Bool) (b t : State) : Prop where
  fire : (t.zone z).fire = if (b.zone z).fire.inAlarm then (b.zone z).fire else .alarm o b.seconds
  entry : (b.zone z).fire.inAlarm = false → LoggedAmong b t
    { kind := .zoneAlarm, subject := .zone z, wing := some (b.wingOf z), detail := .origin o }
  waits : StagesAlarm b z o several → (t.wing (b.wingOf z)).stage = .ackWait (b.wing (b.wingOf z)).tAck
  evacuates : ¬ StagesAlarm b z o several → (t.wing (b.wingOf z)).stage = .evacuate
  followed : StageFollowed (b.wingOf z) b t
  silence : SilenceTaken z o b t

section
variable {b s t : State} {z : Fin 64} {o : AlarmOrigin} {several : Bool}

/-- An evacuating wing resounds where it was silenced and the zone was not in ALARM (R76). -/
theorem silenceTaken (hp : Prelude b s) (hf : (s.zone z).fire = (b.zone z).fire)
    (hw : (b.wing (b.wingOf z)).stage = .evacuate) (k : Outlasts (zoneAlarm s z o several) t) :
    SilenceTaken z o b t := by
  have wing := hp.wingOf z
  have stage : (s.wing (s.wingOf z)).stage = .evacuate := by rw [wing, hp.wings.stage, hw]
  rw [zoneAlarm_of_evacuate stage, wing] at k
  have sounder : 48 ≤ (sounderChannel (b.wingOf z)).val := by simp [sounderChannel]; omega
  -- The flag and the sounder stay wherever the event is a prelude up to here.
  have stays : ∀ {u}, Prelude b u → Outlasts u t →
      (t.wing (b.wingOf z)).silenced = (b.wing (b.wingOf z)).silenced
        ∧ (t.channel (sounderChannel (b.wingOf z))).source = (b.channel (sounderChannel (b.wingOf z))).source :=
    fun hu ku => ⟨(Wing.silenced_eq (ku.wings _)).trans (Wing.silenced_eq (hu.wings _)), by
      rw [ku.channel _ sounder, hu.channel]⟩
  intro _
  split
  next h =>
    obtain ⟨alarm, silenced⟩ := h
    have entered := hp.trans (enterAlarm_prelude s z o)
    have resounds : (enterAlarm s z o).evacuating (b.wingOf z) = true
        ∧ ((enterAlarm s z o).wing (b.wingOf z)).silenced = true :=
      ⟨evacuating_iff.mpr ((entered.wings.stage _).trans hw), (Wing.silenced_eq (entered.wings _)).trans silenced⟩
    rw [hf, if_neg (by rw [alarm]; decide), resound_of resounds] at k
    have flag := (resoundEntered_wing (enterAlarm s z o) (b.wingOf z) z (b.wingOf z)).trans (if_pos rfl)
    have quiet : ((resoundEntered (enterAlarm s z o) (b.wingOf z) z).wing (b.wingOf z)).silenced = false :=
      (congrArg Wing.silenced flag :)
    have evacuates : ((resoundEntered (enterAlarm s z o) (b.wingOf z) z).wing (b.wingOf z)).stage = .evacuate :=
      (Wing.stage_of_unstamped flag).trans ((entered.wings.stage _).trans hw)
    refine ⟨?_, ?_, ?_⟩
    · exact ((Wing.silenced_eq (k.wings _)).trans (Wing.silenced_eq (sound_stamped _ _ _))).trans quiet
    · rw [k.channel _ sounder, sound_source, sounderValue, evacuates, quiet]
      rfl
    · have first := enterAlarm_logged s z o
      rw [wing] at first
      have both := first.trans (resoundEntered_logged _ (b.wingOf z) z) (enterAlarm_prelude s z o).log.1
      exact (LoggedRun.late hp.log both.run).grow (entered.log.trans (resoundEntered_grows _ _ _)).1
        ((sound_logGrows _ _).trans k.log)
  next h =>
    split at k
    · exact stays hp k
    next hn =>
      have entered := hp.trans (enterAlarm_prelude s z o)
      rw [resound_of_not fun e => h ⟨hf ▸ Bool.eq_false_of_not_eq_true hn,
        (Wing.silenced_eq (entered.wings _)).symm.trans e.2⟩] at k
      exact stays entered k

theorem silenceTaken_of_not_evacuate (h : (b.wing (b.wingOf z)).stage ≠ .evacuate) : SilenceTaken z o b t :=
  fun e => absurd e h

theorem StagesAlarm.congr (hp : Prelude b s) (hq : PortsQuiet b s) (hf : (s.zone z).fire = (b.zone z).fire) :
    StagesAlarm s z o several ↔ StagesAlarm b z o several := by
  rw [StagesAlarm, StagesAlarm, hf, hp.wingOf, hp.wings.stage, stagedConditions_prelude hp hq]

/-- The alarm of a zone within an event from `b`. -/
theorem alarmEvent (hp : Prelude b s) (hq : PortsQuiet b s) (hf : (s.zone z).fire = (b.zone z).fire)
    (k : Concludes b (zoneAlarm s z o several) t) : AlarmEvent z o several b t := by
  have wing := hp.wingOf z
  have follows := zoneAlarm_follows s z o several
  have entered := hp.trans (alarmed_prelude s z o)
  have staged := StagesAlarm.congr (o := o) (several := several) hp hq hf
  have fire : (t.zone z).fire = if (b.zone z).fire.inAlarm then (b.zone z).fire else .alarm o b.seconds := by
    rw [k.zone, follows.fire, alarmed_fire, hf, hp.log.1]
  have entry : (b.zone z).fire.inAlarm = false → LoggedAmong b t
      { kind := .zoneAlarm, subject := .zone z, wing := some (b.wingOf z), detail := .origin o } := fun ha => by
    have logged := enterAlarm_logged s z o
    rw [wing, show enterAlarm s z o = alarmed s z o from (if_neg (by rw [hf, ha]; decide)).symm] at logged
    exact (logged.among.late hp.log).grow entered.log.1 (follows.log.trans k.log)
  by_cases h : (b.wing (b.wingOf z)).stage = .evacuate
  · have stage : (s.wing (s.wingOf z)).stage = .evacuate := by rw [wing, hp.wings.stage, h]
    have stays : (t.wing (b.wingOf z)).stage = .evacuate := by
      rw [k.wings.stage, zoneAlarm_of_evacuate stage, wing]
      split
      · rw [hp.wings.stage, h]
      · rw [resound_stage, (enterAlarm_prelude s z o).wings.stage, hp.wings.stage, h]
    have awake : b.atStandby (b.wingOf z) = false := by rw [atStandby_eq, h]; rfl
    exact ⟨fire, entry, fun e => absurd (h.symm.trans e.2.1) nofun, fun _ => stays,
      ⟨fun hs => absurd (hs.symm.trans awake) (by decide), fun hn => absurd h hn⟩, silenceTaken hp hf h k.toOutlasts⟩
  · have stage : (s.wing (s.wingOf z)).stage ≠ .evacuate := by rw [wing, hp.wings.stage]; exact h
    by_cases hs : StagesAlarm b z o several
    · have e := zoneAlarm_of_staged (staged.mpr hs)
      rw [wing] at e
      rw [e, enterAckWait_eq] at k
      have waits : (t.wing (b.wingOf z)).stage = .ackWait (b.wing (b.wingOf z)).tAck := by
        rw [k.wings.stage, (sound_stamped _ _).stage, leftStandby_stage,
          show ((alarmed s z o).wing (b.wingOf z)).tAck = (b.wing (b.wingOf z)).tAck from
            (congrArg Wing.tAck (entered.wings _) :)]
      have left : (enterAckWait (alarmed s z o) (b.wingOf z)).atStandby (b.wingOf z) = false := by
        rw [enterAckWait_eq, atStandby_eq, (sound_stamped _ _).stage, leftStandby_stage]
        rfl
      have standby : b.atStandby (b.wingOf z) = true := by rw [atStandby_eq, hs.2.1]; rfl
      refine ⟨fire, entry, fun _ => waits, fun hn => absurd hs hn, ⟨fun _ _ => ?_, fun _ he => ?_⟩,
        silenceTaken_of_not_evacuate h⟩
      · refine (enterAckWait_leaves ((entered.atStandby _).trans standby)).concluded entered
          (enterAckWait_aside _ _).log left ?_ (fun n => ?_) (enterAckWait_eq _ _ ▸ k.toOutlasts)
        · rw [enterAckWait_eq, (sound_beside _ _ (b.wingOf z)).zonesOf, zonesOf_leftStandby]
        · rw [enterAckWait_eq, (sound_beside _ _ (b.wingOf z)).owner, leftStandby_owner]
      · rw [waits] at he
        cases he
    · obtain ⟨c, e⟩ := zoneAlarm_evacuates stage (mt staged.mp hs)
      rw [wing] at e
      rw [e] at k
      have enters := entersEvacuate entered k
      exact ⟨fire, entry, fun e => absurd e hs, fun _ => enters.1, ⟨fun hb _ => enters.2.2.2.1 hb, fun _ _ => enters⟩,
        silenceTaken_of_not_evacuate h⟩

end

end Sys2Proof.Machine
end

section
/-! SUPPORT. Coincidence (R50): the promotions of the detectors in VERIFYING, and the alarm that the zone then takes. -/

set_option autoImplicit false

namespace Sys2Proof.Machine

/-! ### The lowest index of a filtered range -/

theorem filter_finRange_least {n : Nat} {p : Fin n → Bool} {m : Fin n} (hm : p m = true) (hl : ∀ q < m, p q = false) :
    ∃ rest, (List.finRange n).filter p = m :: rest ∧ (rest.isEmpty = true ↔ ∀ q, p q = true → q = m) := by
  have mem : ∀ q, q ∈ (List.finRange n).filter p ↔ p q = true := fun q => by simp
  have sorted : ((List.finRange n).filter p).Pairwise (· < ·) := (List.sortedLT_finRange n).pairwise.filter p
  cases hf : (List.finRange n).filter p with
  | nil => exact absurd ((mem m).mpr hm) (by simp [hf])
  | cons a rest =>
    rw [hf] at mem sorted
    obtain ⟨above, -⟩ := List.pairwise_cons.mp sorted
    have ha : a = m := by
      rcases List.mem_cons.mp ((mem m).mpr hm) with e | e
      · exact e.symm
      · exact absurd ((hl a (above m e)).symm.trans ((mem a).mp List.mem_cons_self)) (by decide)
    subst ha
    refine ⟨rest, rfl, fun h q hq => ?_, fun h => ?_⟩
    · rw [List.isEmpty_iff.mp h] at mem
      exact List.mem_singleton.mp ((mem q).mpr hq)
    · rw [List.isEmpty_iff, List.eq_nil_iff_forall_not_mem]
      intro q hq
      exact absurd (h q ((mem q).mp (List.mem_cons_of_mem a hq))) (above q hq).ne'

/-! ### Records of detectors and the fire state -/

theorem followImpaired_fire (s : State) (z : Fin 64) (was now : Bool) (y : Fin 64) :
    ((followImpaired s z was now).zone y).fire = (s.zone y).fire := by
  rw [State.zone, (followImpaired_eq s z was now).1, Tbl.get_modify]
  split <;> rfl

theorem writeDetector_fire (s : State) (n : Fin 192) (old new : Detector) (y : Fin 64) :
    ((writeDetector s n old new).zone y).fire = (s.zone y).fire := followImpaired_fire ..

/-! ### Promotions (R50) -/

/-- A detector that is promoted. -/
def Detector.promoted (d : Detector) : Detector := { d with state := .alarm }

theorem promote_of_none {s : State} {n : Fin 192} (h : s.detector n = none) : promote s n = s := by
  simp only [promote, h]

theorem promote_of_some {s : State} {n : Fin 192} {d : Detector} (h : s.detector n = some d) : promote s n
    = appendDetector (writeDetector s n d d.promoted) .detectorAlarm n d.zone (.alarmCause .coincidence) := by
  simp only [promote, h, Detector.promoted]

theorem promote_prelude (s : State) (n : Fin 192) : Prelude s (promote s n) := by
  cases h : s.detector n with
  | none =>
    rw [promote_of_none h]
    exact .refl s
  | some d =>
    rw [promote_of_some h]
    exact (writeDetector_prelude ..).append _ _ _ _

theorem promote_fire (s : State) (n : Fin 192) (z : Fin 64) : ((promote s n).zone z).fire = (s.zone z).fire := by
  cases h : s.detector n with
  | none => rw [promote_of_none h]
  | some d => rw [promote_of_some h, appendDetector, append_zone, writeDetector_fire]

theorem promote_detector (s : State) (n m : Fin 192) : (promote s n).detector m
    = if m = n then (s.detector n).map Detector.promoted else s.detector m := by
  cases h : s.detector n with
  | none =>
    rw [promote_of_none h]
    split
    next e => rw [e, h]; rfl
    next => rfl
  | some d =>
    rw [promote_of_some h, appendDetector, append_detector, writeDetector_detector]
    rfl

theorem promote_logged {s : State} {n : Fin 192} {d : Detector} (h : s.detector n = some d) :
    LoggedAmong s (promote s n)
      { kind := .detectorAlarm, subject := .detector n, wing := some (s.wingOf d.zone)
        detail := .alarmCause .coincidence } := by
  have written := writeDetector_prelude s n d d.promoted
  have logged : LoggedAmong s (promote s n)
      { kind := .detectorAlarm, subject := .detector n, wing := some ((writeDetector s n d d.promoted).wingOf d.zone)
        detail := .alarmCause .coincidence } := by
    rw [promote_of_some h]
    exact loggedAmong_append written.log (LogGrows.refl _)
  rwa [written.wingOf] at logged

/-- The detectors of a zone that are VERIFYING. -/
def verifyingOf (s : State) (z : Fin 64) : List (Fin 192) := s.detectorsOf z fun d => d.state.isVerifying

theorem mem_verifyingOf {s : State} {z : Fin 64} {n : Fin 192} :
    n ∈ verifyingOf s z ↔ ∃ d, s.detector n = some d ∧ d.zone = z ∧ d.state.isVerifying = true := mem_detectorsOf

/-- Every detector of a zone that is VERIFYING is promoted. -/
def promoteAll (s : State) (z : Fin 64) : State := (verifyingOf s z).foldl promote s

theorem promoteAll_prelude (s : State) (z : Fin 64) : Prelude s (promoteAll s z) := .foldl promote_prelude _ s

theorem promoteAll_quiet (s : State) (z : Fin 64) : PortsQuiet s (promoteAll s z) :=
  (Within.foldl promote_within (verifyingOf s z) s).2

theorem promoteAll_fire (s : State) (z y : Fin 64) : ((promoteAll s z).zone y).fire = (s.zone y).fire :=
  foldl_same (f := promote) (g := fun t => (t.zone y).fire) (fun t n _ => promote_fire t n y) s

theorem promoteAll_detector (s : State) (z : Fin 64) (m : Fin 192) : (promoteAll s z).detector m
    = if m ∈ verifyingOf s z then (s.detector m).map Detector.promoted else s.detector m :=
  detector_foldl promote_detector (detectorsOf_nodup ..) s m

theorem promoteAll_logged {s : State} {z : Fin 64} {m : Fin 192} {d : Detector} (hd : s.detector m = some d)
    (hz : d.zone = z) (hv : d.state.isVerifying = true) : LoggedAmong s (promoteAll s z)
      { kind := .detectorAlarm, subject := .detector m, wing := some (s.wingOf z)
        detail := .alarmCause .coincidence } := by
  refine loggedAmong_foldl (fun t n => (promote_prelude t n).log) (mem_verifyingOf.mpr ⟨d, hd, hz, hv⟩)
    fun front hn => ?_
  have same : (front.foldl promote s).detector m = s.detector m :=
    foldl_same (f := promote) (g := fun t => t.detector m)
      (fun t n hm => (promote_detector t n m).trans (if_neg fun e : m = n => hn (e ▸ hm))) s
  have logged := promote_logged (same.trans hd)
  rwa [(Prelude.foldl promote_prelude front s).wingOf, hz] at logged

/-! ### What follows a move -/

/-- A move into ALARM. -/
def entersAlarm (old new : DetectorState) : Bool := decide (new = .alarm) && decide (old ≠ .alarm)

theorem entersAlarm_iff {old new : DetectorState} : entersAlarm old new = true ↔ new = .alarm ∧ old ≠ .alarm := by
  simp [entersAlarm]

/-- What follows the promotions of a list of detectors. -/
def afterPromotions (s : State) (n : Fin 192) (z : Fin 64) (old new : DetectorState) (promoted : List (Fin 192)) :
    State :=
  match (List.finRange 192).filter fun m => promoted.contains m || (decide (m = n) && entersAlarm old new) with
  | [] => deriveFire (promoted.foldl promote s) z
  | m :: rest => zoneAlarm (promoted.foldl promote s) z (.detector m) (!rest.isEmpty)

theorem afterMove_eq (s : State) (n : Fin 192) (z : Fin 64) (old new : DetectorState) : afterMove s n z old new
    = afterPromotions s n z old new
        (if entersConcern old new && ((verifyingOf s z).any fun m => decide (m ≠ n)) then verifyingOf s z else []) := by
  have alarmed : ∀ promoted : List (Fin 192),
      ((List.finRange 192).filter fun m =>
        promoted.contains m || (decide (m = n) && decide (new = .alarm) && decide (old ≠ .alarm)))
      = (List.finRange 192).filter fun m => promoted.contains m || (decide (m = n) && entersAlarm old new) :=
    fun promoted => by simp only [entersAlarm, Bool.and_assoc]
  unfold afterMove afterPromotions
  dsimp only
  rw [alarmed]
  rfl

section
variable {s : State} {n : Fin 192} {z : Fin 64} {old new : DetectorState}

/-- A move that promotes no other detector. -/
theorem afterMove_of_alone (h : entersConcern old new = true → ∀ m ∈ verifyingOf s z, m = n) :
    afterMove s n z old new
      = if entersAlarm old new then zoneAlarm s z (.detector n) false else deriveFire s z := by
  have none : (entersConcern old new && ((verifyingOf s z).any fun m => decide (m ≠ n))) = false := by
    rw [Bool.and_eq_false_imp]
    intro hc
    rw [List.any_eq_false]
    intro m hm
    simp [h hc m hm]
  rw [afterMove_eq, none, if_neg Bool.false_ne_true, afterPromotions]
  split
  next hx =>
    rw [if_neg fun e => List.not_mem_nil (hx ▸ List.mem_filter.mpr ⟨List.mem_finRange n, by simp [e]⟩)]
    rfl
  next m rest hx =>
    have mem : ∀ q, q ∈ m :: rest ↔ q = n ∧ entersAlarm old new = true := fun q => by rw [← hx]; simp
    obtain ⟨rfl, ha⟩ := (mem m).mp List.mem_cons_self
    have last : rest = [] := by
      have nodup : (m :: rest).Nodup := hx ▸ (List.nodup_finRange 192).filter _
      rw [List.eq_nil_iff_forall_not_mem]
      intro q hq
      exact (List.nodup_cons.mp nodup).1 (((mem q).mp (List.mem_cons_of_mem m hq)).1 ▸ hq)
    rw [if_pos ha, last]
    rfl

/-- A move that finds another detector VERIFYING: the zone takes the alarm of the lowest one that enters ALARM. -/
theorem afterMove_of_coincidence (hc : entersConcern old new = true) (hv : ∃ q ∈ verifyingOf s z, q ≠ n) {m : Fin 192}
    (hm : m ∈ verifyingOf s z ∨ m = n ∧ entersAlarm old new = true)
    (hl : ∀ q < m, ¬ (q ∈ verifyingOf s z ∨ q = n ∧ entersAlarm old new = true)) :
    ∃ several, afterMove s n z old new = zoneAlarm (promoteAll s z) z (.detector m) several
      ∧ (several = false ↔ ∀ q, q ∈ verifyingOf s z ∨ q = n ∧ entersAlarm old new = true → q = m) := by
  have found : (entersConcern old new && ((verifyingOf s z).any fun m => decide (m ≠ n))) = true := by
    obtain ⟨q, hq, hn⟩ := hv
    rw [hc, Bool.true_and, List.any_eq_true]
    exact ⟨q, hq, decide_eq_true hn⟩
  have holds : ∀ q, ((verifyingOf s z).contains q || (decide (q = n) && entersAlarm old new)) = true
      ↔ (q ∈ verifyingOf s z ∨ q = n ∧ entersAlarm old new = true) := fun q => by simp
  obtain ⟨rest, hx, hr⟩ := filter_finRange_least
    (p := fun q => (verifyingOf s z).contains q || (decide (q = n) && entersAlarm old new)) ((holds m).mpr hm)
    fun q hq => Bool.eq_false_of_not_eq_true fun e => hl q hq ((holds q).mp e)
  refine ⟨!rest.isEmpty, ?_, ?_⟩
  · rw [afterMove_eq, found, if_pos rfl, afterPromotions, hx]
    rfl
  · rw [Bool.not_eq_false', hr]
    exact forall_congr' fun q => imp_congr (holds q) Iff.rfl

end

/-! ### The alarm of one detector -/

theorem stagesAlarm_iff {b : State} {z : Fin 64} {n : Fin 192} : StagesAlarm b z (.detector n) false
    ↔ (b.zone z).fire.inAlarm = false ∧ b.atStandby (b.wingOf z) = true
      ∧ (b.wing (b.wingOf z)).mode = .openHours ∧ (b.wing (b.wingOf z)).staged = true ∧ b.ports.fire.up = true := by
  rw [atStandby_eq, decide_eq_true_eq]
  simp [StagesAlarm, stagedConditions, and_assoc]

theorem not_stagesAlarm_of_several {b : State} {z : Fin 64} {o : AlarmOrigin} : ¬ StagesAlarm b z o true := by
  simp [StagesAlarm, stagedConditions]

theorem AlarmEvent.taken {b t : State} {z : Fin 64} {n : Fin 192} (h : AlarmEvent z (.detector n) false b t) :
    AlarmTaken n z b t := by
  refine ⟨h.fire, h.entry, fun ha hs => ?_, fun hs => h.evacuates fun e => ?_, h.followed, h.silence⟩
  · split
    next hc => exact h.waits (stagesAlarm_iff.mpr ⟨ha, hs, hc⟩)
    next hc => exact h.evacuates fun e => hc (stagesAlarm_iff.mp e).2.2
  · exact Bool.false_ne_true (hs.symm.trans (stagesAlarm_iff.mp e).2.1)

end Sys2Proof.Machine
end

section
/-! The verify timers, the stage timers and the spread timers (O53). -/

set_option autoImplicit false

namespace Sys2Proof.Machine

/-! ### The end of an event in which a wing may have entered EVACUATE -/

/-- The end of the event after the offering round of an evacuation. -/
theorem closed_concludes (b u : State) : Concludes b u (endEvent b (offerAfterEvacuation b u)) :=
  concludes_endEvent (offerAfterEvacuation_outlasts b u) ((offerAfterEvacuation_within b u).1 .engine (by decide))

theorem closed_frame {b u : State} (h : Within readward b u) : PortsQuiet b (endEvent b (offerAfterEvacuation b u))
    ∧ OnlyIn (alarming ++ outward) b (endEvent b (offerAfterEvacuation b u)) :=
  have closed := closePoll_frame h (Works.refl scanward u)
  ⟨closed.quiet, closed.pieces⟩

/-- No offering round follows work that leaves the stages. -/
theorem offerAfterEvacuation_of_works {ps : List Piece} {b u : State} (h : Works ps b u) :
    offerAfterEvacuation b u = u :=
  offerAfterEvacuation_of_same fun w hw => evacuating_iff.mpr ((h.inputs.stage_eq w).symm.trans (evacuating_iff.mp hw))

/-! ### The verify timer (R48) -/

/-- The state that a detector returns to when its verify timer runs out. -/
def verifyOver (s : State) (d : Detector) (v : Nat) : DetectorState :=
  if (s.thresholdsFor d).pre ≤ v then .preAlarm else .normal

/-- A detector that has returned from VERIFYING, with its entry. -/
def verifyWritten (s : State) (n : Fin 192) (d : Detector) (v : Nat) : State :=
  appendDetector (writeDetector s n d { d with state := verifyOver s d v }) .unconfirmed n d.zone (.number v)

section
variable {s : State} {n : Fin 192} {d : Detector} {v : Nat}

theorem verifyExpires_eq (hv : d.level = some v) : verifyExpires s n d
    = afterMove (verifyWritten s n d v) n d.zone d.state (verifyOver s d v) := by
  simp only [verifyExpires, hv, Option.getD_some, verifyWritten, verifyOver]

theorem exec_verifyTimerExpiry (hd : s.detector n = some d) (hs : d.state = .verifying 0) :
    exec (.verifyTimerExpiry n) s = .next (endEvent s (offerAfterEvacuation s (verifyExpires s n d))) := by
  simp [exec, execVerifyTimerExpiry, hd, occursWhen, hs]

theorem verifyExpires_within (s : State) (n : Fin 192) (d : Detector) : Within readward s (verifyExpires s n d) :=
  ((writeDetector_within ..).append ..).trans (afterMove_within ..)

theorem verifyWritten_works (s : State) (n : Fin 192) (d : Detector) (v : Nat) :
    Works detectorward s (verifyWritten s n d v) := (writeDetector_works ..).trans (appendDetector_works ..)

theorem verifyWritten_prelude (s : State) (n : Fin 192) (d : Detector) (v : Nat) : Prelude s (verifyWritten s n d v) :=
  (writeDetector_prelude ..).append _ _ _ _

theorem verifyWritten_detector (s : State) (n : Fin 192) (d : Detector) (v : Nat) (m : Fin 192) :
    (verifyWritten s n d v).detector m
      = if m = n then some { d with state := verifyOver s d v } else s.detector m := by
  rw [verifyWritten, appendDetector, append_detector, writeDetector_detector]

theorem verifyWritten_fire (s : State) (n : Fin 192) (d : Detector) (v : Nat) (z : Fin 64) :
    ((verifyWritten s n d v).zone z).fire = (s.zone z).fire := by
  rw [verifyWritten, appendDetector, append_zone, writeDetector_fire]

theorem writeDetector_logged (s : State) (n : Fin 192) (old new : Detector) :
    Logged s (writeDetector s n old new) [] :=
  ((Logged.refl s).keep (putDetector_onlyIn s n _ .log (by decide))).keep ((followImpaired_eq ..).2 .log (by decide))

theorem verifyWritten_logged (s : State) (n : Fin 192) (d : Detector) (v : Nat) : Logged s (verifyWritten s n d v)
    [{ kind := .unconfirmed, subject := .detector n, wing := some (s.wingOf d.zone), detail := .number v }] := by
  have written := writeDetector_prelude s n d { d with state := verifyOver s d v }
  have entered : Logged s (verifyWritten s n d v)
      [{ kind := .unconfirmed, subject := .detector n
         wing := some ((writeDetector s n d { d with state := verifyOver s d v }).wingOf d.zone)
         detail := .number v }] :=
    (writeDetector_logged s n d _).trans (append_logged _ _ _ _ _) written.log.1
  rwa [written.wingOf] at entered

theorem verifyOver_not_verifying : (verifyOver s d v).isVerifying = false := by
  unfold verifyOver
  split <;> rfl

theorem mem_verifyingOf_written {z : Fin 64} {m : Fin 192} : m ∈ verifyingOf (verifyWritten s n d v) z
    ↔ m ≠ n ∧ ∃ e, s.detector m = some e ∧ e.zone = z ∧ e.state.isVerifying = true := by
  rw [mem_verifyingOf, verifyWritten_detector]
  by_cases hm : m = n
  · simp [hm, verifyOver_not_verifying]
  · simp [hm]

theorem verifyOver_not_alarm (old : DetectorState) : entersAlarm old (verifyOver s d v) = false := by
  unfold verifyOver
  split <;> rfl

theorem verifyOver_concern (hs : d.state = .verifying 0) :
    entersConcern d.state (verifyOver s d v) = true ↔ (s.thresholdsFor d).pre ≤ v := by
  rw [hs]
  unfold verifyOver
  split
  next h => exact iff_of_true rfl h
  next h => exact iff_of_false nofun h

/-- The expiry where no other detector of the zone is promoted. -/
theorem verifyExpires_alone (hs : d.state = .verifying 0) (hv : d.level = some v)
    (ha : (s.thresholdsFor d).pre ≤ v →
      ∀ m e, m ≠ n → s.detector m = some e → e.zone = d.zone → e.state.isVerifying = false) :
    verifyExpires s n d = deriveFire (verifyWritten s n d v) d.zone := by
  rw [verifyExpires_eq hv, afterMove_of_alone fun hc m hm => ?_, verifyOver_not_alarm]
  · rfl
  · obtain ⟨hn, e, he, hz, hy⟩ := mem_verifyingOf_written.mp hm
    exact absurd hy (by rw [ha ((verifyOver_concern hs).mp hc) m e hn he hz]; decide)

/-- The expiry that promotes others, of which `m` is the lowest. -/
theorem verifyExpires_coincident (hs : d.state = .verifying 0) (hv : d.level = some v)
    (hp : (s.thresholdsFor d).pre ≤ v) {m : Fin 192} {e : Detector} (hm : m ≠ n) (he : s.detector m = some e)
    (hz : e.zone = d.zone) (hy : e.state.isVerifying = true)
    (hl : ∀ q f, q < m → q ≠ n → s.detector q = some f → f.zone = d.zone → f.state.isVerifying = false) :
    ∃ several, verifyExpires s n d
        = zoneAlarm (promoteAll (verifyWritten s n d v) d.zone) d.zone (.detector m) several
      ∧ (several = false ↔ ∀ q f, q ≠ n → q ≠ m → s.detector q = some f → f.zone = d.zone →
        f.state.isVerifying = false) := by
  have concern := (verifyOver_concern (v := v) hs).mpr hp
  have here : m ∈ verifyingOf (verifyWritten s n d v) d.zone := mem_verifyingOf_written.mpr ⟨hm, e, he, hz, hy⟩
  have only : ∀ q, (q ∈ verifyingOf (verifyWritten s n d v) d.zone
      ∨ q = n ∧ entersAlarm d.state (verifyOver s d v) = true) ↔ q ∈ verifyingOf (verifyWritten s n d v) d.zone :=
    fun q => by rw [verifyOver_not_alarm]; simp
  obtain ⟨several, moved, alone⟩ := afterMove_of_coincidence concern ⟨m, here, hm⟩ (.inl here) fun q hq hin => by
    obtain ⟨hn, f, hf, hfz, hfy⟩ := mem_verifyingOf_written.mp ((only q).mp hin)
    exact absurd hfy (by rw [hl q f hq hn hf hfz]; decide)
  refine ⟨several, (verifyExpires_eq hv).trans moved, alone.trans ⟨fun h q f hn hqm hf hfz => ?_, fun h q hq => ?_⟩⟩
  · refine Bool.eq_false_of_not_eq_true fun hfy => hqm (h q ((only q).mpr ?_))
    exact mem_verifyingOf_written.mpr ⟨hn, f, hf, hfz, hfy⟩
  · obtain ⟨hn, f, hf, hfz, hfy⟩ := mem_verifyingOf_written.mp ((only q).mp hq)
    exact by_contra fun hqm => absurd hfy (by rw [h q f hn hqm hf hfz]; decide)

end

/-! ### The event of a coincidence (R50) -/

section
variable {b s t : State} {z : Fin 64} {o : AlarmOrigin} {several : Bool}

/-- What the alarm after promotions leaves of the detectors. -/
theorem promoted_testsEnd (k : Concludes b (zoneAlarm (promoteAll s z) z o several) t) :
    TestsEnd (promoteAll s z) t := (zoneAlarm_testsEnd ..).trans k.testsEnd

/-- A detector whose record the work before the stage machine leaves. -/
theorem TestsEnd.kept {b s t : State} (hp : Prelude b s) {q : Fin 192} (hq : s.detector q = b.detector q)
    (k : TestsEnd s t) : DetectorKept q b t := by
  rcases k.detector q with e | ⟨f, hf, ht, e⟩
  · exact .inl (e.trans hq)
  · exact .inr ⟨f, hq.symm.trans hf, by rwa [hp.testTimer] at ht, e⟩

/-- A detector that is not promoted, in an event that leaves the tests up to the promotions. -/
theorem promoted_detectorKept (hp : Prelude b s) {q : Fin 192} (hq : s.detector q = b.detector q)
    (hn : q ∉ verifyingOf s z) (k : TestsEnd (promoteAll s z) t) : DetectorKept q b t :=
  k.kept (hp.trans (promoteAll_prelude s z)) (by rw [promoteAll_detector, if_neg hn, hq])

/-- A detector that is promoted. -/
theorem promoted_detector {q : Fin 192} {f : Detector} (hf : s.detector q = some f) (hz : f.zone = z)
    (hv : f.state.isVerifying = true) : (promoteAll s z).detector q = some f.promoted := by
  rw [promoteAll_detector, if_pos (mem_verifyingOf.mpr ⟨f, hf, hz, hv⟩), hf]
  rfl

theorem promoted_logged (hp : Prelude b s) {q : Fin 192} {f : Detector} (hf : s.detector q = some f) (hz : f.zone = z)
    (hv : f.state.isVerifying = true) (k : Concludes b (zoneAlarm (promoteAll s z) z o several) t) : LoggedAmong b t
      { kind := .detectorAlarm, subject := .detector q, wing := some (b.wingOf z)
        detail := .alarmCause .coincidence } := by
  have logged := promoteAll_logged hf hz hv
  rw [hp.wingOf] at logged
  exact (logged.late hp.log).grow (hp.log.trans (promoteAll_prelude s z).log).1
    ((zoneAlarm_aside ..).log.trans k.log)

theorem promoted_alarmEvent (hp : Prelude b s) (hq : PortsQuiet b s) (hf : (s.zone z).fire = (b.zone z).fire)
    (k : Concludes b (zoneAlarm (promoteAll s z) z o several) t) : AlarmEvent z o several b t :=
  alarmEvent (hp.trans (promoteAll_prelude s z)) (hq.trans (promoteAll_quiet s z)) ((promoteAll_fire s z z).trans hf) k

end

/-! ### The spread timer (R74) -/

/-- The STANDBY wings of a spread list enter EVACUATE. -/
def spreadTo (xs : List (Fin 4)) (s : State) : State := xs.foldl (fun t v => enterEvacuate t v .spread) s

theorem enterEvacuate_stages (s : State) (w : Fin 4) (c : StageCause) (v : Fin 4) :
    ((enterEvacuate s w c).wing v).stage = if v = w then .evacuate else (s.wing v).stage := by
  split
  next e => rw [e, enterEvacuate_stage]
  next e => exact enterEvacuate_stage_other e c

theorem spreadTo_stage (xs : List (Fin 4)) (s : State) (v : Fin 4) : ((spreadTo xs s).wing v).stage
    = if v ∈ xs then .evacuate else (s.wing v).stage :=
  read_foldl (inv := fun _ => True) (read := fun (t : State) y => (t.wing y).stage) (h := fun _ => Stage.evacuate)
    (fun _ _ _ => trivial) (fun _ => rfl) (fun t a y _ => enterEvacuate_stages t a .spread y) xs trivial v

theorem spreadTo_beside {xs : List (Fin 4)} {v : Fin 4} (h : v ∉ xs) (s : State) : Beside v s (spreadTo xs s) := by
  induction xs generalizing s with
  | nil => exact .refl v s
  | cons x xs ih =>
    obtain ⟨hx, hxs⟩ := not_or.mp (mt List.mem_cons.mpr h)
    exact (enterEvacuate_beside hx .spread).trans (ih hxs _)

theorem Wing.alertedNow_spreadTimer (r : Wing) : r.alertedNow.spreadTimer = r.spreadTimer := by
  unfold Wing.alertedNow
  split <;> rfl

theorem Wing.spreadTimer_of_unstamped {a b : Wing} (h : a.unstamped = b) : a.spreadTimer = b.spreadTimer :=
  (congrArg Wing.spreadTimer h :)

theorem spreadTo_spreadTimer {xs : List (Fin 4)} {v : Fin 4} (h : v ∉ xs) (s : State) :
    ((spreadTo xs s).wing v).spreadTimer = (s.wing v).spreadTimer := by
  refine foldl_same (f := fun t y => enterEvacuate t y .spread) (g := fun t => (t.wing v).spreadTimer)
    (fun t y hy => ?_) s
  have wing := enterEvacuate_wing t y .spread v
  rw [if_neg fun e : v = y => h (e ▸ hy)] at wing
  split at wing
  · exact (Wing.spreadTimer_of_unstamped wing).trans (Wing.alertedNow_spreadTimer _)
  · exact (Wing.spreadTimer_of_unstamped wing).trans rfl

theorem spreadTo_zonesOf (xs : List (Fin 4)) (s : State) (v : Fin 4) : (spreadTo xs s).zonesOf v = s.zonesOf v :=
  foldl_same (f := fun t y => enterEvacuate t y .spread) (g := fun t => t.zonesOf v)
    (fun t y _ => zonesOf_enterEvacuate t y .spread v) s

theorem spreadTo_owner (xs : List (Fin 4)) (s : State) (n : Fin 276) :
    ((spreadTo xs s).channel n).wing = (s.channel n).wing :=
  foldl_same (f := fun t y => enterEvacuate t y .spread) (g := fun t => (t.channel n).wing)
    (fun t y _ => enterEvacuate_owner t y .spread n) s

theorem spreadTo_within (xs : List (Fin 4)) (s : State) : Within stageward s (spreadTo xs s) :=
  Within.foldl (fun t v => enterEvacuate_within t v .spread) xs s

theorem spreadTo_logGrows (xs : List (Fin 4)) (s : State) : LogGrows s (spreadTo xs s) :=
  .foldl (fun t v => enterEvacuate_logGrows t v .spread) xs s

/-- An egress flag that is set stays set while further wings enter EVACUATE. -/
theorem spreadTo_egress {xs : List (Fin 4)} {s : State} {z : Fin 64} (h : (s.zone z).egress = true) :
    ((spreadTo xs s).zone z).egress = true := by
  refine foldl_keeps (P := fun t => (t.zone z).egress = true) (fun t y ht => ?_) xs h
  rw [enterEvacuate_zone, ht, Bool.true_or]

/-- A wing that the spread reaches, in STANDBY (R70, R71). -/
theorem spreadTo_reaches {xs : List (Fin 4)} (hn : xs.Nodup) {v : Fin 4} (hv : v ∈ xs) {s : State}
    (hs : s.atStandby v = true) : LeavesStandby v s (spreadTo xs s)
      ∧ (∀ z ∈ s.zonesOf v, ((spreadTo xs s).zone z).egress = true)
      ∧ LoggedAmong s (spreadTo xs s)
        { kind := .stageChange, subject := .wing v, wing := some v, detail := .stage .evacuate .spread } := by
  obtain ⟨front, back, rfl, hf⟩ := List.eq_append_cons_of_mem hv
  have hb : v ∉ back := (List.nodup_cons.mp (List.nodup_append.mp hn).2.1).1
  have split : spreadTo (front ++ v :: back) s = spreadTo back (enterEvacuate (spreadTo front s) v .spread) := by
    rw [spreadTo, List.foldl_append, List.foldl_cons]
    rfl
  rw [split]
  have before := spreadTo_beside hf s
  have standby : (spreadTo front s).atStandby v = true := by
    rw [atStandby_congr (s := s) (by rw [spreadTo_stage, if_neg hf])]
    exact hs
  have grown := enterEvacuate_logGrows (spreadTo front s) v .spread
  have rest := spreadTo_logGrows back (enterEvacuate (spreadTo front s) v .spread)
  obtain ⟨more, logged⟩ := enterEvacuate_logged (spreadTo front s) v .spread
  refine ⟨((enterEvacuate_leaves standby .spread).late before).grow (before.log.trans grown)
    (enterEvacuate_not_standby ..) ?_ (fun n => ?_) (spreadTo_beside hb _), fun z hz => spreadTo_egress ?_, ?_⟩
  · rw [zonesOf_enterEvacuate, before.zonesOf]
  · rw [enterEvacuate_owner, before.owner]
  · rw [enterEvacuate_zone, before.zonesOf, decide_eq_true hz, Bool.or_true]
  · exact (LoggedAmong.late before.log (show LoggedAmong _ _ _ from ⟨[], more, logged⟩)).grow
      (before.log.trans grown).1 rest

/-- The wing's own timer before the spread. -/
def spreadStarted (s : State) (w : Fin 4) : State := s.modWing w fun r => { r with spreadTimer := none }

theorem spread_eq (s : State) (w : Fin 4) :
    spread s w = spreadTo ((spreadOf s w).filter fun v => s.atStandby v) (spreadStarted s w) := rfl

theorem spreadStarted_wing (s : State) (w v : Fin 4) : ((spreadStarted s w).wing v).stage = (s.wing v).stage
    ∧ ((spreadStarted s w).wing v).lockdown = (s.wing v).lockdown
    ∧ ((spreadStarted s w).wing v).alerted = (s.wing v).alerted := by
  rw [spreadStarted, State.wing_modWing]
  split <;> exact ⟨rfl, rfl, rfl⟩

theorem spreadStarted_beside (s : State) (w v : Fin 4) : Beside v s (spreadStarted s w) := by
  obtain ⟨stage, lockdown, alerted⟩ := spreadStarted_wing s w v
  exact .of_wing (modWing_onlyIn s w _) (by decide) (fun _ => rfl) (.of_onlyIn (modWing_onlyIn s w _) (by decide))
    lockdown fun hs => ⟨(atStandby_congr stage).trans hs, alerted⟩

theorem mem_spread {s : State} {w v : Fin 4} :
    v ∈ (spreadOf s w).filter (fun v => s.atStandby v) ↔ v ∈ (s.wing w).spreadList ∧ s.atStandby v = true := by
  rw [List.mem_filter, mem_spreadOf]

/-! ### The stage timers (R66) -/

/-- The event of a wing that enters EVACUATE by its own timer. -/
theorem stageEvent (s : State) (w : Fin 4) (c : StageCause) :
    EntersEvacuate w s (endEvent s (offeringRound (enterEvacuate s w c)))
      ∧ ZonesEvacuated w s (endEvent s (offeringRound (enterEvacuate s w c)))
      ∧ (∀ z, ((endEvent s (offeringRound (enterEvacuate s w c))).zone z).fire = (s.zone z).fire)
      ∧ PortsQuiet s (endEvent s (offeringRound (enterEvacuate s w c)))
      ∧ OnlyIn (evacuating ++ outward) s (endEvent s (offeringRound (enterEvacuate s w c)))
      ∧ LoggedFirst s (endEvent s (offeringRound (enterEvacuate s w c)))
        [{ kind := .stageChange, subject := .wing w, wing := some w, detail := .stage .evacuate c }] := by
  have round := offeringRound_outlasts (enterEvacuate s w c)
  have concludes := concludes_endEvent (b := s) round ((offeringRound_within _).1 .engine (by decide))
  have entered := enterEvacuate_within s w c
  have offered := offeringRound_within (enterEvacuate s w c)
  obtain ⟨-, more, logged⟩ := concludes.log
  refine ⟨entersEvacuate (.refl s) concludes, fun z => ?_, fun z => ?_,
    (entered.2.trans offered.2).trans (endEvent_portsQuiet s _),
    OnlyIn.trans (OnlyIn.trans (OnlyIn.mono entered.1 (by decide)) (OnlyIn.mono offered.1 (by decide)))
      (OnlyIn.mono (endEvent_onlyIn s _) (by decide)),
    (enterEvacuate_logged s w c).andThen logged (enterEvacuate_logGrows s w c).1⟩
  · rw [concludes.zone, enterEvacuate_zone]
  · rw [concludes.zone, enterEvacuate_zone]

/-! ### The events -/

/-- The event of a wing that spreads its evacuation. -/
theorem spreadEvent {s : State} {w : Fin 4} (hw : (s.wing w).stage = .evacuate) {t : State}
    (ht : t = endEvent s (offerAfterEvacuation s (spread s w))) :
    (t.wing w).spreadTimer = none ∧ PortsQuiet s t ∧ OnlyIn (evacuating ++ outward) s t ∧ DoorsKept s t
      ∧ ∀ v, (t.wing v).stage
        = (if v ∈ (s.wing w).spreadList ∧ s.atStandby v = true then .evacuate else (s.wing v).stage)
        ∧ (v ∈ (s.wing w).spreadList → s.atStandby v = true →
          LeavesStandby v s t ∧ (∀ z ∈ s.zonesOf v, (t.zone z).egress = true) ∧ LoggedAmong s t
            { kind := .stageChange, subject := .wing v, wing := some v, detail := .stage .evacuate .spread }) := by
  subst ht
  have concludes := closed_concludes s (spread s w)
  have offered := offerAfterEvacuation_within s (spread s w)
  have started : OnlyIn [.wings] s (spreadStarted s w) := modWing_onlyIn _ _ _
  have spreads : Within stageward (spreadStarted s w) (spread s w) := spread_eq s w ▸ spreadTo_within _ _
  have only : OnlyIn stageward s (spread s w) := (started.mono (by decide)).trans spreads.1
  have nodup : ((spreadOf s w).filter fun v => s.atStandby v).Nodup :=
    ((List.nodup_finRange 4).filter _).filter _
  have own : w ∉ (spreadOf s w).filter fun v => s.atStandby v := fun e => by
    have standby := (mem_spread.mp e).2
    rw [atStandby_eq, hw] at standby
    cases standby
  have startedGrows : LogGrows s (spreadStarted s w) := .of_onlyIn started (by decide)
  have spreadGrows : LogGrows (spreadStarted s w) (spread s w) := spread_eq s w ▸ spreadTo_logGrows _ _
  refine ⟨?_, ?_, ?_, (DoorsKept.of_same (only .doors (by decide))).trans concludes.doors, fun v => ⟨?_, fun hv hs => ?_⟩⟩
  · rw [Wing.spreadTimer_of_unstamped ((concludes.wings w).trans rfl), spread_eq]
    refine (spreadTo_spreadTimer own _).trans ?_
    rw [spreadStarted, State.wing_modWing_self]
  · exact ((Within.of_onlyIn started (by decide)).2.trans spreads.2).trans
      (offered.2.trans (endEvent_portsQuiet s _))
  · exact OnlyIn.trans (OnlyIn.trans (OnlyIn.mono only (by decide)) (OnlyIn.mono offered.1 (by decide)))
      (OnlyIn.mono (endEvent_onlyIn s _) (by decide))
  · rw [concludes.wings.stage, spread_eq, spreadTo_stage, (spreadStarted_wing s w v).1]
    simp only [mem_spread]
  · have before := spreadStarted_beside s w v
    have standby : (spreadStarted s w).atStandby v = true := (atStandby_congr (spreadStarted_wing s w v).1).trans hs
    have hm := mem_spread.mpr ⟨hv, hs⟩
    obtain ⟨leaves, egress, logged⟩ := spreadTo_reaches nodup hm standby
    rw [← spread_eq] at leaves egress logged
    have left : (spread s w).atStandby v = false := by
      rw [atStandby_eq, spread_eq, spreadTo_stage, if_pos hm]
      rfl
    refine ⟨(leaves.late before).grow (startedGrows.trans spreadGrows) left ?_ (fun n => ?_) (concludes.beside v),
      fun z hz => ?_, (logged.late startedGrows).grow (startedGrows.trans spreadGrows).1 concludes.log⟩
    · rw [spread_eq, spreadTo_zonesOf, before.zonesOf]
    · rw [spread_eq, spreadTo_owner, before.owner]
    · rw [concludes.zone]
      exact egress z (before.zonesOf v ▸ hz)

/-! ### The obligation -/

/-- Settles O53: the promotions and the alarm of the lowest promoted detector, the entries into EVACUATE of the stage
timers, and the spread as a fold over distinct STANDBY wings. -/
theorem verifyStageAndSpreadTimers : Obligations.VerifyStageAndSpreadTimers := by
  intro s w
  refine ⟨fun n d v hd hs hv => ⟨fun ha => ⟨_, exec_verifyTimerExpiry hd hs, ?_⟩,
    fun hp m e hm he hz hy hl => ⟨_, exec_verifyTimerExpiry hd hs, ?_⟩⟩, fun hw => ⟨_, ?_, stageEvent s w .ackTimeout⟩,
    fun hw => ⟨_, ?_, stageEvent s w .invTimeout⟩, fun hw ht => ⟨_, ?_, spreadEvent hw rfl⟩⟩
  · rw [verifyExpires_alone hs hv ha]
    have works := (verifyWritten_works s n d v).trans (deriveFire_works _ d.zone)
    rw [offerAfterEvacuation_of_works works]
    obtain ⟨ended, quiet, -⟩ := endEvent_of_works works (by decide)
    have derived := deriveFire_onlyIn (verifyWritten s n d v) d.zone
    have detector : ∀ m, (endEvent s (deriveFire (verifyWritten s n d v) d.zone)).detector m
        = if m = n then some { d with state := verifyOver s d v } else s.detector m := fun m => by
      rw [OnlyIn.detector_eq ended (by decide), OnlyIn.detector_eq derived (by decide), verifyWritten_detector]
    refine ⟨(detector n).trans (if_pos rfl), fun m hm => (detector m).trans (if_neg hm),
      ((verifyWritten_logged s n d v).keep (derived .log (by decide))).keep (ended .log (by decide)), quiet,
      OnlyIn.trans (OnlyIn.mono works.within.1 (by decide)) (OnlyIn.mono ended (by decide))⟩
  · obtain ⟨several, moved, alone⟩ := verifyExpires_coincident hs hv hp hm he hz hy hl
    have prelude := verifyWritten_prelude s n d v
    have concludes := closed_concludes s (verifyExpires s n d)
    obtain ⟨quiet, pieces⟩ := closed_frame (verifyExpires_within s n d)
    generalize endEvent s (offerAfterEvacuation s (verifyExpires s n d)) = t at concludes quiet pieces ⊢
    rw [moved] at concludes
    have tests := promoted_testsEnd concludes
    have event := promoted_alarmEvent prelude (verifyWritten_works s n d v).within.2 (verifyWritten_fire s n d v d.zone)
      concludes
    have record : (verifyWritten s n d v).detector n = some { d with state := verifyOver s d v } :=
      (verifyWritten_detector s n d v n).trans (if_pos rfl)
    have others : ∀ q, q ≠ n → (verifyWritten s n d v).detector q = s.detector q := fun q hq =>
      (verifyWritten_detector s n d v q).trans (if_neg hq)
    obtain ⟨-, more, logged⟩ := (promoteAll_prelude (verifyWritten s n d v) d.zone).log.trans
      ((zoneAlarm_aside ..).log.trans concludes.log)
    refine ⟨?_, fun q f hq hf hfz hfy => ⟨?_, ?_⟩, fun q f hq hf hfv => ?_,
      (verifyWritten_logged s n d v).first.andThen logged prelude.log.1, fun ha => ?_,
      fun ⟨q, f, hq, hqm, hf, hfz, hfy⟩ => ?_, event.followed, event.silence, event.fire, quiet, pieces⟩
    · obtain ⟨a, ha⟩ := tests.detector_armed (d := { d with state := verifyOver s d v })
        (by rw [promoteAll_detector, if_neg fun e => (mem_verifyingOf_written.mp e).1 rfl, record])
      exact ⟨a, by rw [ha, verifyOver, if_pos hp]⟩
    · exact tests.detector_armed (promoted_detector ((others q hq).trans hf) hfz hfy)
    · exact promoted_logged prelude ((others q hq).trans hf) hfz hfy concludes
    · refine promoted_detectorKept prelude (others q hq) (fun hin => ?_) tests
      obtain ⟨-, g, hg, hgz, hgy⟩ := mem_verifyingOf_written.mp hin
      rw [hf] at hg
      cases hg
      rcases hfv with e | e
      · exact e hgz
      · exact Bool.false_ne_true (e.symm.trans hgy)
    · rw [alone.mpr ha] at event
      exact event.taken
    · have many : several = true := Bool.eq_true_of_not_eq_false fun e =>
        absurd hfy (by rw [alone.mp e q f hq hqm hf hfz]; decide)
      rw [many] at event
      exact event.evacuates not_stagesAlarm_of_several
  · simp [exec, execStageTimerExpiry, hw]
  · simp [exec, execStageTimerExpiry, hw]
  · simp [exec, execSpreadTimerExpiry, occursWhen, ht]

end Sys2Proof.Machine
end

section
/-! SUPPORT. A poll whose scan goes on: what follows the reading, in an event that may change stages and in one that does not
(R25, R27). -/

set_option autoImplicit false

namespace Sys2Proof.Machine

/-! ### The loop's return from LINE_FAULT (R27) -/

theorem clearLineFault_onlyIn (s : State) (u : ScanUnit) (r : Reading) :
    OnlyIn [.loops, .log, .ports] s (clearLineFault s u r) := by
  unfold clearLineFault
  split
  · exact ((modUnit_onlyIn s u _).mono (by decide)).trans ((append_onlyIn_entryward _ _ _ _ _).mono (by decide))
  · exact OnlyIn.refl _ s

theorem clearLineFault_of_not_valid {r : Reading} (h : replyKind r ≠ .valid) (s : State) (u : ScanUnit) :
    clearLineFault s u r = s := if_neg (by simp [h])

theorem clearLineFault_entry {s x : State} {l : Fin 4} (hl : (x.loop l).state = (s.loop l).state) {r : Reading}
    (h : replyKind r = .valid) : Logged x (clearLineFault x (.loop l) r) (lineClearedEntry s l) := by
  have head : (ScanUnit.loop l).head = l := rfl
  unfold clearLineFault lineClearedEntry
  rw [head, hl, h]
  cases hs : (s.loop l).state with
  | lineFault =>
    exact (Logged.refl_of_onlyIn (modUnit_onlyIn x (.loop l) _) (by decide)).trans (append_logged _ _ _ _ _)
      ((modUnit_onlyIn x (.loop l) _) .seconds (by decide))
  | running => exact .refl x
  | off => exact .refl x
  | restarting p k => exact .refl x

/-! ### What follows the reading -/

/-- The loops after a reading, in a scan that goes on. -/
def scanMoved (x : State) (u : ScanUnit) (r : Reading) (sc : Scan) (note : PollNote) (k : Fin 48) : State :=
  modUnit (clearLineFault x u r) u fun q => { q with scan := some { slot := k, polls := sc.polls ++ [note] } }

section
variable {s x : State} {u : ScanUnit} {r : Reading} {sc : Scan} {note : PollNote} {k : Fin 48}

theorem afterPoll_further (hx : OnlyIn readward s x)
    (hk : enabledSlot (s.scanLists.get u.head) (sc.slot.val + 1) = some k) : afterPoll s x u r sc note
      = endEvent s (offerAfterEvacuation s (scanMoved x u r sc note k)) := by
  rw [afterPoll, moveOn_further (by rw [scanLists_clearLineFault hx, hk])]
  rfl

/-- The rest of the poll's event, for what the reading has led to. -/
theorem afterPoll_concludes (hx : OnlyIn readward s x)
    (hk : enabledSlot (s.scanLists.get u.head) (sc.slot.val + 1) = some k) :
    Concludes s x (afterPoll s x u r sc note) := by
  rw [afterPoll_further hx hk]
  refine concludes_endEvent (((clearLineFault_outlasts x u r).trans (modUnit_outlasts _ u _)).trans
    (offerAfterEvacuation_outlasts s _)) ?_
  have moved : OnlyIn [.loops, .log, .ports] x (scanMoved x u r sc note k) :=
    (clearLineFault_onlyIn x u r).trans ((modUnit_onlyIn _ u _).mono (by decide))
  exact Eq.trans ((offerAfterEvacuation_within s _).1 .engine (by decide)) (moved .engine (by decide))

theorem scanMoved_works (x : State) (u : ScanUnit) (r : Reading) (sc : Scan) (note : PollNote) (k : Fin 48) :
    Works scanward x (scanMoved x u r sc note k) :=
  ((clearLineFault_works x u r).mono (by decide)).trans (modUnit_works ..)

/-- The rest of the event of a reading that changes no stage. -/
theorem quietPoll (hx : Works detectorward s x)
    (hk : enabledSlot (s.scanLists.get u.head) (sc.slot.val + 1) = some k) :
    OnlyIn ([.engine] ++ outward) (scanMoved x u r sc note k) (afterPoll s x u r sc note) := by
  have works : Works (detectorward ++ scanward) s (scanMoved x u r sc note k) :=
    (hx.mono (by decide)).trans ((scanMoved_works x u r sc note k).mono (by decide))
  rw [afterPoll_further (hx.within.1.mono (by decide)) hk, offerAfterEvacuation_of_works works]
  exact (endEvent_of_works works (by decide)).1

theorem quietPoll_stage (hx : Works detectorward s x)
    (hk : enabledSlot (s.scanLists.get u.head) (sc.slot.val + 1) = some k) (w : Fin 4) :
    ((afterPoll s x u r sc note).wing w).stage = (s.wing w).stage := by
  rw [OnlyIn.wing_eq (quietPoll hx hk) (by decide), (scanMoved_works x u r sc note k).inputs.stage_eq,
    hx.inputs.stage_eq]

/-- Of a reading that is not valid the rest of the event leaves the log. -/
theorem quietPoll_of_not_valid (hx : Works detectorward s x)
    (hk : enabledSlot (s.scanLists.get u.head) (sc.slot.val + 1) = some k) (hr : replyKind r ≠ .valid) :
    OnlyIn ([.loops, .engine] ++ outward) x (afterPoll s x u r sc note) := by
  have moved : OnlyIn [.loops] x (scanMoved x u r sc note k) := by
    rw [scanMoved, clearLineFault_of_not_valid hr]
    exact modUnit_onlyIn _ _ _
  exact OnlyIn.trans (OnlyIn.mono moved (by decide)) (OnlyIn.mono (quietPoll hx hk) (by decide))

theorem quietPoll_onlyIn (hx : Works detectorward s x)
    (hk : enabledSlot (s.scanLists.get u.head) (sc.slot.val + 1) = some k) :
    OnlyIn ([.loops, .log, .engine] ++ outward) x (afterPoll s x u r sc note) :=
  OnlyIn.trans (OnlyIn.trans (OnlyIn.mono (clearLineFault_onlyIn x u r) (by decide))
    (OnlyIn.mono (modUnit_onlyIn _ u _) (by decide))) (OnlyIn.mono (quietPoll hx hk) (by decide))

theorem quietPoll_pieces (hx : Works detectorward s x)
    (hk : enabledSlot (s.scanLists.get u.head) (sc.slot.val + 1) = some k) :
    OnlyIn ([.zones, .wings, .loops, .detectors, .exits, .engine, .log] ++ outward) s (afterPoll s x u r sc note) :=
  OnlyIn.trans (OnlyIn.mono hx.within.1 (by decide)) (OnlyIn.mono (quietPoll_onlyIn hx hk) (by decide))

theorem quietPoll_detector (hx : Works detectorward s x)
    (hk : enabledSlot (s.scanLists.get u.head) (sc.slot.val + 1) = some k) (n : Fin 192) :
    (afterPoll s x u r sc note).detector n = x.detector n :=
  OnlyIn.detector_eq (quietPoll_onlyIn hx hk) (by decide) n

end

/-- The log of a valid reading that changes no stage. -/
theorem quietPoll_logged {s x : State} {l : Fin 4} {r : Reading} {sc : Scan} {note : PollNote} {k : Fin 48}
    (hx : Works detectorward s x) (hk : enabledSlot (s.scanLists.get l) (sc.slot.val + 1) = some k)
    (hr : replyKind r = .valid) {xs : List LogItem} (h : Logged s x xs) :
    Logged s (afterPoll s x (.loop l) r sc note) (xs ++ lineClearedEntry s l) := by
  have cleared := clearLineFault_entry (s := s) (x := x) (l := l) (by rw [OnlyIn.loop_eq hx.within.1 (by decide)]) hr
  exact ((h.trans cleared hx.log.1).keep (modUnit_onlyIn _ _ _ .log (by decide))).keep
    (quietPoll (u := .loop l) hx hk .log (by decide))

end Sys2Proof.Machine
end

section
/-! SUPPORT. A valid reading in the terms of the obligations: the level, the rise run, the table of states and the tracked
baseline (R43 to R54). -/

set_option autoImplicit false

namespace Sys2Proof.Machine

/-! ### The first step (R43) -/

section
variable (d : Detector)

theorem Detector.taken_zone : d.taken.zone = d.zone := by unfold Detector.taken; split <;> rfl

theorem Detector.taken_cls : d.taken.cls = d.cls := by unfold Detector.taken; split <;> rfl

theorem Detector.taken_baseline : d.taken.baseline = d.baseline := by unfold Detector.taken; split <;> rfl

theorem Detector.taken_compLimit : d.taken.compLimit = d.compLimit := by unfold Detector.taken; split <;> rfl

theorem Detector.taken_testArmed : d.taken.testArmed = d.testArmed := by unfold Detector.taken; split <;> rfl

end

/-- Whether a detector's reading is its first since it was UNMONITORED or in FAULT (R43). -/
def Detector.fresh (d : Detector) : Bool :=
  match d.state with
  | .unmonitored | .fault _ => true
  | _ => false

/-- The record that the first step hands on: `taken` but for the level before the reading. -/
def Detector.handedOn (d : Detector) : Detector := { d.taken with level := d.level }

/-- The level before a reading, as the evaluation takes it. -/
theorem Detector.taken_level (d : Detector) : (if d.fresh then none else d.level) = d.taken.level := by
  unfold Detector.fresh Detector.taken
  cases d.state <;> rfl

/-- The first step's entry: a detector in FAULT returns from it (R43). -/
def faultLeft (s : State) (n : Fin 192) (d : Detector) : State :=
  match d.state with
  | .fault _ => appendDetector s .faultCleared n d.zone .none
  | _ => s

theorem faultLeft_eq (s : State) (n : Fin 192) (d : Detector) : faultLeft s n d = s
    ∨ faultLeft s n d = appendDetector s .faultCleared n d.zone .none := by
  unfold faultLeft
  split
  · exact .inr rfl
  · exact .inl rfl

theorem faultLeft_prelude (s : State) (n : Fin 192) (d : Detector) : Prelude s (faultLeft s n d) := by
  rcases faultLeft_eq s n d with e | e <;> rw [e]
  · exact .refl s
  · exact append_prelude ..

theorem faultLeft_works (s : State) (n : Fin 192) (d : Detector) : Works detectorward s (faultLeft s n d) := by
  rcases faultLeft_eq s n d with e | e <;> rw [e]
  · exact .refl _ s
  · exact appendDetector_works ..

theorem faultLeft_onlyIn (s : State) (n : Fin 192) (d : Detector) : OnlyIn logward s (faultLeft s n d) := by
  rcases faultLeft_eq s n d with e | e <;> rw [e]
  · exact OnlyIn.refl _ s
  · exact append_onlyIn _ _ _ _ _

theorem faultLeft_logged (s : State) (n : Fin 192) (d : Detector) :
    Logged s (faultLeft s n d) (faultClearedEntry s n d) := by
  unfold faultLeft faultClearedEntry
  cases d.state with
  | fault g => exact append_logged _ _ _ _ _
  | unmonitored => exact .refl s
  | normal => exact .refl s
  | preAlarm => exact .refl s
  | verifying k => exact .refl s
  | alarm => exact .refl s
  | disabled => exact .refl s

theorem classify_valid {v : Nat} (hl : 64 ≤ v) (hh : v ≤ 4031) : classify (.raw v) = .valid v := by
  have low : ¬ v < Config.validLow := not_lt.mpr hl
  have high : ¬ Config.validHigh < v := not_lt.mpr hh
  simp only [classify, if_neg low, if_neg high]

/-- A valid reading that is evaluated. -/
theorem takeReading_valid {s : State} {n : Fin 192} {d : Detector} {v : Nat} (hd : s.detector n = some d)
    (hs : d.state ≠ .disabled) (hl : 64 ≤ v) (hh : v ≤ 4031) (hf : (∃ g, d.state = .fault g) → d.validRun ≠ 0) :
    takeReading s n (.raw v) = evaluate (faultLeft s n d) n d d.handedOn d.fresh v := by
  simp only [takeReading, hd, if_neg hs, classify_valid hl hh]
  unfold takeValid faultLeft Detector.handedOn Detector.taken Detector.fresh
  cases h : d.state with
  | fault g => simp only [if_neg (hf ⟨g, h⟩)]
  | disabled => exact absurd h hs
  | unmonitored => rfl
  | normal => rfl
  | preAlarm => rfl
  | verifying k => rfl
  | alarm => rfl

/-! ### The level and the rise (R44, R45) -/

theorem riseRunAfter_eq (c : DetectorClass) (d : Detector) (level : Nat) :
    riseRunAfter d.riseRun (riseOf level d.level) c.riseStep d.level = readRun c d level := by
  unfold riseRunAfter riseOf readRun
  cases d.level with
  | none => rfl
  | some p =>
    have steep : ((c.riseStep : Int) ≤ (level : Int) - (p : Int)) ↔ p + c.riseStep ≤ level := by omega
    have rises : (0 < (level : Int) - (p : Int)) ↔ p < level := by omega
    simp only [steep, rises, Config.riseRunMax]

theorem risesSlowly_eq (c : DetectorClass) (d : Detector) (level : Nat) :
    decide (riseOf level d.level < (c.riseStep : Int)) = risesSlowly c d level := by
  unfold riseOf risesSlowly
  cases d.level with
  | none => exact decide_eq_decide.mpr (by dsimp only; omega)
  | some p => exact decide_eq_decide.mpr (by dsimp only; omega)

/-! ### The table of states (R47, R48) -/

/-- The return from PRE_ALARM, with its hysteresis (R47). -/
theorem returns_eq (level pre : Nat) :
    (decide (level + Config.hysteresis < pre) || (decide (level = 0) && decide (pre = 16)))
      = decide (level + 16 < pre ∨ level = 0 ∧ pre = 16) := by
  rw [Bool.decide_or, Bool.decide_and]
  rfl

theorem moveState_state (s : State) (d : Detector) (level run : Nat) :
    (moveState (s.cls d.cls) (s.thresholdsFor d) d.state level (riseAlarm (s.cls d.cls) run)).state
      = tableState s d level run := by
  have alarm : ((s.thresholdsFor d).levelAlarm level || riseAlarm (s.cls d.cls) run) = alarmMet s d level run := rfl
  unfold moveState tableState
  dsimp only
  rw [alarm]
  cases d.state with
  | normal =>
    by_cases ha : alarmMet s d level run = true <;> by_cases hw : (s.cls d.cls).window = 0
      <;> by_cases hp : (s.thresholdsFor d).pre ≤ level <;> simp [ha, hw, hp]
  | preAlarm =>
    rw [returns_eq]
    by_cases ha : alarmMet s d level run = true <;> by_cases hw : (s.cls d.cls).window = 0
      <;> by_cases hy : level + 16 < (s.thresholdsFor d).pre ∨ level = 0 ∧ (s.thresholdsFor d).pre = 16
      <;> simp [ha, hw, hy]
  | verifying k => by_cases ha : alarmMet s d level run = true <;> simp [ha]
  | unmonitored => rfl
  | alarm => rfl
  | fault g => rfl
  | disabled => rfl

/-- The entry of a move, as an item of the log. -/
def moveEntries (s : State) (n : Fin 192) (z : Fin 64) (e : Option (EntryKind × Detail)) : List LogItem :=
  e.toList.map fun x => { kind := x.1, subject := .detector n, wing := some (s.wingOf z), detail := x.2 }

theorem moveState_entry (s : State) (n : Fin 192) (d : Detector) (level run : Nat) :
    moveEntries s n d.zone
        (moveState (s.cls d.cls) (s.thresholdsFor d) d.state level (riseAlarm (s.cls d.cls) run)).entry
      = tableEntry s n d level run := by
  have alarm : ((s.thresholdsFor d).levelAlarm level || riseAlarm (s.cls d.cls) run) = alarmMet s d level run := rfl
  unfold moveState tableEntry tableState
  dsimp only
  rw [alarm]
  cases d.state with
  | normal =>
    by_cases ha : alarmMet s d level run = true <;> by_cases hw : (s.cls d.cls).window = 0
      <;> by_cases hp : (s.thresholdsFor d).pre ≤ level <;> simp [ha, hw, hp, moveEntries]
  | preAlarm =>
    rw [returns_eq]
    by_cases ha : alarmMet s d level run = true <;> by_cases hw : (s.cls d.cls).window = 0
      <;> by_cases hy : level + 16 < (s.thresholdsFor d).pre ∨ level = 0 ∧ (s.thresholdsFor d).pre = 16
      <;> simp [ha, hw, hy, moveEntries]
  | verifying k => by_cases ha : alarmMet s d level run = true <;> simp [ha, moveEntries]
  | unmonitored => rfl
  | alarm => rfl
  | fault g => rfl
  | disabled => rfl

end Sys2Proof.Machine
end

section
/-! SUPPORT. The reading of a detector as a write of its record with the entry of its move, what the move leads to, and the
tracking of its baseline (R47 to R54). -/

set_option autoImplicit false

namespace Sys2Proof.Machine

section
variable (s : State) (n : Fin 192) (d : Detector) (level run : Nat)

theorem faultLeft_cls : (faultLeft s n d).cls = s.cls :=
  funext fun c => by
    rw [State.cls, State.cls, show (faultLeft s n d).classes = s.classes from faultLeft_onlyIn s n d .classes (by decide)]

theorem Prelude.thresholdsFor {b s : State} (h : Prelude b s) (e : Detector) :
    s.thresholdsFor e = b.thresholdsFor e := by
  have classes : s.classes = b.classes := h.pieces .classes (by decide)
  rw [State.thresholdsFor, State.thresholdsFor, h.wingOf, State.cls, State.cls, classes,
    show (s.wing (b.wingOf e.zone)).mode = (b.wing (b.wingOf e.zone)).mode from (congrArg Wing.mode (h.wings _) :)]

theorem thresholdsFor_taken : s.thresholdsFor d.taken = s.thresholdsFor d := by
  rw [State.thresholdsFor, State.thresholdsFor, d.taken_cls, d.taken_zone]

/-- What step 5 decides on a reading (R47, R48). -/
def readMove : Move :=
  moveState (s.cls d.taken.cls) (s.thresholdsFor d.taken) d.taken.state level (riseAlarm (s.cls d.taken.cls) run)

/-- The record that a reading in a zone whose test is off leaves, before the baseline is tracked. -/
def Detector.moved (x : DetectorState) : Detector := { d.taken with state := x, level := some level, riseRun := run }

/-- The entry of a move is appended. -/
def appendMove (z : Fin 64) (e : Option (EntryKind × Detail)) : State :=
  match e with
  | some (k, x) => appendDetector s k n z x
  | none => s

/-- A reading's record with the entry of its move. -/
def readWritten : State :=
  appendMove (writeDetector (faultLeft s n d) n d (d.moved level run (tableState s d.taken level run))) n d.zone
    (readMove s d level run).entry

/-- What follows the move of a reading. -/
def readFollowed : State :=
  afterMove (readWritten s n d level run) n d.zone d.state (tableState s d.taken level run)

/-- Whether a reading lets the baseline track (R51). -/
def tracksBaseline : Bool :=
  (s.cls d.cls).tracking && decide (tableState s d.taken level run = .normal)
    && decide (level < (s.thresholdsFor d).pre) && risesSlowly (s.cls d.cls) d.taken level

theorem tracksBaseline_iff : tracksBaseline s d level run = true
    ↔ (s.cls d.cls).tracking = true ∧ tableState s d.taken level run = .normal ∧ level < (s.thresholdsFor d).pre
      ∧ risesSlowly (s.cls d.cls) d.taken level = true := by
  simp [tracksBaseline, and_assoc]

end

section
variable {s : State} {n : Fin 192} {d : Detector} {level run v : Nat}

theorem readMove_state : (readMove s d level run).state = tableState s d.taken level run := moveState_state ..

theorem readMove_entry : moveEntries s n d.zone (readMove s d level run).entry = tableEntry s n d.taken level run := by
  rw [← moveState_entry, d.taken_zone]
  rfl

/-- The record of a move with its entry, and what follows it. -/
def followMove (x : State) (n : Fin 192) (old e : Detector) (z : Fin 64) (m : Move) (level run : Nat) : State :=
  afterMove (appendMove (writeDetector x n old { e with level := some level, riseRun := run, state := m.state }) n z
    m.entry) n z old.state m.state

/-- The evaluation in a zone whose test is off, in terms of the level, the rise run and the move that it computes. -/
theorem evaluate_of_off {x : State} {old e : Detector} {fresh : Bool} {c : DetectorClass} {t : Thresholds}
    {previous : Option Nat} {z : Fin 64} {m : Move} (hz : e.zone = z) (ht : (x.zone z).testTimer = none)
    (hc : x.cls e.cls = c) (hx : x.thresholdsFor e = t) (hp : (if fresh then none else e.level) = previous)
    (hl : levelOf v e.baseline = level)
    (hr : riseRunAfter e.riseRun (riseOf level previous) c.riseStep previous = run)
    (hm : moveState c t e.state level (riseAlarm c run) = m) :
    evaluate x n old e fresh v
      = if c.tracking && decide (m.state = .normal) && decide (level < t.pre)
          && decide (riseOf level previous < (c.riseStep : Int)) then
          track (followMove x n old e z m level run) n v
        else followMove x n old e z m level run := by
  subst hz hc hx hp hl hr hm
  unfold evaluate followMove appendMove
  exact if_neg (by rw [ht]; decide)

/-- What follows the move of a reading, as the evaluation states it. -/
theorem followMove_read : followMove (faultLeft s n d) n d d.handedOn d.zone (readMove s d level run) level run
    = readFollowed s n d level run := by
  rw [followMove, readFollowed, readWritten, readMove_state]
  rfl

/-- The evaluation of a reading in a zone whose test is off. -/
theorem evaluate_off (ht : (s.zone d.zone).testTimer = none)
    (hl : level = readLevel d v) (hr : run = readRun (s.cls d.cls) d.taken level) :
    evaluate (faultLeft s n d) n d d.handedOn d.fresh v
      = if tracksBaseline s d level run then track (readFollowed s n d level run) n v
        else readFollowed s n d level run := by
  have prelude := faultLeft_prelude s n d
  have zone : d.handedOn.zone = d.zone := d.taken_zone
  have cls : (faultLeft s n d).cls d.handedOn.cls = s.cls d.cls := by
    rw [faultLeft_cls, show d.handedOn.cls = d.cls from d.taken_cls]
  have thresholds : (faultLeft s n d).thresholdsFor d.handedOn = s.thresholdsFor d :=
    (prelude.thresholdsFor _).trans (thresholdsFor_taken s d)
  have move : moveState (s.cls d.cls) (s.thresholdsFor d) d.handedOn.state level (riseAlarm (s.cls d.cls) run)
      = readMove s d level run := by
    rw [readMove, d.taken_cls, thresholdsFor_taken]
    rfl
  rw [evaluate_of_off (c := s.cls d.cls) (t := s.thresholdsFor d) (level := level) (run := run)
    zone (by rw [prelude.testTimer, ht]) cls thresholds d.taken_level
    (by rw [show d.handedOn.baseline = d.baseline from d.taken_baseline, hl]; rfl)
    (by rw [hr, ← riseRunAfter_eq]; rfl) move, risesSlowly_eq, followMove_read, readMove_state]
  rfl

end

end Sys2Proof.Machine
end

section
/-! SUPPORT. The records and the entries that a reading writes before the stage machine acts (R42 to R54). -/

set_option autoImplicit false

namespace Sys2Proof.Machine

/-! ### Entries among others -/

theorem Logged.among_of_mem {s t : State} {xs : List LogItem} (h : Logged s t xs) {x : LogItem} (hx : x ∈ xs) :
    LoggedAmong s t x := by
  obtain ⟨before, after, rfl⟩ := List.append_of_mem hx
  exact ⟨before, after, by simpa using h⟩

/-! ### The entry of a move -/

section
variable (s : State) (n : Fin 192) (z : Fin 64) (e : Option (EntryKind × Detail))

theorem appendMove_works : Works detectorward s (appendMove s n z e) := by
  unfold appendMove
  split
  · exact appendDetector_works ..
  · exact .refl _ s

theorem appendMove_prelude : Prelude s (appendMove s n z e) := by
  unfold appendMove
  split
  · exact append_prelude ..
  · exact .refl s

theorem appendMove_detector (m : Fin 192) : (appendMove s n z e).detector m = s.detector m := by
  unfold appendMove
  split
  · exact append_detector ..
  · rfl

theorem appendMove_zone (y : Fin 64) : (appendMove s n z e).zone y = s.zone y := by
  unfold appendMove
  split
  · exact append_zone ..
  · rfl

theorem appendMove_logged : Logged s (appendMove s n z e) (moveEntries s n z e) := by
  cases e with
  | none => exact .refl s
  | some x => exact append_logged _ _ _ _ _

end

theorem moveEntries_congr {s t : State} {z : Fin 64} (h : t.wingOf z = s.wingOf z) (n : Fin 192)
    (e : Option (EntryKind × Detail)) : moveEntries t n z e = moveEntries s n z e := by rw [moveEntries, h, moveEntries]

/-! ### The record of a reading in a zone whose test is off -/

section
variable (s : State) (n : Fin 192) (d : Detector) (level run : Nat)

theorem readWritten_works : Works detectorward s (readWritten s n d level run) :=
  ((faultLeft_works s n d).trans (writeDetector_works ..)).trans (appendMove_works ..)

theorem readWritten_prelude : Prelude s (readWritten s n d level run) :=
  ((faultLeft_prelude s n d).trans (writeDetector_prelude ..)).trans (appendMove_prelude ..)

theorem readWritten_detector (m : Fin 192) : (readWritten s n d level run).detector m
    = if m = n then some (d.moved level run (tableState s d.taken level run)) else s.detector m := by
  rw [readWritten, appendMove_detector, writeDetector_detector, (faultLeft_onlyIn s n d).detector_eq (by decide)]

theorem readWritten_fire (z : Fin 64) : ((readWritten s n d level run).zone z).fire = (s.zone z).fire := by
  rw [readWritten, appendMove_zone, writeDetector_fire, (faultLeft_onlyIn s n d).zone_eq (by decide)]

theorem readWritten_logged : Logged s (readWritten s n d level run)
    (faultClearedEntry s n d ++ tableEntry s n d.taken level run) := by
  have left := faultLeft_prelude s n d
  have written := left.trans
    (writeDetector_prelude (faultLeft s n d) n d (d.moved level run (tableState s d.taken level run)))
  have entered := ((faultLeft_logged s n d).trans (writeDetector_logged (faultLeft s n d) n d _) left.log.1).trans
    (appendMove_logged _ n d.zone (readMove s d level run).entry) written.log.1
  rw [moveEntries_congr (written.wingOf _), readMove_entry, List.append_nil] at entered
  exact entered

end

/-! ### The tracked baseline (R51, R52) -/

/-- A record whose baseline has tracked. -/
def Detector.tracked (d : Detector) (c : DetectorClass) (v : Nat) : Detector :=
  { d with
    baseline := trackedBaseline c v d.baseline, compLimit := limitAfter c (trackedBaseline c v d.baseline) d.compLimit }

theorem limitAfter_raised {c : DetectorClass} {b : Nat} (h : limitAfter c b false = true) : b = 16 * c.bmax := by
  unfold limitAfter at h
  split at h
  next e => exact e
  next => split at h <;> cases h

theorem track_of_some {s : State} {n : Fin 192} {d : Detector} (hd : s.detector n = some d) (v : Nat) : track s n v
    = if (d.tracked (s.cls d.cls) v).compLimit && !d.compLimit then
        appendDetector (s.putDetector n (some (d.tracked (s.cls d.cls) v))) .compLimit n d.zone
          (.number (s.cls d.cls).bmax)
      else s.putDetector n (some (d.tracked (s.cls d.cls) v)) := by
  have tracked : track s n v = if (d.tracked (s.cls d.cls) v).compLimit && !d.compLimit then
        appendDetector (s.putDetector n (some (d.tracked (s.cls d.cls) v))) .compLimit n d.zone
          (.number ((d.tracked (s.cls d.cls) v).baseline / 16))
      else s.putDetector n (some (d.tracked (s.cls d.cls) v)) := by
    simp only [track, hd]
    rfl
  rw [tracked]
  split
  next h =>
    rw [Bool.and_eq_true, Bool.not_eq_true'] at h
    have raised : limitAfter (s.cls d.cls) (d.tracked (s.cls d.cls) v).baseline false = true := h.2 ▸ h.1
    have top := limitAfter_raised raised
    rw [show (d.tracked (s.cls d.cls) v).baseline / 16 = (s.cls d.cls).bmax by omega]
  next => rfl

section
variable {s : State} {n : Fin 192} {d : Detector} (hd : s.detector n = some d) (v : Nat)
include hd

theorem track_works : Works detectorward s (track s n v) := by
  rw [track_of_some hd]
  exact .ite ((putDetector_works ..).trans (appendDetector_works ..)) (putDetector_works ..)

theorem track_detector (m : Fin 192) : (track s n v).detector m
    = if m = n then some (d.tracked (s.cls d.cls) v) else s.detector m := by
  rw [track_of_some hd]
  split
  · rw [appendDetector, append_detector, State.detector_putDetector]
  · rw [State.detector_putDetector]

theorem track_logged : Logged s (track s n v)
    (compLimitEntry s n d (d.tracked (s.cls d.cls) v).compLimit) := by
  have put : Logged s (s.putDetector n (some (d.tracked (s.cls d.cls) v))) [] :=
    (Logged.refl s).keep (putDetector_onlyIn s n _ .log (by decide))
  rw [track_of_some hd]
  unfold compLimitEntry
  split
  · exact put.trans (append_logged _ _ _ _ _) rfl
  · exact put

end

end Sys2Proof.Machine
end

section
/-! SUPPORT. The outcomes of a reading in a zone whose test is off: the move alone, the alarm of one detector, and the
coincidence of several (R47 to R52). -/

set_option autoImplicit false

namespace Sys2Proof.Machine

/-! ### What the move leads to -/

section
variable {s : State} {n : Fin 192} {d : Detector} {level run v : Nat}

theorem mem_verifyingOf_read {m : Fin 192} (hm : m ≠ n) : m ∈ verifyingOf (readWritten s n d level run) d.zone
    ↔ ∃ e, s.detector m = some e ∧ e.zone = d.zone ∧ e.state.isVerifying = true := by
  rw [mem_verifyingOf, readWritten_detector, if_neg hm]

theorem mem_verifyingOf_read_self : n ∈ verifyingOf (readWritten s n d level run) d.zone
    ↔ (tableState s d.taken level run).isVerifying = true := by
  rw [mem_verifyingOf, readWritten_detector, if_pos rfl]
  exact ⟨fun ⟨e, he, _, hv⟩ => by cases he; exact hv, fun hv => ⟨_, rfl, d.taken_zone, hv⟩⟩

/-- The move of a reading where no other detector of the zone is VERIFYING. -/
theorem readFollowed_alone
    (ha : ∀ m e, m ≠ n → s.detector m = some e → e.zone = d.zone → e.state.isVerifying = false) :
    readFollowed s n d level run
      = if entersAlarm d.state (tableState s d.taken level run) then
          zoneAlarm (readWritten s n d level run) d.zone (.detector n) false
        else deriveFire (readWritten s n d level run) d.zone :=
  afterMove_of_alone fun _ m hm => by_contra fun hn => by
    obtain ⟨e, he, hz, hv⟩ := (mem_verifyingOf_read hn).mp hm
    exact Bool.false_ne_true ((ha m e hn he hz).symm.trans hv)

/-! ### The record -/

/-- The record that a reading leaves, with its baseline (R47, R51, R52). -/
def ReadRecord (s : State) (d : Detector) (v level run : Nat) (e : Detector) : Prop :=
  e = { d.taken with
      state := tableState s d.taken level run, level := some level, riseRun := run
      baseline := e.baseline, compLimit := e.compLimit }
    ∧ (if (s.cls d.cls).tracking = true ∧ e.state = .normal ∧ level < (s.thresholdsFor d).pre
          ∧ risesSlowly (s.cls d.cls) d.taken level = true then
        e.baseline
            = clamp (16 * (s.cls d.cls).bmin) (16 * (s.cls d.cls).bmax)
              ((d.baseline : Int) + max (-8) (min 8 (Int.tdiv (16 * (v : Int) - (d.baseline : Int)) 64))).toNat
          ∧ e.compLimit
            = (if e.baseline = 16 * (s.cls d.cls).bmax then true
              else if e.baseline + 16 ≤ 16 * (s.cls d.cls).bmax then false else d.compLimit)
      else e.baseline = d.baseline ∧ e.compLimit = d.compLimit)

theorem readRecord_moved (h : ¬ tracksBaseline s d level run) :
    ReadRecord s d v level run (d.moved level run (tableState s d.taken level run)) :=
  ⟨rfl, by
    split
    next hc => exact absurd ((tracksBaseline_iff ..).mpr hc) h
    next => exact ⟨d.taken_baseline, d.taken_compLimit⟩⟩

theorem readRecord_tracked (h : tracksBaseline s d level run) : ReadRecord s d v level run
    ((d.moved level run (tableState s d.taken level run)).tracked (s.cls d.cls) v) := by
  have baseline : (d.moved level run (tableState s d.taken level run)).baseline = d.baseline := d.taken_baseline
  have limit : (d.moved level run (tableState s d.taken level run)).compLimit = d.compLimit := d.taken_compLimit
  refine ⟨rfl, ?_⟩
  split
  next =>
    unfold Detector.tracked
    rw [baseline, limit]
    exact ⟨rfl, rfl⟩
  next hc => exact absurd ((tracksBaseline_iff ..).mp h) hc

theorem compLimitEntry_congr {u : State} {f : Detector} (hw : u.wingOf f.zone = s.wingOf d.zone)
    (hc : u.cls f.cls = s.cls d.cls) (hl : f.compLimit = d.compLimit) (after : Bool) :
    compLimitEntry u n f after = compLimitEntry s n d after := by
  simp only [compLimitEntry, hw, hc, hl]

theorem compLimitEntry_self : compLimitEntry s n d d.compLimit = [] := by simp [compLimitEntry]

/-! ### A reading that changes no stage -/

/-- A reading that leads to no alarm: its record, its entries and nothing else but the zone's fire state. -/
structure QuietlyRead (s : State) (n : Fin 192) (d : Detector) (v level run : Nat) (x : State) (e : Detector) : Prop where
  works : Works detectorward s x
  detector : ∀ m, x.detector m = if m = n then some e else s.detector m
  record : ReadRecord s d v level run e
  logged : Logged s x
    (faultClearedEntry s n d ++ tableEntry s n d.taken level run ++ compLimitEntry s n d e.compLimit)

theorem quietlyRead (hn : readFollowed s n d level run = deriveFire (readWritten s n d level run) d.zone) :
    ∃ e, QuietlyRead s n d v level run
      (if tracksBaseline s d level run then track (readFollowed s n d level run) n v
        else readFollowed s n d level run) e := by
  have derived := deriveFire_onlyIn (readWritten s n d level run) d.zone
  have prelude := (readWritten_prelude s n d level run).trans (deriveFire_prelude _ d.zone)
  have works := (readWritten_works s n d level run).trans (deriveFire_works _ d.zone)
  have logged := (readWritten_logged s n d level run).keep (derived .log (by decide))
  have detector : ∀ m, (deriveFire (readWritten s n d level run) d.zone).detector m
      = if m = n then some (d.moved level run (tableState s d.taken level run)) else s.detector m := fun m => by
    rw [OnlyIn.detector_eq derived (by decide), readWritten_detector]
  rw [hn]
  split
  next h =>
    have hd := (detector n).trans (if_pos rfl)
    have cls : (deriveFire (readWritten s n d level run) d.zone).cls
        (d.moved level run (tableState s d.taken level run)).cls = s.cls d.cls := by
      rw [show (d.moved level run (tableState s d.taken level run)).cls = d.cls from d.taken_cls, State.cls, State.cls,
        show (deriveFire (readWritten s n d level run) d.zone).classes = s.classes from
          works.within.1 .classes (by decide)]
    have tracked := track_logged hd v
    have written := track_detector hd v
    rw [compLimitEntry_congr (s := s) (d := d) (f := d.moved level run (tableState s d.taken level run))
      ((prelude.wingOf _).trans (congrArg s.wingOf d.taken_zone)) cls d.taken_compLimit, cls] at tracked
    rw [cls] at written
    refine ⟨_, works.trans (track_works hd v), fun m => ?_, readRecord_tracked h, logged.trans tracked works.log.1⟩
    rw [written, detector]
    split <;> rfl
  next h =>
    refine ⟨_, works, detector, readRecord_moved h, ?_⟩
    rw [show (d.moved level run (tableState s d.taken level run)).compLimit = d.compLimit from d.taken_compLimit,
      compLimitEntry_self, List.append_nil]
    exact logged

end

end Sys2Proof.Machine
end

section
/-! SUPPORT. The event of a reading in a zone whose test is off (R47 to R52, R61 to R64). -/

set_option autoImplicit false

namespace Sys2Proof.Machine

/-! ### The states that the table leads to -/

/-- The states that a detector in NORMAL or PRE_ALARM may come to (R47). -/
theorem tableState_range {s : State} {e : Detector} (he : e.state = .normal ∨ e.state = .preAlarm) (level run : Nat) :
    tableState s e level run = .normal ∨ (tableState s e level run).concern = true := by
  have raised : (if (s.cls e.cls).window = 0 then DetectorState.alarm
      else .verifying (s.cls e.cls).window).concern = true := by split <;> rfl
  unfold tableState
  rcases he with h | h <;> simp only [h]
  · split
    · exact .inr raised
    · split
      · exact .inr rfl
      · exact .inl rfl
  · split
    · exact .inr raised
    · split
      · exact .inl rfl
      · exact .inr rfl

theorem tableState_verifying {s : State} {e : Detector} {k : Nat} (h : e.state = .verifying k) (level run : Nat) :
    tableState s e level run = .alarm ∨ tableState s e level run = .verifying k := by
  simp only [tableState, h]
  split
  · exact .inl rfl
  · exact .inr rfl

theorem tableState_alarm {s : State} {e : Detector} (h : e.state = .alarm) (level run : Nat) :
    tableState s e level run = .alarm := by simp only [tableState, h]

theorem entersConcern_of {old new : DetectorState} (hc : new.concern = true) (hne : new ≠ old)
    (hv : old.isVerifying = false) : entersConcern old new = true := by
  unfold entersConcern
  rw [hc, Bool.true_and]
  split
  · exact absurd rfl hne
  · cases hv
  · exact absurd rfl hne
  · rfl

theorem Detector.taken_state (d : Detector) : d.taken.state
    = match d.state with | .unmonitored | .fault _ => .normal | x => x := by
  unfold Detector.taken
  cases d.state <;> rfl

/-- The table leads to another state than NORMAL only by an entry into one of the three that count for coincidence. -/
theorem tableState_concern {s : State} {d : Detector} {level run : Nat} (hs : d.state ≠ .disabled)
    (hn : tableState s d.taken level run ≠ .normal) (hne : tableState s d.taken level run ≠ d.state) :
    entersConcern d.state (tableState s d.taken level run) = true := by
  have taken := d.taken_state
  have ranges : d.taken.state = .normal ∨ d.taken.state = .preAlarm → d.state.isVerifying = false →
      entersConcern d.state (tableState s d.taken level run) = true := fun he hv =>
    entersConcern_of ((tableState_range he level run).resolve_left hn) hne hv
  cases h : d.state with
  | disabled => exact absurd h hs
  | unmonitored =>
    rw [h] at ranges taken
    exact ranges (.inl taken) rfl
  | fault g =>
    rw [h] at ranges taken
    exact ranges (.inl taken) rfl
  | normal =>
    rw [h] at ranges taken
    exact ranges (.inl taken) rfl
  | preAlarm =>
    rw [h] at ranges taken
    exact ranges (.inr taken) rfl
  | verifying k =>
    rw [h] at taken hne
    rw [(tableState_verifying taken level run).resolve_right hne]
    rfl
  | alarm =>
    rw [h] at taken hne
    exact absurd (tableState_alarm taken level run) hne

theorem concern_cases {x : DetectorState} (h : x.concern = true) : x = .preAlarm ∨ x.isVerifying = true ∨ x = .alarm := by
  cases x with
  | preAlarm => exact .inl rfl
  | verifying k => exact .inr (.inl rfl)
  | alarm => exact .inr (.inr rfl)
  | unmonitored => cases h
  | normal => cases h
  | fault g => cases h
  | disabled => cases h

theorem concern_of_entersConcern {old new : DetectorState} (h : entersConcern old new = true) : new.concern = true :=
  (Bool.and_eq_true _ _ ▸ h : _ ∧ _).1

/-! ### The reading as a state -/

section
variable {s : State} {n : Fin 192} {d : Detector} {level run v : Nat}

theorem takeReading_off (hd : s.detector n = some d) (hs : d.state ≠ .disabled) (hl : 64 ≤ v) (hh : v ≤ 4031)
    (hf : (∃ g, d.state = .fault g) → d.validRun ≠ 0) (ht : (s.zone d.zone).testTimer = none)
    (hlevel : level = readLevel d v) (hrun : run = readRun (s.cls d.cls) d.taken level) :
    takeReading s n (.raw v) = if tracksBaseline s d level run then track (readFollowed s n d level run) n v
      else readFollowed s n d level run := by
  rw [takeReading_valid hd hs hl hh hf, evaluate_off ht hlevel hrun]

/-- A reading that does not come to NORMAL leaves the baseline (R51). -/
theorem not_tracksBaseline (h : tableState s d.taken level run ≠ .normal) : ¬ tracksBaseline s d level run :=
  fun e => h ((tracksBaseline_iff ..).mp e).2.1

/-! ### The alarm of one detector -/

/-- What the event of a reading leaves in a zone of which no other detector is VERIFYING, where the detector enters
ALARM. -/
theorem readingTaken_alarm {t : State} (ht : (s.zone d.zone).testTimer = none)
    (ha : entersAlarm d.state (tableState s d.taken level run) = true)
    (k : Concludes s (zoneAlarm (readWritten s n d level run) d.zone (.detector n) false) t)
    (pieces : OnlyIn (alarming ++ outward) s t) (l : Fin 4) : ReadingTaken l n d v level run s t := by
  have prelude := readWritten_prelude s n d level run
  have alarm := (entersAlarm_iff.mp ha).1
  have tests : TestsEnd (readWritten s n d level run) t := (zoneAlarm_testsEnd ..).trans k.testsEnd
  have event := alarmEvent prelude (readWritten_works s n d level run).within.2
    (readWritten_fire s n d level run d.zone) k
  have record := readRecord_moved (v := v) (not_tracksBaseline (s := s) (d := d) (level := level) (run := run)
    (by rw [alarm]; nofun))
  have off : ((readWritten s n d level run).zone
      (d.moved level run (tableState s d.taken level run)).zone).testTimer = none := by
    rw [show (d.moved level run (tableState s d.taken level run)).zone = d.zone from d.taken_zone, prelude.testTimer, ht]
  obtain ⟨-, more, logged⟩ := (zoneAlarm_aside (readWritten s n d level run) d.zone (.detector n) false).log.trans k.log
  refine ⟨⟨_, tests.detector_eq ((readWritten_detector s n d level run n).trans (if_pos rfl)) off, record.1, record.2,
    fun x hx => ?_⟩, fun m hm => tests.kept prelude ((readWritten_detector s n d level run m).trans (if_neg hm)),
    (readWritten_logged s n d level run).first.andThen logged prelude.log.1, fun _ _ => event.taken,
    fun hne => absurd alarm hne, pieces⟩
  rw [show (d.moved level run (tableState s d.taken level run)).compLimit = d.compLimit from d.taken_compLimit,
    compLimitEntry_self] at hx
  cases hx

/-! ### A reading without an alarm -/

theorem readingTaken_quiet {x e t} {l : Fin 4} {sc : Scan} {note : PollNote} {k : Fin 48}
    (hx : QuietlyRead s n d v level run x e) (hk : enabledSlot (s.scanLists.get l) (sc.slot.val + 1) = some k)
    (hr : replyKind (.raw v) = .valid) (hp : tableState s d.taken level run = .alarm → d.state = .alarm)
    (ht : t = afterPoll s x (.loop l) (.raw v) sc note) : ReadingTaken l n d v level run s t := by
  subst ht
  have logged := quietPoll_logged (note := note) hx.works hk hr hx.logged
  have detector : ∀ m, (afterPoll s x (.loop l) (.raw v) sc note).detector m
      = if m = n then some e else s.detector m := fun m =>
    (quietPoll_detector (u := .loop l) hx.works hk m).trans (hx.detector m)
  have own := (detector n).trans (if_pos rfl)
  have others : ∀ m, m ≠ n → (afterPoll s x (.loop l) (.raw v) sc note).detector m = s.detector m := fun m hm =>
    (detector m).trans (if_neg hm)
  have only : OnlyIn ([Piece.zones, .wings, .loops, .detectors, .exits, .engine, .log] ++ outward) s
      (afterPoll s x (.loop l) (.raw v) sc note) := quietPoll_pieces hx.works hk
  refine ⟨⟨e, own, hx.record.1, hx.record.2, fun y hy => logged.among_of_mem ?_⟩, fun m hm => .inl (others m hm), ?_,
    fun ha hne => absurd (hp ha) hne, fun _ => ⟨others, ?_, only⟩, OnlyIn.mono only (by decide)⟩
  · simp only [List.mem_append]
    exact .inl (.inr hy)
  · rw [List.append_assoc] at logged
    exact ⟨_, logged⟩
  · rw [own]
    exact logged

end

end Sys2Proof.Machine
end

section
/-! SUPPORT. The event of a reading that finds another detector of the zone VERIFYING (R50). -/

set_option autoImplicit false

namespace Sys2Proof.Machine

/-! ### The detectors that enter ALARM -/

/-- The detectors that enter ALARM with a reading: those that are promoted, and the reading's own (R49, R50). -/
def AlarmedWith (s : State) (n : Fin 192) (d : Detector) (level run : Nat) (q : Fin 192) : Prop :=
  q ∈ verifyingOf (readWritten s n d level run) d.zone
    ∨ q = n ∧ entersAlarm d.state (tableState s d.taken level run) = true

section
variable {s : State} {n : Fin 192} {d : Detector} {level run : Nat}

theorem alarmedWith_other {q : Fin 192} (hq : q ≠ n) : AlarmedWith s n d level run q
    ↔ ∃ f, s.detector q = some f ∧ f.zone = d.zone ∧ f.state.isVerifying = true := by
  rw [AlarmedWith, mem_verifyingOf_read hq]
  exact or_iff_left fun e => hq e.1

theorem alarmedWith_self (hs : d.state ≠ .disabled) (hn : tableState s d.taken level run ≠ .normal)
    (hne : tableState s d.taken level run ≠ d.state) :
    AlarmedWith s n d level run n ↔ tableState s d.taken level run ≠ .preAlarm := by
  rw [AlarmedWith, mem_verifyingOf_read_self, entersAlarm_iff]
  rcases concern_cases (concern_of_entersConcern (tableState_concern hs hn hne)) with h | h | h
  · rw [h]
    exact iff_of_false (by rintro (e | ⟨-, e, -⟩) <;> cases e) (fun e => e rfl)
  · exact iff_of_true (.inl h) fun e => by rw [e] at h; cases h
  · exact iff_of_true (.inr ⟨rfl, h, fun e => hne (h.trans e.symm)⟩) (by rw [h]; nofun)

/-- A detector that enters ALARM, in the terms of the records before the event. -/
theorem alarmedWith_iff (hd : s.detector n = some d) (hs : d.state ≠ .disabled)
    (hn : tableState s d.taken level run ≠ .normal) (hne : tableState s d.taken level run ≠ d.state) {q : Fin 192}
    {f : Detector} (hf : s.detector q = some f) (hz : f.zone = d.zone) : AlarmedWith s n d level run q
      ↔ f.state.isVerifying = true ∨ q = n ∧ tableState s d.taken level run ≠ .preAlarm := by
  by_cases hq : q = n
  · subst hq
    rw [hd] at hf
    cases hf
    rw [alarmedWith_self hs hn hne]
    refine ⟨fun h => .inr ⟨rfl, h⟩, fun h => h.elim (fun hv => ?_) And.right⟩
    cases h : d.state with
    | verifying k =>
      have taken := d.taken_state
      rw [h] at taken hne
      rw [(tableState_verifying taken level run).resolve_right hne]
      nofun
    | _ => rw [h] at hv; cases hv
  · rw [alarmedWith_other hq]
    exact ⟨fun ⟨g, hg, _, hv⟩ => .inl (by rw [hf] at hg; cases hg; exact hv),
      fun h => ⟨f, hf, hz, h.resolve_right fun e => hq e.1⟩⟩

/-- Of the detectors of the zone that a reading's event may bring to ALARM, the lowest. -/
theorem alarmedWith_least (hv : ∃ m e, m ≠ n ∧ s.detector m = some e ∧ e.zone = d.zone ∧ e.state.isVerifying = true) :
    ∃ m, AlarmedWith s n d level run m ∧ ∀ q < m, ¬ AlarmedWith s n d level run q := by
  obtain ⟨m, e, hm, he, hz, hy⟩ := hv
  obtain ⟨q, hq, hl⟩ := wellFounded_lt.has_min {q | AlarmedWith s n d level run q}
    ⟨m, (alarmedWith_other hm).mpr ⟨e, he, hz, hy⟩⟩
  exact ⟨q, hq, fun p hp ha => hl p ha hp⟩

/-! ### The event -/

/-- The event of a reading that enters PRE_ALARM, VERIFYING or ALARM with another detector VERIFYING. -/
theorem coincidenceTaken {t : State} {m : Fin 192} {several : Bool} (hd : s.detector n = some d)
    (hs : d.state ≠ .disabled) (ht : (s.zone d.zone).testTimer = none)
    (hv : ∃ m e, m ≠ n ∧ s.detector m = some e ∧ e.zone = d.zone ∧ e.state.isVerifying = true)
    (hn : tableState s d.taken level run ≠ .normal) (hne : tableState s d.taken level run ≠ d.state)
    (hm : AlarmedWith s n d level run m) (hl : ∀ q < m, ¬ AlarmedWith s n d level run q)
    (alone : several = false ↔ ∀ q, AlarmedWith s n d level run q → q = m)
    (k : Concludes s (zoneAlarm (promoteAll (readWritten s n d level run) d.zone) d.zone (.detector m) several) t)
    (pieces : OnlyIn (alarming ++ outward) s t) : CoincidenceTaken n d level run s t := by
  have prelude := readWritten_prelude s n d level run
  have tests := promoted_testsEnd k
  have event := promoted_alarmEvent prelude (readWritten_works s n d level run).within.2
    (readWritten_fire s n d level run d.zone) k
  have record : (readWritten s n d level run).detector n = some (d.moved level run (tableState s d.taken level run)) :=
    (readWritten_detector s n d level run n).trans (if_pos rfl)
  have others : ∀ q, q ≠ n → (readWritten s n d level run).detector q = s.detector q := fun q hq =>
    (readWritten_detector s n d level run q).trans (if_neg hq)
  have off : ((promoteAll (readWritten s n d level run) d.zone).zone d.zone).testTimer = none :=
    ((prelude.trans (promoteAll_prelude _ d.zone)).testTimer d.zone).trans ht
  have zone : (d.moved level run (tableState s d.taken level run)).zone = d.zone := d.taken_zone
  have self := alarmedWith_self (n := n) hs hn hne
  refine ⟨?_, fun q hq f hf hfz hfy => ⟨?_, promoted_logged prelude ((others q hq).trans hf) hfz hfy k⟩,
    fun q hq f hf hfv => ?_, ?_, fun ha => by rw [event.fire, if_pos ha], fun q f hf hfz hfq hlq => ?_, ?_, event.followed,
    fun hp => ?_, pieces⟩
  · by_cases hy : (tableState s d.taken level run).isVerifying = true
    · exact ⟨_, tests.detector_eq (promoted_detector record zone hy) (zone ▸ off), rfl, rfl, (if_pos hy).symm⟩
    · refine ⟨_, tests.detector_eq (d := d.moved level run (tableState s d.taken level run)) ?_ (zone ▸ off), rfl, rfl,
        (if_neg hy).symm⟩
      rw [promoteAll_detector, if_neg fun e => hy (mem_verifyingOf_read_self.mp e), record]
  · exact tests.detector_eq (promoted_detector ((others q hq).trans hf) hfz hfy) (hfz ▸ off)
  · refine promoted_detectorKept prelude (others q hq) (fun hin => ?_) tests
    obtain ⟨g, hg, hgz, hgy⟩ := (mem_verifyingOf_read hq).mp hin
    rw [hf] at hg
    cases hg
    rcases hfv with e | e
    · exact e hgz
    · exact Bool.false_ne_true (e.symm.trans hgy)
  · rw [event.fire]
    split
    next h => exact h
    next => rfl
  · have here : AlarmedWith s n d level run q := (alarmedWith_iff hd hs hn hne hf hfz).mpr hfq
    have least : q = m := by
      rcases lt_trichotomy q m with h | h | h
      · exact absurd here (hl q h)
      · exact h
      · exfalso
        by_cases hmn : m = n
        · subst hmn
          exact self.mp hm ((hlq m h d hd rfl).2 rfl)
        · obtain ⟨g, hg, hgz, hgy⟩ := (alarmedWith_other hmn).mp hm
          exact Bool.false_ne_true ((hlq m h g hg hgz).1.symm.trans hgy)
    subst least
    exact ⟨fun ha => by rw [event.fire, if_neg (by rw [ha]; decide)], event.silence⟩
  · by_cases hw : StagesAlarm s d.zone (.detector m) several
    · rw [event.waits hw]
      nofun
    · rw [event.evacuates hw]
      nofun
  · obtain ⟨q, f, hq, hf, hfz, hfy⟩ := hv
    have both : several = true := Bool.eq_true_of_not_eq_false fun e =>
      hq ((alone.mp e q ((alarmedWith_other hq).mpr ⟨f, hf, hfz, hfy⟩)).trans (alone.mp e n (self.mpr hp)).symm)
    rw [both] at event
    exact event.evacuates not_stagesAlarm_of_several

end

end Sys2Proof.Machine
end

section
/-! The readings of the detectors (O52): what becomes of a missed reply, of a fault code and of a reading under test, and
the obligation. -/

set_option autoImplicit false

namespace Sys2Proof.Machine

/-! ### Readings in a zone under test (R54) -/

section
variable {s : State} {n : Fin 192} {d : Detector} {level run v : Nat}

/-- The entry of an alarm condition that finds a detector of a zone under test armed (R54). -/
def appendActivation (x : State) (n : Fin 192) (z : Fin 64) (level : Nat) (activated : Bool) : State :=
  if activated then appendDetector x .testActivation n z (.number level) else x

/-- The evaluation in a zone under test, in terms of the level, the rise run and the alarm condition that it computes. -/
theorem evaluate_of_test {x : State} {old e : Detector} {fresh armed alarm : Bool} {c : DetectorClass} {t : Thresholds}
    {previous : Option Nat} {z : Fin 64} (hz : e.zone = z) (ht : (x.zone z).testTimer ≠ none) (hc : x.cls e.cls = c)
    (hx : x.thresholdsFor e = t) (hp : (if fresh then none else e.level) = previous)
    (ha : (if fresh then true else e.testArmed.getD false) = armed) (hl : levelOf v e.baseline = level)
    (hr : riseRunAfter e.riseRun (riseOf level previous) c.riseStep previous = run)
    (hm : (t.levelAlarm level || riseAlarm c run) = alarm) :
    evaluate x n old e fresh v
      = afterMove (appendActivation (writeDetector x n old
          { e with
            level := some level, riseRun := run, testArmed := some (armedAfter (decide (level < t.pre)) alarm armed) })
          n z level (alarm && armed)) n z old.state e.state := by
  subst hz hc hx hp ha hl hr hm
  unfold evaluate appendActivation
  exact if_pos (Option.isSome_iff_ne_none.mpr ht)

/-- The record that a reading in a zone under test leaves. -/
def Detector.tested (d : Detector) (level run : Nat) (armed : Bool) : Detector :=
  { d.taken with level := some level, riseRun := run, testArmed := some armed }

/-- A reading's record in a zone under test, with its entry. -/
def testWritten (s : State) (n : Fin 192) (d : Detector) (level run : Nat) (armed : Bool) : State :=
  appendActivation (writeDetector (faultLeft s n d) n d
    (d.tested level run (decide (level < (s.thresholdsFor d).pre) || armed && !alarmMet s d level run)))
    n d.zone level (alarmMet s d level run && armed)

theorem armedAfter_eq (below alarm armed : Bool) : armedAfter below alarm armed = (below || armed && !alarm) := by
  cases below <;> cases alarm <;> cases armed <;> rfl

theorem taken_not_concern (d : Detector) : entersConcern d.state d.taken.state = false := by
  rw [d.taken_state]
  cases d.state <;> rfl

theorem taken_not_alarm (d : Detector) : entersAlarm d.state d.taken.state = false := by
  rw [d.taken_state]
  cases d.state <;> rfl

theorem takeReading_test (hd : s.detector n = some d) (hs : d.state ≠ .disabled) (hl : 64 ≤ v) (hh : v ≤ 4031)
    (hf : (∃ g, d.state = .fault g) → d.validRun ≠ 0) (ht : (s.zone d.zone).testTimer ≠ none)
    (hlevel : level = readLevel d v) (hrun : run = readRun (s.cls d.cls) d.taken level) {armed : Bool}
    (ha : (if d.fresh then true else d.testArmed.getD false) = armed) :
    takeReading s n (.raw v) = deriveFire (testWritten s n d level run armed) d.zone := by
  have prelude := faultLeft_prelude s n d
  have cls : (faultLeft s n d).cls d.handedOn.cls = s.cls d.cls := by
    rw [faultLeft_cls, show d.handedOn.cls = d.cls from d.taken_cls]
  have thresholds : (faultLeft s n d).thresholdsFor d.handedOn = s.thresholdsFor d :=
    (prelude.thresholdsFor _).trans (thresholdsFor_taken s d)
  rw [takeReading_valid hd hs hl hh hf, evaluate_of_test (c := s.cls d.cls) (t := s.thresholdsFor d) (level := level)
    (run := run) (armed := armed) (show d.handedOn.zone = d.zone from d.taken_zone) (by rw [prelude.testTimer]; exact ht)
    cls thresholds d.taken_level (by rw [show d.handedOn.testArmed = d.testArmed from d.taken_testArmed, ha])
    (by rw [show d.handedOn.baseline = d.baseline from d.taken_baseline, hlevel]; rfl)
    (by rw [hrun, ← riseRunAfter_eq]; rfl) (show _ = alarmMet s d level run from rfl), armedAfter_eq,
    show d.handedOn.state = d.taken.state from rfl,
    afterMove_of_alone fun hc => absurd hc (by rw [taken_not_concern]; decide), taken_not_alarm, if_neg (by decide)]
  rfl

section
variable (s : State) (n : Fin 192) (d : Detector) (level run : Nat) (armed : Bool)

theorem testWritten_works : Works detectorward s (testWritten s n d level run armed) := by
  have written := (faultLeft_works s n d).trans (writeDetector_works (faultLeft s n d) n d
    (d.tested level run (decide (level < (s.thresholdsFor d).pre) || armed && !alarmMet s d level run)))
  exact .ite (written.trans (appendDetector_works ..)) written

theorem testWritten_detector (m : Fin 192) : (testWritten s n d level run armed).detector m
    = if m = n then
        some (d.tested level run (decide (level < (s.thresholdsFor d).pre) || armed && !alarmMet s d level run))
      else s.detector m := by
  have written : ∀ e, (writeDetector (faultLeft s n d) n d e).detector m = if m = n then some e else s.detector m :=
    fun e => by rw [writeDetector_detector, (faultLeft_onlyIn s n d).detector_eq (by decide)]
  unfold testWritten appendActivation
  split
  · rw [appendDetector, append_detector, written]
  · rw [written]

theorem testWritten_logged : Logged s (testWritten s n d level run armed)
    (faultClearedEntry s n d ++ activationEntry s n d level (alarmMet s d level run && armed)) := by
  have left := faultLeft_prelude s n d
  have written : ∀ e, Prelude s (writeDetector (faultLeft s n d) n d e) := fun e =>
    left.trans (writeDetector_prelude ..)
  have recorded : ∀ e, Logged s (writeDetector (faultLeft s n d) n d e) (faultClearedEntry s n d) := fun e => by
    have entered := (faultLeft_logged s n d).trans (writeDetector_logged (faultLeft s n d) n d e) left.log.1
    rwa [List.append_nil] at entered
  unfold testWritten appendActivation activationEntry
  split
  · have entered := fun e => (recorded e).trans
      (append_logged (writeDetector (faultLeft s n d) n d e) .testActivation (.detector n)
        (some ((writeDetector (faultLeft s n d) n d e).wingOf d.zone)) (.number level)) (written e).log.1
    rw [← (written _).wingOf]
    exact entered _
  · rw [List.append_nil]
    exact recorded _

end

end

/-! ### Faults (R42) -/

section
variable {s : State} {n : Fin 192} {d : Detector}

theorem takeReading_missed (hd : s.detector n = some d) (hs : d.state ≠ .disabled) :
    takeReading s n .noReply = takeMissed s n d := by
  simp only [takeReading, hd, if_neg hs, classify]

theorem takeMissed_of_not_fault (h : ∀ g, d.state ≠ .fault g) : takeMissed s n d
    = if min (d.missed + 1) 3 < 3 then
        s.putDetector n (some { d with missed := min (d.missed + 1) 3, validRun := 0 })
      else enterFault s n d { d with missed := min (d.missed + 1) 3, validRun := 0 } .noReply := by
  unfold takeMissed
  split
  next g hg => exact absurd hg (h g)
  all_goals rfl

/-- A missed reply that only counts. -/
theorem takeMissed_counts (h : d.missed + 1 < 3 ∨ ∃ f, d.state = .fault f) : takeMissed s n d
    = s.putDetector n (some { d with missed := min (d.missed + 1) 3, validRun := 0 }) := by
  by_cases hg : ∃ g, d.state = .fault g
  · obtain ⟨g, hg⟩ := hg
    simp only [takeMissed, hg, Config.missedLimit]
  · rw [takeMissed_of_not_fault fun g e => hg ⟨g, e⟩, if_pos (by have := h.resolve_right hg; omega)]

theorem classify_faulty {v : Nat} {f : FaultKind} (h : v < 64 ∧ f = .headRemoved ∨ 4032 ≤ v ∧ f = .overRange) :
    classify (.raw v) = .faulty f := by
  rcases h with ⟨hv, rfl⟩ | ⟨hv, rfl⟩
  · have low : v < Config.validLow := hv
    simp only [classify, if_pos low]
  · have low : ¬ v < Config.validLow := not_lt.mpr (le_trans (by decide) hv)
    have high : Config.validHigh < v := hv
    simp only [classify, if_neg low, if_pos high]

theorem replyKind_faulty {v : Nat} {f : FaultKind} (h : v < 64 ∧ f = .headRemoved ∨ 4032 ≤ v ∧ f = .overRange) :
    replyKind (.raw v) ≠ .valid := fun e => by
  have range := (replyKind_raw_iff v).mp e
  have bounds : 64 ≤ v ∧ v ≤ 4031 := range
  omega

theorem replyKind_valid {v : Nat} (hl : 64 ≤ v) (hh : v ≤ 4031) : replyKind (.raw v) = .valid :=
  (replyKind_raw_iff v).mpr ⟨hl, hh⟩

theorem takeReading_faulty {v : Nat} {f : FaultKind} (hd : s.detector n = some d) (hs : d.state ≠ .disabled)
    (h : v < 64 ∧ f = .headRemoved ∨ 4032 ≤ v ∧ f = .overRange) :
    takeReading s n (.raw v) = takeFaultCode s n d f := by
  simp only [takeReading, hd, if_neg hs, classify_faulty h]

/-- A fault code at a detector in FAULT. -/
theorem takeFaultCode_of_fault {g : FaultKind} (h : d.state = .fault g) (f : FaultKind) : takeFaultCode s n d f
    = s.putDetector n (some { d with state := .fault f, missed := 0, validRun := 0 }) := by
  simp only [takeFaultCode, h]

theorem takeFaultCode_of_not_fault (h : ∀ g, d.state ≠ .fault g) (f : FaultKind) : takeFaultCode s n d f
    = enterFault s n d { d with missed := 0, validRun := 0 } f := by
  unfold takeFaultCode
  split
  next g hg => exact absurd hg (h g)
  all_goals rfl

/-- The first valid reply at a detector in FAULT (R43). -/
theorem takeReading_first {v : Nat} {g : FaultKind} (hd : s.detector n = some d) (hg : d.state = .fault g) (hl : 64 ≤ v)
    (hh : v ≤ 4031) (hr : d.validRun = 0) :
    takeReading s n (.raw v) = s.putDetector n (some { d with missed := 0, validRun := 1 }) := by
  simp only [takeReading, hd, hg, reduceCtorEq, if_false, classify_valid hl hh, takeValid, if_pos hr]

/-- The record of a detector that enters FAULT. -/
def Detector.faulted (d : Detector) (missed : Nat) (f : FaultKind) : Detector :=
  { d with
    state := .fault f, missed := missed, validRun := 0, level := none, riseRun := 0
    testArmed := d.testArmed.map fun _ => false }

/-- A detector that has entered FAULT, before the fire state of its zone. -/
def faultWritten (s : State) (n : Fin 192) (d : Detector) (missed : Nat) (f : FaultKind) : State :=
  appendDetector (writeDetector (abortVerify s n d .fault) n d (d.faulted missed f)) .detectorFault n d.zone
    (.faultKind f)

theorem enterFault_eq (s : State) (n : Fin 192) (d : Detector) (missed : Nat) (f : FaultKind) :
    enterFault s n d { d with missed := missed, validRun := 0 } f
      = deriveFire (faultWritten s n d missed f) d.zone := rfl

theorem faultWritten_works (s : State) (n : Fin 192) (d : Detector) (missed : Nat) (f : FaultKind) :
    Works detectorward s (faultWritten s n d missed f) :=
  ((abortVerify_works ..).trans (writeDetector_works ..)).trans (appendDetector_works ..)

theorem faultWritten_detector (s : State) (n : Fin 192) (d : Detector) (missed : Nat) (f : FaultKind) (m : Fin 192) :
    (faultWritten s n d missed f).detector m = if m = n then some (d.faulted missed f) else s.detector m := by
  rw [faultWritten, appendDetector, append_detector, writeDetector_detector, abortVerify_detector]

theorem abortVerify_prelude (s : State) (n : Fin 192) (d : Detector) (c : AbortCause) :
    Prelude s (abortVerify s n d c) := .ite (append_prelude ..) (.refl s)

theorem faultWritten_logged (s : State) (n : Fin 192) (d : Detector) (missed : Nat) (f : FaultKind) :
    Logged s (faultWritten s n d missed f) (faultEntries s n d f) := by
  have aborted := abortVerify_prelude s n d .fault
  have written := aborted.trans (writeDetector_prelude (abortVerify s n d .fault) n d (d.faulted missed f))
  have first : Logged s (abortVerify s n d .fault) (if d.state.isVerifying then
      [{ kind := .verifyAborted, subject := .detector n, wing := some (s.wingOf d.zone)
         detail := .abortCause .fault }] else []) := by
    unfold abortVerify
    split
    · exact append_logged _ _ _ _ _
    · exact .refl s
  have entered := (first.trans (writeDetector_logged _ n d (d.faulted missed f)) aborted.log.1).trans
    (append_logged _ .detectorFault (.detector n) (some (s.wingOf d.zone)) (.faultKind f)) written.log.1
  unfold faultEntries
  unfold faultWritten appendDetector
  rw [written.wingOf]
  dsimp only
  split at entered
  next h =>
    rw [if_pos h]
    exact entered
  next h =>
    rw [if_neg h]
    exact entered

end

/-! ### The obligation -/

theorem readPoll_of {s : State} {l : Fin 4} {k : Fin 48} {n : Fin 192} (h : detectorPolled s l k = some n) (r : Reading) :
    readPoll s l k r = takeReading s n r := by simp only [readPoll, h]

section
variable {s x : State} {n : Fin 192} {e : Option Detector} {l : Fin 4} {r : Reading} {sc : Scan} {note : PollNote}
  {k : Fin 48}

/-- A reading that writes the detector's own record alone. -/
theorem putPoll (hx : x = s.putDetector n e) (hk : enabledSlot (s.scanLists.get l) (sc.slot.val + 1) = some k) :
    (afterPoll s x (.loop l) r sc note).detector n = e
      ∧ (∀ m, m ≠ n → (afterPoll s x (.loop l) r sc note).detector m = s.detector m)
      ∧ OnlyIn ([.loops, .detectors, .log, .engine] ++ outward) s (afterPoll s x (.loop l) r sc note) := by
  subst hx
  have works := putDetector_works s n e
  have detector := quietPoll_detector (u := .loop l) (r := r) (note := note) works hk
  refine ⟨by rw [detector, State.detector_putDetector, if_pos rfl], fun m hm => by
    rw [detector, State.detector_putDetector, if_neg hm],
    OnlyIn.trans (OnlyIn.mono (putDetector_onlyIn s n e) (by decide))
      (OnlyIn.mono (quietPoll_onlyIn (u := .loop l) works hk) (by decide))⟩

theorem putPoll_of_not_valid (hx : x = s.putDetector n e)
    (hk : enabledSlot (s.scanLists.get l) (sc.slot.val + 1) = some k) (hr : replyKind r ≠ .valid) :
    OnlyIn ([.loops, .detectors, .engine] ++ outward) s (afterPoll s x (.loop l) r sc note) := by
  subst hx
  exact OnlyIn.trans (OnlyIn.mono (putDetector_onlyIn s n e) (by decide))
    (OnlyIn.mono (quietPoll_of_not_valid (u := .loop l) (putDetector_works s n e) hk hr) (by decide))

/-- A reading that makes the detector enter FAULT (R42). -/
theorem faultPoll {d : Detector} {missed : Nat} {f : FaultKind}
    (hx : x = deriveFire (faultWritten s n d missed f) d.zone)
    (hk : enabledSlot (s.scanLists.get l) (sc.slot.val + 1) = some k) (hr : replyKind r ≠ .valid) :
    (afterPoll s x (.loop l) r sc note).detector n = some (d.faulted missed f)
      ∧ Logged s (afterPoll s x (.loop l) r sc note) (faultEntries s n d f)
      ∧ (∀ m, m ≠ n → (afterPoll s x (.loop l) r sc note).detector m = s.detector m)
      ∧ OnlyIn ([.zones, .wings, .loops, .detectors, .exits, .engine, .log] ++ outward) s
        (afterPoll s x (.loop l) r sc note) := by
  subst hx
  have derived := deriveFire_onlyIn (faultWritten s n d missed f) d.zone
  have works := (faultWritten_works s n d missed f).trans (deriveFire_works _ d.zone)
  have detector : ∀ m, (afterPoll s (deriveFire (faultWritten s n d missed f) d.zone) (.loop l) r sc note).detector m
      = if m = n then some (d.faulted missed f) else s.detector m := fun m => by
    rw [quietPoll_detector (u := .loop l) works hk, OnlyIn.detector_eq derived (by decide), faultWritten_detector]
  exact ⟨(detector n).trans (if_pos rfl),
    ((faultWritten_logged s n d missed f).keep (derived .log (by decide))).keep
      (quietPoll_of_not_valid (u := .loop l) works hk hr .log (by decide)),
    fun m hm => (detector m).trans (if_neg hm), quietPoll_pieces (u := .loop l) works hk⟩

/-- A reading in a zone under test (R54). -/
theorem testPoll {d : Detector} {v level run : Nat} {armed : Bool}
    (hx : x = deriveFire (testWritten s n d level run armed) d.zone)
    (hk : enabledSlot (s.scanLists.get l) (sc.slot.val + 1) = some k) (hr : replyKind (.raw v) = .valid) :
    (afterPoll s x (.loop l) (.raw v) sc note).detector n
        = some (d.tested level run (decide (level < (s.thresholdsFor d).pre) || armed && !alarmMet s d level run))
      ∧ (∀ m, m ≠ n → (afterPoll s x (.loop l) (.raw v) sc note).detector m = s.detector m)
      ∧ Logged s (afterPoll s x (.loop l) (.raw v) sc note)
        (faultClearedEntry s n d ++ activationEntry s n d level (alarmMet s d level run && armed) ++ lineClearedEntry s l)
      ∧ (∀ w : Fin 4, ((afterPoll s x (.loop l) (.raw v) sc note).wing w).stage = (s.wing w).stage)
      ∧ OnlyIn ([.zones, .wings, .loops, .detectors, .exits, .engine, .log] ++ outward) s
        (afterPoll s x (.loop l) (.raw v) sc note) := by
  subst hx
  have derived := deriveFire_onlyIn (testWritten s n d level run armed) d.zone
  have works := (testWritten_works s n d level run armed).trans (deriveFire_works _ d.zone)
  have detector : ∀ m, (afterPoll s (deriveFire (testWritten s n d level run armed) d.zone) (.loop l) (.raw v) sc
      note).detector m = if m = n then
        some (d.tested level run (decide (level < (s.thresholdsFor d).pre) || armed && !alarmMet s d level run))
      else s.detector m := fun m => by
    rw [quietPoll_detector (u := .loop l) works hk, OnlyIn.detector_eq derived (by decide), testWritten_detector]
  exact ⟨(detector n).trans (if_pos rfl), fun m hm => (detector m).trans (if_neg hm),
    quietPoll_logged works hk hr ((testWritten_logged s n d level run armed).keep (derived .log (by decide))),
    quietPoll_stage (u := .loop l) works hk, quietPoll_pieces (u := .loop l) works hk⟩

end

section
variable {s : State} {n : Fin 192} {d : Detector} {level run v : Nat} {l : Fin 4} {sc : Scan} {note : PollNote}
  {k : Fin 48}

/-- A reading in a zone whose test is off and of which no other detector is VERIFYING. -/
theorem readingPoll (hd : s.detector n = some d) (hs : d.state ≠ .disabled) (hl : 64 ≤ v) (hh : v ≤ 4031)
    (hf : (∃ g, d.state = .fault g) → d.validRun ≠ 0) (ht : (s.zone d.zone).testTimer = none)
    (hlevel : level = readLevel d v) (hrun : run = readRun (s.cls d.cls) d.taken level)
    (hk : enabledSlot (s.scanLists.get l) (sc.slot.val + 1) = some k)
    (ha : ∀ m e, m ≠ n → s.detector m = some e → e.zone = d.zone → e.state.isVerifying = false) :
    ReadingTaken l n d v level run s (afterPoll s (takeReading s n (.raw v)) (.loop l) (.raw v) sc note) := by
  have taken := takeReading_off hd hs hl hh hf ht hlevel hrun
  have within := takeReading_within s n (.raw v)
  have alone := readFollowed_alone (n := n) (level := level) (run := run) ha
  by_cases hal : entersAlarm d.state (tableState s d.taken level run) = true
  · rw [if_pos hal] at alone
    rw [if_neg (not_tracksBaseline (by rw [(entersAlarm_iff.mp hal).1]; nofun)), alone] at taken
    have concludes := afterPoll_concludes (u := .loop l) (r := .raw v) (note := note) within.1 hk
    have pieces := (afterPoll_frame (u := .loop l) (reply := .raw v) (sc := sc) (note := note) within).pieces
    generalize afterPoll s (takeReading s n (.raw v)) (.loop l) (.raw v) sc note = t at concludes pieces ⊢
    rw [taken] at concludes
    exact readingTaken_alarm ht hal concludes pieces l
  · rw [if_neg hal] at alone
    obtain ⟨e, quiet⟩ := quietlyRead (v := v) alone
    rw [← taken] at quiet
    exact readingTaken_quiet quiet hk (replyKind_valid hl hh)
      (fun h => by_contra fun hne => hal (entersAlarm_iff.mpr ⟨h, hne⟩)) rfl

/-- A reading in a zone whose test is off that enters PRE_ALARM, VERIFYING or ALARM with another detector VERIFYING. -/
theorem coincidencePoll (hd : s.detector n = some d) (hs : d.state ≠ .disabled) (hl : 64 ≤ v) (hh : v ≤ 4031)
    (hf : (∃ g, d.state = .fault g) → d.validRun ≠ 0) (ht : (s.zone d.zone).testTimer = none)
    (hlevel : level = readLevel d v) (hrun : run = readRun (s.cls d.cls) d.taken level)
    (hk : enabledSlot (s.scanLists.get l) (sc.slot.val + 1) = some k)
    (hv : ∃ m e, m ≠ n ∧ s.detector m = some e ∧ e.zone = d.zone ∧ e.state.isVerifying = true)
    (hn : tableState s d.taken level run ≠ .normal) (hne : tableState s d.taken level run ≠ d.state) :
    CoincidenceTaken n d level run s (afterPoll s (takeReading s n (.raw v)) (.loop l) (.raw v) sc note) := by
  have taken := takeReading_off hd hs hl hh hf ht hlevel hrun
  have within := takeReading_within s n (.raw v)
  obtain ⟨m, hm, hlow⟩ := alarmedWith_least (level := level) (run := run) hv
  obtain ⟨q, f, hq, hfq, hfz, hfy⟩ := hv
  obtain ⟨several, moved, alone⟩ := afterMove_of_coincidence (tableState_concern hs hn hne)
    ⟨q, (mem_verifyingOf_read hq).mpr ⟨f, hfq, hfz, hfy⟩, hq⟩ hm hlow
  rw [if_neg (not_tracksBaseline hn), readFollowed, moved] at taken
  have concludes := afterPoll_concludes (u := .loop l) (r := .raw v) (note := note) within.1 hk
  have pieces := (afterPoll_frame (u := .loop l) (reply := .raw v) (sc := sc) (note := note) within).pieces
  generalize afterPoll s (takeReading s n (.raw v)) (.loop l) (.raw v) sc note = t at concludes pieces ⊢
  rw [taken] at concludes
  exact coincidenceTaken hd hs ht ⟨q, f, hq, hfq, hfz, hfy⟩ hn hne hm hlow alone concludes pieces

end

/-- Settles O52: each reading in its form by the detector's state and the zone's test, with what the move leads to. -/
theorem readingEvaluated : Obligations.ReadingEvaluated := by
  intro s sc l k n d hm hsc hk hn hd hs
  have event : ∀ r, exec (.pollComplete l r) s = .next (afterPoll s (takeReading s n r) (.loop l) r sc
      { slot := sc.slot, endA := r, endB := .noReply }) := fun r => by rw [exec_pollComplete hm hsc, readPoll_of hn]
  refine ⟨fun hc => ⟨_, event _, ?_⟩, fun r f missed hr hnf => ⟨_, event _, ?_⟩, fun v f g hv hg => ⟨_, event _, ?_⟩,
    fun v g hl hh hg hr => ⟨_, event _, ?_⟩, fun v level run hl hh hf ht hlevel hrun => ⟨fun ha => ⟨_, event _, ?_⟩,
    fun hv hnn hne => ⟨_, event _, ?_⟩⟩, fun v level run armed hl hh hf ht hlevel hrun ha => ⟨_, event _, ?_⟩⟩
  · have counted := (takeReading_missed hd hs).trans (takeMissed_counts hc)
    obtain ⟨own, others, -⟩ := putPoll (r := .noReply) (note := { slot := sc.slot, endA := .noReply, endB := .noReply })
      counted hk
    exact ⟨own, others, (putPoll_of_not_valid counted hk (by decide)).mono (by decide)⟩
  · rcases hr with ⟨rfl, rfl, rfl, h3⟩ | ⟨⟨v, rfl, hv⟩, rfl⟩
    · have three : min (d.missed + 1) 3 = 3 := by omega
      have entered := (takeReading_missed hd hs).trans (takeMissed_of_not_fault hnf)
      rw [three, if_neg (by decide), enterFault_eq] at entered
      exact faultPoll entered hk (by decide)
    · have entered := (takeReading_faulty hd hs hv).trans (takeFaultCode_of_not_fault hnf f)
      rw [enterFault_eq] at entered
      exact faultPoll entered hk (replyKind_faulty hv)
  · have put := (takeReading_faulty hd hs hv).trans (takeFaultCode_of_fault hg f)
    obtain ⟨own, others, -⟩ := putPoll (r := .raw v) (note := { slot := sc.slot, endA := .raw v, endB := .noReply }) put hk
    have only := putPoll_of_not_valid (note := { slot := sc.slot, endA := .raw v, endB := .noReply }) put hk
      (replyKind_faulty hv)
    exact ⟨own, others, Logged.refl_of_onlyIn only (by decide), only.mono (by decide)⟩
  · obtain ⟨own, others, only⟩ := putPoll (r := .raw v) (note := { slot := sc.slot, endA := .raw v, endB := .noReply })
      (takeReading_first hd hg hl hh hr) hk
    exact ⟨own, others, only.mono (by decide)⟩
  · exact readingPoll hd hs hl hh hf ht hlevel hrun hk ha
  · exact coincidencePoll hd hs hl hh hf ht hlevel hrun hk hv hnn hne
  · have fresh : (if d.fresh then true else d.testArmed.getD false) = armed := by
      rw [ha, Detector.fresh]
      cases d.state <;> rfl
    exact testPoll (takeReading_test hd hs hl hh hf ht hlevel hrun fresh) hk (replyKind_valid hl hh)

end Sys2Proof.Machine
end
